-- ==== Sys2Proof/Word.lean ====
section
/-! DEFINITION. The word types of the block: a register is 64 bits (R597), memory is bytes, and every multi-byte field is
little-endian (R16). -/

namespace Sys2Proof

/-- A register of the block (R597). -/
abbrev Word := BitVec 64

/-- One byte of memory, of a message or of a payload. -/
abbrev Byte := BitVec 8

/-- A string of bytes in address order. -/
abbrev Bytes := List Byte

end Sys2Proof
end

