-- ==== Sys2Proof/Syntax.lean ====
section
/-! DEFINITION. The commands of the block: one constructor per row of spec/opcode_table.json, with the operands that come
from outside with it (a port, a value written, data read by a memory, a link block). A row for something the block does by
itself (an arbitration cycle, a completion) carries only the name of the unit or object that does it. -/

namespace Sys2Proof

/-- The ports through which registers are written and read (R512, R564, R572, R592). -/
inductive Port
  | host
  | debug
  | compute (g : Nat)
deriving DecidableEq, Repr

/-- Which half or halves of a register a write covers (R597, R598). -/
inductive Part
  | whole
  | lo
  | hi
deriving DecidableEq, Repr

/-- What the check bits of a store say about one access (R498, R531). -/
inductive Ecc
  | clean
  | corrected
  | uncorrectable
deriving DecidableEq, Repr

/-- A word of the cp_wreq channel of a compute port (Table 17-4, R569). The address is a byte address whose bits [5:0]
are zero. `data` and `enables` matter for a write. -/
structure CpReq where
  addr : BitVec 44
  len : Nat
  write : Bool
  isVolatile : Bool
  seq : Bool
  tag : BitVec 8
  data : Bytes
  enables : List Bool
deriving DecidableEq, Repr

/-- A block received on a link: its tag of five words (Table 13-2), 320 bits, and its payload of whole granules. -/
structure LinkBlock where
  tag : BitVec 320
  payload : Bytes
deriving DecidableEq, Repr

/-- The fuse map of a die (Tables 0-3 to 0-6), the COMPUTE ports present (R12) and the production lock fuse (Table 16-17). -/
structure Fuses where
  grade : Word
  size : Word
  size2 : Word
  unit : Word
  mover : Word
  bank : Word
  link0 : Word
  link1 : Word
  mport : Word
  computePorts : Nat
  tpFused : Bool
deriving DecidableEq, Repr

/-- The straps of the memory and extension ports (R576, R577): the tier sizes in GiB and the role of each extension port. -/
structure Straps where
  t0Size : Nat
  t1Size : Nat
  t2Size : Nat
  xpRole : List Nat
deriving DecidableEq, Repr

/-- One command for the block: a row of spec/opcode_table.json. -/
inductive Instr
  -- reset and boot
  | powerOnReset (fuses : Fuses) (straps : Straps)
  | coldReset
  | warmReset
  | abortPhaseEnd
  | tapReset
  | resetRelease (refClock startup : Bool) (ceilings : List Nat)
  | nvmTransferComplete (ok : Bool) (data : Bytes)
  | securityResponse (answer : Byte)
  | securityTimeout
  -- registers and the staged commit
  | registerWrite (port : Port) (offset : Nat) (part : Part) (value : Word)
  | check (port : Port)
  | apply (port : Port)
  | discard (port : Port)
  | commitTokenArrival
  | islandRetireReport (island : Nat)
  | commitStall
  | cfImgDataWrite (port : Port) (part : Part) (value : Word)
  | kpResetWarm (port : Port)
  | kpResetCold (port : Port)
  | prParamWrite (port : Port) (i : Nat) (part : Part) (value : Word)
  -- work queues
  | qmAdminRingWrite (port : Port) (part : Part) (value : Word)
  | qmAdminEnable (port : Port)
  | qmAdminDisable (port : Port)
  | doorbell (port : Port) (queue : Nat)
  | indexBlockReadResponse (queue : Nat) (data : Bytes) (err : Bool)
  | entryReadResponse (queue : Nat) (data : Bytes) (err : Bool)
  | admission (queue : Nat)
  -- descriptors
  | nop (did : Nat)
  | move (did : Nat)
  | gather (did : Nat)
  | scatter (did : Nat)
  | scatterAdd (did : Nat)
  | automorph (did : Nat)
  | limbXpose (did : Nat)
  | expand (did : Nat)
  | lift (did : Nat)
  | condition (did : Nat)
  | signal (did : Nat)
  | wait (did : Nat)
  | fence (did : Nat)
  | paramSet (did : Nat)
  | replay (did : Nat)
  | mark (did : Nat)
  | replayEntryReadResponse (did : Nat) (data : Bytes) (err : Bool)
  -- streams
  | moverIssueCycle (mover : Nat)
  | walkGranuleRead (walk : Nat) (data : Bytes) (err : Bool)
  | memoryReadResponse (req : Nat) (data : Bytes) (poison ce : Bool)
  | memoryWriteAck (req : Nat)
  | atomicRmw (req : Nat) (data : Bytes) (err : Bool)
  | descriptorComplete (did : Nat)
  | lensStagingGrant (g : Nat)
  | lensHoldExpiry (did : Nat)
  | streamHalt (did : Nat)
  -- admin commands
  | createQueue
  | destroyQueue
  | enableQueue
  | disableQueue
  | resetQueue
  | modifyQueue
  | resumeStream
  | abandonStream
  | resumePlacement (did : Nat)
  -- expander, lift units, compute ports
  | expanderCoreGrant (g : Nat)
  | xofPermutation (g core : Nat) (parityFail : Bool)
  | liftSlotGrant (u : Nat)
  | liftUnitCycle (u : Nat)
  | cpDeliveryTransfer (g : Nat)
  | cpWindowRequest (g : Nat) (req : CpReq)
  | cpAixWord (g chan : Nat) (vals : List (BitVec 32))
  -- window banks and power
  | bankPortCycle (bank port : Nat) (ecc : Ecc)
  | bankScrub (bank : Nat) (ecc : Ecc)
  | retain (pair : Nat)
  | retentionEntry (pair : Nat)
  | wake (pair : Nat)
  | pairWakeComplete (pair : Nat)
  | setOp (island freq seq : Nat)
  | operatingPointChange (island : Nat)
  | pdAck (domain state : Nat)
  | pdAckTimeout (domain : Nat)
  | refClockLoss
  -- translation
  | atInv (port : Port) (part : Part) (value : Word)
  | invalidationComplete
  | atTableWrite (port : Port) (part : Part) (value : Word)
  | atEpochHalving
  -- buoys, watches, flash queues
  | bySignal (port : Port) (part : Part) (value : Word)
  | bySignalRelease (port : Port)
  | bySet (port : Port) (part : Part) (value : Word)
  | byArm (port : Port) (part : Part) (value : Word)
  | byDisarm (port : Port) (part : Part) (value : Word)
  | fqDataRead (port : Port) (f : Nat)
  | fqMark (port : Port) (f : Nat)
  | fqRewind (port : Port) (f : Nat)
  | fqRelease (port : Port) (f : Nat)
  | fqMarkRelease (port : Port) (f : Nat)
  | waitLong (g : Nat)
  -- fabric
  | linkLock (l : Nat)
  | linkLockLoss (l : Nat)
  | linkSend (l : Nat)
  | linkIdleTimer (l : Nat)
  | ackTimeout (l : Nat)
  | beaconTimer (l : Nat)
  | lineAckTimer (line : Nat)
  | lineRetry (line : Nat)
  | lineLost (line : Nat)
  | busyRetry (line : Nat)
  | linkIdle (l : Nat) (b : LinkBlock)
  | linkData (l : Nat) (b : LinkBlock)
  | linkDataMasked (l : Nat) (b : LinkBlock)
  | linkAdd (l : Nat) (b : LinkBlock)
  | linkSignal (l : Nat) (b : LinkBlock)
  | lineAck (l : Nat) (b : LinkBlock)
  | beacon (l : Nat) (b : LinkBlock)
  | fog (l : Nat) (b : LinkBlock)
  | nack (l : Nat) (b : LinkBlock)
  | close (l : Nat) (b : LinkBlock)
  | busy (l : Nat) (b : LinkBlock)
  | restore (port : Port) (l : Nat)
  -- reliability, ageing, test
  | memoryPortTimeout (p : Nat)
  | mpFailed (p : Nat)
  | mpDrained (p : Nat)
  | quiesceTimeout (p : Nat)
  | bankPortTimeout (bank port : Nat)
  | hmRetireReq (port : Port) (part : Part) (value : Word)
  | ageingPeriod (margins : List Nat)
  | memoryRepairDone (mem : Nat) (ok : Bool)
  | keeperWatchdog
  | fatalDumpWritten (trap : Bytes)
  | tpLockSet (port : Port)
  | tpInjArm (port : Port) (part : Part) (value : Word)
  | tpTgRun (port : Port) (p : Nat) (part : Part) (value : Word)
  | tgCycle (p : Nat)
  -- debug port
  | regAccess (dr : BitVec 88)
  | idcode
  | wsExtest
  | wsIntest
  | wsBypass
  | bypass
  | limitWindowExpiry
  | refClockReturn
deriving DecidableEq, Repr

end Sys2Proof
end

