-- ==== Sys2Proof/Config.lean ====
section
/-! DEFINITION. The free values of the model: constants with no body, applied to the state's counter `free` or to the operands
they depend on. Nothing can be proved about what they are. -/

namespace Sys2Proof

/-- The keeper's cycle count of a log record or a dump (R524): time is not modelled. -/
opaque Config.cycles : Nat → Nat

/-- KP_BOOT.BOOT_US (Table 15-27): time is not modelled. -/
opaque Config.bootUs : Nat → Nat

/-- HALT_STAMP of a saved-position record (Table 8-2): time is not modelled. -/
opaque Config.haltStamp : Nat → Nat

/-- Which entry a full translation cache gives up for a new one: the spec names no replacement rule (R361). -/
opaque Config.victim : Nat → Nat

/-- The result of a value the spec calls undefined or does not state, by a code of the place and its operands. -/
opaque Config.openValue : Nat → Nat → Nat

end Sys2Proof
end

