-- ==== Sys2Proof/Machine/Bits.lean ====
section
/-! DEFINITION. Bit fields of words, little-endian byte strings (R16), CRC-32C (R300), and the sorted tables that hold the
model's sparse data. -/

namespace Sys2Proof.Machine

/-- The field [hi:lo] of a word as a number. -/
def fld (w : Word) (hi lo : Nat) : Nat := w.toNat / 2 ^ lo % 2 ^ (hi + 1 - lo)

/-- One bit of a word. -/
def bit (w : Word) (i : Nat) : Bool := w.getLsbD i

/-- The mask of the field [hi:lo]. -/
def fmask (hi lo : Nat) : Word := BitVec.ofNat 64 (2 ^ lo * (2 ^ (hi + 1 - lo) - 1))

/-- A word with the field [hi:lo] replaced by a number, reduced to the field's width. -/
def putFld (w : Word) (hi lo v : Nat) : Word :=
  (w &&& ~~~(fmask hi lo)) ||| BitVec.ofNat 64 (2 ^ lo * (v % 2 ^ (hi + 1 - lo)))

/-- A word with one bit set or cleared. -/
def putBit (w : Word) (i : Nat) (b : Bool) : Word := putFld w i i (if b then 1 else 0)

/-- The number a bit stands for. -/
def b2n (b : Bool) : Nat := if b then 1 else 0

/-- The bits of `new` under `mask`, the bits of `old` elsewhere. -/
def merge (old new mask : Word) : Word := (old &&& ~~~mask) ||| (new &&& mask)

/-- The field [hi:lo] of a number of any width. -/
def nfld (n hi lo : Nat) : Nat := n / 2 ^ lo % 2 ^ (hi + 1 - lo)

/-- One bit of a number. -/
def nbit (n i : Nat) : Bool := n.testBit i

/-- A two's complement number of `w` bits as an integer. -/
def sgn (w n : Nat) : Int :=
  if n % 2 ^ w < 2 ^ (w - 1) then (n % 2 ^ w : Nat) else ((n % 2 ^ w : Nat) : Int) - (2 ^ w : Nat)

/-- The two's complement number of `w` bits of an integer. -/
def unsgn (w : Nat) (i : Int) : Nat := (i % ((2 ^ w : Nat) : Int)).toNat

/-- Division rounded up. -/
def ceilDiv (a b : Nat) : Nat := (a + b - 1) / b

/-- The number a little-endian string of bytes spells (R16). -/
def leNat : Bytes → Nat
  | [] => 0
  | b :: bs => b.toNat + 256 * leNat bs

/-- The little-endian string of `n` bytes of a number (R16). -/
def leBytes : Nat → Nat → Bytes
  | 0, _ => []
  | n + 1, v => BitVec.ofNat 8 v :: leBytes n (v / 256)

/-- The number held in bytes `i` to `i + n - 1` of a string. -/
def leAt (bs : Bytes) (i n : Nat) : Nat := leNat ((bs.drop i).take n)

/-- The 64-bit word `i` of a string. -/
def wordAt (bs : Bytes) (i : Nat) : Word := BitVec.ofNat 64 (leAt bs (8 * i) 8)

/-- A string with `new` laid over it from byte `i` on. -/
def overlay (bs : Bytes) (i : Nat) (new : Bytes) : Bytes :=
  bs.take i ++ new ++ bs.drop (i + new.length)

/-- A string of `n` zero bytes. -/
def zeros (n : Nat) : Bytes := List.replicate n 0

/-- A string cut or padded with zero bytes to `n` bytes. -/
def fitTo (n : Nat) (bs : Bytes) : Bytes := (bs ++ zeros (n - bs.length)).take n

/-- One bit step of the reflected CRC-32C (polynomial 0x1EDC6F41, reflected 0x82F63B78). -/
def crcBit (c : Nat) : Nat := if c % 2 = 1 then (c / 2) ^^^ 0x82F63B78 else c / 2

/-- One byte of the CRC-32C of R300. -/
def crcByte (c : Nat) (b : Byte) : Nat :=
  crcBit (crcBit (crcBit (crcBit (crcBit (crcBit (crcBit (crcBit (c ^^^ b.toNat))))))))

/-- CRC-32C under R300: initial value and final XOR 0xFFFF_FFFF. -/
def crc32c (bs : Bytes) : Nat := (bs.foldl crcByte 0xFFFFFFFF) ^^^ 0xFFFFFFFF

/-- Look a key up in a sparse table. -/
def tget {α : Type} (t : List (Nat × α)) (k : Nat) : Option α :=
  match t with
  | [] => none
  | (j, a) :: r => if j = k then some a else tget r k

/-- A sparse table, sorted by key, with one key set. -/
def tput {α : Type} (t : List (Nat × α)) (k : Nat) (v : α) : List (Nat × α) :=
  match t with
  | [] => [(k, v)]
  | (j, a) :: r => if k < j then (k, v) :: (j, a) :: r else if k = j then (k, v) :: r else (j, a) :: tput r k v

/-- A sparse table without one key. -/
def tdel {α : Type} (t : List (Nat × α)) (k : Nat) : List (Nat × α) :=
  match t with
  | [] => []
  | (j, a) :: r => if j = k then r else (j, a) :: tdel r k

/-- A sparse table with one entry changed, if it is there. -/
def tmod {α : Type} (t : List (Nat × α)) (k : Nat) (f : α → α) : List (Nat × α) :=
  match tget t k with
  | none => t
  | some a => tput t k (f a)

/-- The keys of a sparse table rise strictly. -/
def tsorted {α : Type} : List (Nat × α) → Bool
  | [] => true
  | [_] => true
  | (j, _) :: (k, b) :: r => j < k && tsorted ((k, b) :: r)

/-- The index of the first element of a list that satisfies a test. -/
def firstIdx {α : Type} (p : α → Bool) : List α → Nat → Option Nat
  | [], _ => none
  | a :: r, i => if p a then some i else firstIdx p r (i + 1)

/-- A list with element `i` changed. -/
def lmod {α : Type} (l : List α) (i : Nat) (f : α → α) : List α :=
  match l, i with
  | [], _ => []
  | a :: r, 0 => f a :: r
  | a :: r, i + 1 => a :: lmod r i f

/-- A list with one element put before the first that it is not after. -/
def insertBy {α : Type} (le : α → α → Bool) (a : α) : List α → List α
  | [] => [a]
  | b :: r => if le a b then a :: b :: r else b :: insertBy le a r

/-- A list in the order of a test; elements that the test does not part keep their order. -/
def sortBy {α : Type} (le : α → α → Bool) (l : List α) : List α := l.foldr (insertBy le) []

/-- The least number in `[i, i + fuel)` that satisfies a test. -/
def searchUp (p : Nat → Bool) : Nat → Nat → Option Nat
  | 0, _ => none
  | fuel + 1, i => if p i then some i else searchUp p fuel (i + 1)

end Sys2Proof.Machine
end

