-- ==== Sys2Proof/Machine/Grades.lean ====
section
/-! DEFINITION. The five grades of the family: what each is built with (R4, R5, Tables 0-1 and 0-2). -/

namespace Sys2Proof.Machine

/-- What a grade is built with, before any unit is fused off (R4, R5): counts of units, KiB of a lens and of a window bank, and of the
two modes whether buoys are virtualised and whether entry fetches are doorbell-bounded. The rates of Table 0-2 are time. -/
structure GradeRow where
  groups : Nat
  movers : Nat
  lenses : Nat
  lensKib : Nat
  cores : Nat
  liftUnits : Nat
  banks : Nat
  bankKib : Nat
  links : Nat
  queues : Nat
  contexts : Nat
  virtualised : Bool
  bounded : Bool
  computePorts : Nat
  memoryPorts : Nat
  windowMib : Nat
  buoys : Nat
  watches : Nat
deriving DecidableEq, Repr

/-- A row of Tables 0-1 and 0-2. Each mover group has one lens, one compute port and one expander cluster, and the window is every bank. -/
def gradeOf (groups movers lensKib cores liftUnits banks bankKib links queues contexts : Nat) (virtualised bounded : Bool)
    (memoryPorts buoys watches : Nat) : GradeRow where
  groups := groups
  movers := movers
  lenses := groups
  lensKib := lensKib
  cores := cores
  liftUnits := liftUnits
  banks := banks
  bankKib := bankKib
  links := links
  queues := queues
  contexts := contexts
  virtualised := virtualised
  bounded := bounded
  computePorts := groups
  memoryPorts := memoryPorts
  windowMib := banks * bankKib / 1024
  buoys := buoys
  watches := watches

/-- Tables 0-1 and 0-2 by ID_GRADE.GRADE (Table 0-3). In static mode there are 48 buoys for each control core, of which each group
has one. A reserved value of GRADE reads as XL, and no die carries one. -/
def gradeRow : Nat → GradeRow
  | 0 => gradeOf 1 2 1024 8 1 4 1024 4 64 16 false false 4 48 1024
  | 1 => gradeOf 2 8 2048 32 2 8 2048 16 256 64 false false 16 96 2048
  | 2 => gradeOf 4 16 4096 64 4 16 2048 32 1024 256 true false 32 16384 4096
  | 3 => gradeOf 8 32 4096 128 8 32 2048 64 2048 512 true true 48 32768 8192
  | _ => gradeOf 12 48 4096 192 16 64 2048 96 4096 1024 true true 64 65536 16384

/-- Expander cores in each cluster: the grade's cores divided by its groups (R4). -/
def GradeRow.coresPer (r : GradeRow) : Nat := r.cores / r.groups

/-- ID_SIZE of a die of the grade (Table 0-4). -/
def GradeRow.size (r : GradeRow) : Nat :=
  r.groups + 2 ^ 8 * r.movers + 2 ^ 16 * r.liftUnits + 2 ^ 24 * r.banks + 2 ^ 32 * r.links + 2 ^ 40 * r.coresPer

/-- ID_SIZE2 of a die of the grade (Table 0-5). -/
def GradeRow.size2 (r : GradeRow) : Nat := r.queues + 2 ^ 16 * r.contexts + 2 ^ 32 * r.memoryPorts

/-- ID_GRADE bits [9:0] of a die of the grade (Table 0-3). -/
def gradeWord (g : Nat) : Nat :=
  g + 2 ^ 8 * (if (gradeRow g).virtualised then 1 else 0) + 2 ^ 9 * (if (gradeRow g).bounded then 1 else 0)

end Sys2Proof.Machine
end

