-- ==== Sys2Proof/Machine/RegMap.lean ====
section
/-! DEFINITION. The register index of the block (Tables 18-3 to 18-14): the offset of every register, and for every register
the masks of its RW, WO, W1C and ST fields and its value after a cold reset (R609), from the field maps of the chapters. -/

namespace Sys2Proof.Machine

/-- A row of the register index: the offset of instance 0, the number of instances and their spacing, the bits of each
access code (R17; every other bit is RO or reserved), and the value after a cold block reset (R608). Fused values are 0 here
and come from the fuse map. -/
structure RegRow where
  base : Nat
  count : Nat
  stride : Nat
  rw : Word
  wo : Word
  w1c : Word
  st : Word
  reset : Word
deriving DecidableEq, Repr

namespace Reg

def idGrade : Nat := 0x0
def idSize : Nat := 0x8
def idSize2 : Nat := 0x10
def idFuseUnit : Nat := 0x20
def idFuseMover : Nat := 0x28
def idFuseBank : Nat := 0x30
def idFuseLink0 : Nat := 0x38
def idFuseLink1 : Nat := 0x40
def idFuseMport : Nat := 0x48
def cfCtrl : Nat := 0x10000
def cfStat : Nat := 0x10008
def cfCheckInfo : Nat := 0x10010
def cfRefuseInfo : Nat := 0x10018
def cfEvent : Nat := 0x10020
def cfEventCnt : Nat := 0x10028
def cfCtxSel : Nat := 0x10100
def cfCtxRing : Nat := 0x10108
def cfPrimeSel : Nat := 0x10110
def cfPrimeQ : Nat := 0x10118
def cfPrimePsi : Nat := 0x10120
def cfPrimeMu : Nat := 0x10128
def cfImgSel : Nat := 0x10200
def cfImgAddr : Nat := 0x10208
def cfImgData : Nat := 0x10210
def cfImgCtrl : Nat := 0x10218
def kpBoot : Nat := 0x20000
def kpList : Nat := 0x20008
def kpLogStat : Nat := 0x20010
def kpLogSel : Nat := 0x20018
def kpLogCfg : Nat := 0x20020
def kpLogRec (i : Nat) : Nat := 0x20040 + 0x8 * i
def kpReset : Nat := 0x20080
def kpEvent : Nat := 0x20088
def kpEventCnt : Nat := 0x20090
def kpDumpStat : Nat := 0x20100
def kpDump (i : Nat) : Nat := 0x28000 + 0x8 * i
def qmAdminRing : Nat := 0x30000
def qmAdminIdx : Nat := 0x30008
def qmAdminCtrl : Nat := 0x30010
def qmFetchCfg : Nat := 0x30018
def qmEvent : Nat := 0x30020
def qmEventCnt : Nat := 0x30028
def qmQsel : Nat := 0x30100
def qmQring : Nat := 0x30108
def qmQbind : Nat := 0x30110
def qmQerr : Nat := 0x30118
def qmQcnt : Nat := 0x30120
def qmStat (q : Nat) : Nat := 0x38000 + 8 * q
def atSel : Nat := 0x40000
def atCtx : Nat := 0x40008
def atTable : Nat := 0x40010
def atInv : Nat := 0x40018
def atInvStat : Nat := 0x40020
def atFaultInfo : Nat := 0x40028
def atFaultVa : Nat := 0x40030
def atEvent : Nat := 0x40038
def atEventCnt : Nat := 0x40040
def atHotCfg : Nat := 0x40048
def atCntVal : Nat := 0x40050
def atHot (i : Nat) : Nat := 0x41000 + 0x8 * i
def bySel : Nat := 0x50000
def byVal : Nat := 0x50008
def bySet : Nat := 0x50010
def byArmLo : Nat := 0x50018
def byArmHi : Nat := 0x50020
def byDisarm : Nat := 0x50028
def byArmRes : Nat := 0x50030
def bySignal : Nat := 0x50038
def byCtxSel : Nat := 0x50040
def byCtxMap : Nat := 0x50048
def byCtxStat : Nat := 0x50050
def byEvent : Nat := 0x50058
def byEventCnt : Nat := 0x50060
def byEventCnt2 : Nat := 0x50068
def byUflowInfo : Nat := 0x50070
def byLendStat : Nat := 0x50078
def byPortCtx (i : Nat) : Nat := 0x50100 + 0x8 * i
def byLendCfg (i : Nat) : Nat := 0x50200 + 0x8 * i
def byStaticOwner (i : Nat) : Nat := 0x50400 + 0x8 * i
def fqSel : Nat := 0x51000
def fqCfg : Nat := 0x51008
def fqStat : Nat := 0x51010
def fqSeq : Nat := 0x51018
def fqCnt : Nat := 0x51020
def fqPool : Nat := 0x51028
def fqIrq (i : Nat) : Nat := 0x51100 + 0x8 * i
def fqCtrl (i : Nat) : Nat := 0x54000 + 0x8 * i
def fqData (f : Nat) : Nat := 0x58000 + 64 * f
def hmCfg : Nat := 0x60000
def hmEcc (i : Nat) : Nat := 0x60100 + 0x8 * i
def hmRetiredUnit : Nat := 0x60200
def hmRetiredMover : Nat := 0x60208
def hmRetiredBank : Nat := 0x60210
def hmRetiredLink0 : Nat := 0x60218
def hmRetiredLink1 : Nat := 0x60220
def hmRetiredMport : Nat := 0x60228
def hmFailedBport : Nat := 0x60230
def hmRetireReq : Nat := 0x60240
def hmEvent : Nat := 0x60248
def hmEventCnt : Nat := 0x60250
def hmAgeCfg : Nat := 0x60300
def hmAge (i : Nat) : Nat := 0x60400 + 0x8 * i
def tpLock : Nat := 0x70000
def tpDelay : Nat := 0x70008
def tpBp (i : Nat) : Nat := 0x70010 + 0x8 * i
def tpInj : Nat := 0x70040
def tpInjStat : Nat := 0x70048
def tpTgRange : Nat := 0x70080
def tpTgCtrl (i : Nat) : Nat := 0x71000 + 0x20 * i
def tpTgStat (i : Nat) : Nat := 0x71008 + 0x20 * i
def tpTgErr (i : Nat) : Nat := 0x71010 + 0x20 * i
def fbChip : Nat := 0x80000
def fbSystem : Nat := 0x80008
def fbCfg : Nat := 0x80010
def fbCfg2 : Nat := 0x80018
def fbEvent : Nat := 0x80020
def fbEventCnt : Nat := 0x80028
def fbFogInfo : Nat := 0x80030
def fbLines : Nat := 0x80038
def fbLinksetLo (i : Nat) : Nat := 0x81000 + 0x10 * i
def fbLinksetHi (i : Nat) : Nat := 0x81008 + 0x10 * i
def fbRouteRegion (i : Nat) : Nat := 0x82000 + 0x8 * i
def fbRouteLocal (i : Nat) : Nat := 0x84000 + 0x8 * i
def fbInBase (i : Nat) : Nat := 0x86000 + 0x20 * i
def fbInLen (i : Nat) : Nat := 0x86008 + 0x20 * i
def fbInAttr (i : Nat) : Nat := 0x86010 + 0x20 * i
def fbLinkStat (i : Nat) : Nat := 0x87000 + 0x8 * i
def fbLinkCnt (i : Nat) : Nat := 0x87400 + 0x8 * i
def mvCfg (i : Nat) : Nat := 0x100000 + 0x10000 * i
def mvCnt (i : Nat) : Nat := 0x100010 + 0x10000 * i
def mvStat (n : Nat) : Nat := 0x100100 + 0x10000 * (n / 4) + n % 4 * 8
def lnCfg (i : Nat) : Nat := 0x108000 + 0x10000 * i
def lnStat (i : Nat) : Nat := 0x108008 + 0x10000 * i
def lnCnt (i : Nat) : Nat := 0x108010 + 0x10000 * i
def exCfg (i : Nat) : Nat := 0x10A000 + 0x10000 * i
def exStat (i : Nat) : Nat := 0x10A008 + 0x10000 * i
def exCnt (i : Nat) : Nat := 0x10A010 + 0x10000 * i
def exRej (i : Nat) : Nat := 0x10A018 + 0x10000 * i
def mvXformCnt (i : Nat) : Nat := 0x10F000 + 0x10000 * i
def mvReuseCnt (i : Nat) : Nat := 0x10F008 + 0x10000 * i
def lfCfg (i : Nat) : Nat := 0x200000 + 0x1000 * i
def lfStat (i : Nat) : Nat := 0x200008 + 0x1000 * i
def lfCnt (i : Nat) : Nat := 0x200010 + 0x1000 * i
def lfCnt2 (i : Nat) : Nat := 0x200018 + 0x1000 * i
def lfCnt3 (i : Nat) : Nat := 0x200020 + 0x1000 * i
def lfCbCtx : Nat := 0x200F00
def lfCbCtrl : Nat := 0x200F08
def lfCbLevel (i : Nat) : Nat := 0x200F10 + 8 * i
def wbBank (i : Nat) : Nat := 0x210000 + 0x8 * i
def wbPairStat (i : Nat) : Nat := 0x210200 + 0x8 * i
def wbEvent : Nat := 0x210400
def wbEventCnt : Nat := 0x210408
def wbRefuseInfo : Nat := 0x210410
def wbConflicts : Nat := 0x210418
def wbCfg : Nat := 0x210420
def wbRgn (m r : Nat) : Nat := 0x211000 + 32 * m + 8 * r
def prQsel : Nat := 0x300000
def prStat : Nat := 0x300008
def prReplay : Nat := 0x300010
def prParam (i : Nat) : Nat := 0x300100 + 0x8 * i

end Reg

/-- ID window (Table 18-3). -/
def idRegs : List RegRow := [
  ⟨0x0, 1, 0x8, 0x0, 0x0, 0x0, 0x0, 0x0⟩,
  ⟨0x8, 1, 0x8, 0x0, 0x0, 0x0, 0x0, 0x0⟩,
  ⟨0x10, 1, 0x8, 0x0, 0x0, 0x0, 0x0, 0x0⟩,
  ⟨0x20, 1, 0x8, 0x0, 0x0, 0x0, 0x0, 0x0⟩,
  ⟨0x28, 1, 0x8, 0x0, 0x0, 0x0, 0x0, 0x0⟩,
  ⟨0x30, 1, 0x8, 0x0, 0x0, 0x0, 0x0, 0x0⟩,
  ⟨0x38, 1, 0x8, 0x0, 0x0, 0x0, 0x0, 0x0⟩,
  ⟨0x40, 1, 0x8, 0x0, 0x0, 0x0, 0x0, 0x0⟩,
  ⟨0x48, 1, 0x8, 0x0, 0x0, 0x0, 0x0, 0x0⟩ ]

/-- CF window (Table 18-4). -/
def cfRegs : List RegRow := [
  ⟨0x10000, 1, 0x8, 0x0, 0x3, 0x0, 0x0, 0x0⟩,
  ⟨0x10008, 1, 0x8, 0x0, 0x0, 0x0, 0x0, 0x0⟩,
  ⟨0x10010, 1, 0x8, 0x0, 0x0, 0x0, 0x0, 0x0⟩,
  ⟨0x10018, 1, 0x8, 0x0, 0x0, 0x0, 0x0, 0x0⟩,
  ⟨0x10020, 1, 0x8, 0x0, 0x0, 0x7, 0x0, 0x0⟩,
  ⟨0x10028, 1, 0x8, 0x0, 0x0, 0x0, 0x0, 0x0⟩,
  ⟨0x10100, 1, 0x8, 0x3FF, 0x0, 0x0, 0x0, 0x0⟩,
  ⟨0x10108, 1, 0x8, 0x0, 0x0, 0x0, 0x8FFF, 0x0⟩,
  ⟨0x10110, 1, 0x8, 0x7F, 0x0, 0x0, 0x0, 0x0⟩,
  ⟨0x10118, 1, 0x8, 0x0, 0x0, 0x0, 0xFFFFFFFFF, 0x0⟩,
  ⟨0x10120, 1, 0x8, 0x0, 0x0, 0x0, 0xFFFFFFFFF, 0x0⟩,
  ⟨0x10128, 1, 0x8, 0x0, 0x0, 0x0, 0x1FFFFFFFFF, 0x0⟩,
  ⟨0x10200, 1, 0x8, 0x1FF, 0x0, 0x0, 0x0, 0x100⟩,
  ⟨0x10208, 1, 0x8, 0x7FFF8, 0x0, 0x0, 0x0, 0x0⟩,
  ⟨0x10210, 1, 0x8, 0x0, 0xFFFFFFFFFFFFFFFF, 0x0, 0x0, 0x0⟩,
  ⟨0x10218, 1, 0x8, 0x0, 0x0, 0x0, 0xFFFFFFFF800FFFFF, 0x0⟩ ]

/-- KP window (Table 18-5). -/
def kpRegs : List RegRow := [
  ⟨0x20000, 1, 0x8, 0x0, 0x0, 0x0, 0x0, 0x0⟩,
  ⟨0x20008, 1, 0x8, 0x0, 0x0, 0x0, 0x0, 0x0⟩,
  ⟨0x20010, 1, 0x8, 0x0, 0x0, 0x0, 0x0, 0x0⟩,
  ⟨0x20018, 1, 0x8, 0xFFFFFFFFFFFF, 0x0, 0x0, 0x0, 0x0⟩,
  ⟨0x20020, 1, 0x8, 0xFFFFFFFF00007FFF, 0x0, 0x0, 0x0, 0x3000⟩,
  ⟨0x20040, 8, 0x8, 0x0, 0x0, 0x0, 0x0, 0x0⟩,
  ⟨0x20080, 1, 0x8, 0x0, 0xFF01, 0x0, 0x0, 0x0⟩,
  ⟨0x20088, 1, 0x8, 0x0, 0x0, 0x3, 0x0, 0x0⟩,
  ⟨0x20090, 1, 0x8, 0x0, 0x0, 0x0, 0x0, 0x0⟩,
  ⟨0x20100, 1, 0x8, 0x0, 0x0, 0x0, 0x0, 0x0⟩,
  ⟨0x28000, 4096, 0x8, 0x0, 0x0, 0x0, 0x0, 0x0⟩ ]

/-- QM window (Table 18-6). -/
def qmRegs : List RegRow := [
  ⟨0x30000, 1, 0x8, 0xF0FFFFFFFFF80, 0x0, 0x0, 0x0, 0x4000000000000⟩,
  ⟨0x30008, 1, 0x8, 0xFFFFFFFFFFFFFFC0, 0x0, 0x0, 0x0, 0x0⟩,
  ⟨0x30010, 1, 0x8, 0x1, 0x0, 0x0, 0x0, 0x2⟩,
  ⟨0x30018, 1, 0x8, 0x0, 0x0, 0x0, 0xF, 0x0⟩,
  ⟨0x30020, 1, 0x8, 0x0, 0x0, 0x3, 0x0, 0x0⟩,
  ⟨0x30028, 1, 0x8, 0x0, 0x0, 0x0, 0x0, 0x0⟩,
  ⟨0x30100, 1, 0x8, 0xFFF, 0x0, 0x0, 0x0, 0x0⟩,
  ⟨0x30108, 1, 0x8, 0x0, 0x0, 0x0, 0x0, 0x0⟩,
  ⟨0x30110, 1, 0x8, 0x0, 0x0, 0x0, 0x0, 0x0⟩,
  ⟨0x30118, 1, 0x8, 0x0, 0x0, 0x0, 0x0, 0x0⟩,
  ⟨0x30120, 1, 0x8, 0x0, 0x0, 0x0, 0x0, 0x0⟩,
  ⟨0x38000, 1, 0x8, 0x0, 0x0, 0x0, 0x0, 0x9⟩,
  ⟨0x38008, 4095, 0x8, 0x0, 0x0, 0x0, 0x0, 0x8⟩ ]

/-- AT window (Table 18-7). -/
def atRegs : List RegRow := [
  ⟨0x40000, 1, 0x8, 0xFFF0FFF03FF, 0x0, 0x0, 0x0, 0x0⟩,
  ⟨0x40008, 1, 0x8, 0x0, 0x0, 0x0, 0x10FFF, 0x0⟩,
  ⟨0x40010, 1, 0x8, 0x1FFFFFFFFFFFFFC0, 0x0, 0x0, 0x0, 0x0⟩,
  ⟨0x40018, 1, 0x8, 0x0, 0x8000000000000FFF, 0x0, 0x0, 0x0⟩,
  ⟨0x40020, 1, 0x8, 0x0, 0x0, 0x0, 0x0, 0x0⟩,
  ⟨0x40028, 1, 0x8, 0x0, 0x0, 0x0, 0x0, 0x0⟩,
  ⟨0x40030, 1, 0x8, 0x0, 0x0, 0x0, 0x0, 0x0⟩,
  ⟨0x40038, 1, 0x8, 0x0, 0x0, 0xF, 0x0, 0x0⟩,
  ⟨0x40040, 1, 0x8, 0x0, 0x0, 0x0, 0x0, 0x0⟩,
  ⟨0x40048, 1, 0x8, 0x0, 0x0, 0x0, 0xFFFFFFFF0000FFFF, 0x10000000003E8⟩,
  ⟨0x40050, 1, 0x8, 0x0, 0x0, 0x0, 0x0, 0x0⟩,
  ⟨0x41000, 64, 0x8, 0x0, 0x0, 0xFFFFFFFFFFFFFFFF, 0x0, 0x0⟩ ]

/-- BY and FQ windows (Table 18-8). -/
def byRegs : List RegRow := [
  ⟨0x50000, 1, 0x8, 0x8000FFFF0FFF03FF, 0x0, 0x0, 0x0, 0x0⟩,
  ⟨0x50008, 1, 0x8, 0x0, 0x0, 0x0, 0x0, 0x0⟩,
  ⟨0x50010, 1, 0x8, 0x0, 0x1FFFFFFFF, 0x0, 0x0, 0x0⟩,
  ⟨0x50018, 1, 0x8, 0xFFFFFFFF0FFFF3FF, 0x0, 0x0, 0x0, 0x0⟩,
  ⟨0x50020, 1, 0x8, 0x0, 0xFFFFFFFF000000FF, 0x0, 0x0, 0x0⟩,
  ⟨0x50028, 1, 0x8, 0x0, 0xFFFFFFFF, 0x0, 0x0, 0x0⟩,
  ⟨0x50030, 1, 0x8, 0x0, 0x0, 0x0, 0x0, 0x0⟩,
  ⟨0x50038, 1, 0x8, 0x0, 0xFFFFFFFF1FFF73FF, 0x0, 0x0, 0x0⟩,
  ⟨0x50040, 1, 0x8, 0x3FF, 0x0, 0x0, 0x0, 0x0⟩,
  ⟨0x50048, 1, 0x8, 0x0, 0x0, 0x0, 0x7FFF1FFFFFFF, 0x0⟩,
  ⟨0x50050, 1, 0x8, 0x0, 0x0, 0x0, 0x0, 0x0⟩,
  ⟨0x50058, 1, 0x8, 0x0, 0x0, 0x3F, 0x0, 0x0⟩,
  ⟨0x50060, 1, 0x8, 0x0, 0x0, 0x0, 0x0, 0x0⟩,
  ⟨0x50068, 1, 0x8, 0x0, 0x0, 0x0, 0x0, 0x0⟩,
  ⟨0x50070, 1, 0x8, 0x0, 0x0, 0x0, 0x0, 0x0⟩,
  ⟨0x50078, 1, 0x8, 0x0, 0x0, 0x0, 0x0, 0x0⟩,
  ⟨0x50100, 12, 0x8, 0x0, 0x0, 0x0, 0x80000000000003FF, 0x0⟩,
  ⟨0x50200, 12, 0x8, 0x0, 0x0, 0x0, 0x8001FFFFFFFFFFFF, 0x1000000000000⟩,
  ⟨0x50400, 96, 0x8, 0x0, 0x0, 0x0, 0x80000000000003FF, 0x0⟩,
  ⟨0x51000, 1, 0x8, 0xFF, 0x0, 0x0, 0x0, 0x0⟩,
  ⟨0x51008, 1, 0x8, 0x0, 0x0, 0x0, 0x800FFFFF7FFF03FF, 0x10000⟩,
  ⟨0x51010, 1, 0x8, 0x0, 0x0, 0xC000000000000000, 0x0, 0x0⟩,
  ⟨0x51018, 1, 0x8, 0x0, 0x0, 0x0, 0x0, 0x0⟩,
  ⟨0x51020, 1, 0x8, 0x0, 0x0, 0x0, 0x0, 0x0⟩,
  ⟨0x51028, 1, 0x8, 0x0, 0x0, 0x0, 0x0, 0x4000⟩,
  ⟨0x51100, 4, 0x8, 0x0, 0x0, 0xFFFFFFFFFFFFFFFF, 0x0, 0x0⟩,
  ⟨0x54000, 256, 0x8, 0x0, 0xFF, 0x0, 0x0, 0x0⟩,
  ⟨0x58000, 2048, 0x8, 0x0, 0x0, 0x0, 0x0, 0x0⟩ ]

/-- HM and TP windows (Table 18-9). -/
def hmRegs : List RegRow := [
  ⟨0x60000, 1, 0x8, 0x0, 0x0, 0x0, 0xFFFFFFFFFFFFFFFF, 0x10000030A03E8⟩,
  ⟨0x60100, 16, 0x8, 0x0, 0x0, 0x0, 0x0, 0x0⟩,
  ⟨0x60200, 1, 0x8, 0x0, 0x0, 0x0, 0x0, 0x0⟩,
  ⟨0x60208, 1, 0x8, 0x0, 0x0, 0x0, 0x0, 0x0⟩,
  ⟨0x60210, 1, 0x8, 0x0, 0x0, 0x0, 0x0, 0x0⟩,
  ⟨0x60218, 1, 0x8, 0x0, 0x0, 0x0, 0x0, 0x0⟩,
  ⟨0x60220, 1, 0x8, 0x0, 0x0, 0x0, 0x0, 0x0⟩,
  ⟨0x60228, 1, 0x8, 0x0, 0x0, 0x0, 0x0, 0x0⟩,
  ⟨0x60230, 1, 0x8, 0x0, 0x0, 0x0, 0x0, 0x0⟩,
  ⟨0x60240, 1, 0x8, 0x0, 0xFFFF, 0x0, 0x0, 0x0⟩,
  ⟨0x60248, 1, 0x8, 0x0, 0x0, 0x3F, 0x0, 0x0⟩,
  ⟨0x60250, 1, 0x8, 0x0, 0x0, 0x0, 0x0, 0x0⟩,
  ⟨0x60300, 1, 0x8, 0x0, 0x0, 0x0, 0xFFFFFFFF, 0x3E81419⟩,
  ⟨0x60400, 32, 0x8, 0x0, 0x0, 0x0, 0xFFF00000, 0xA8C00000⟩,
  ⟨0x70000, 1, 0x8, 0x0, 0x4, 0x0, 0x0, 0x0⟩,
  ⟨0x70008, 1, 0x8, 0x801F00000000FFFF, 0x0, 0x0, 0x0, 0x0⟩,
  ⟨0x70010, 4, 0x8, 0x80FFFF00FFFFFFFF, 0x0, 0x0, 0x0, 0x0⟩,
  ⟨0x70040, 1, 0x8, 0xFFFFFFFFFFFFFFFF, 0x0, 0x0, 0x0, 0x0⟩,
  ⟨0x70048, 1, 0x8, 0x0, 0x0, 0x0, 0x0, 0x0⟩,
  ⟨0x70080, 1, 0x8, 0xFFFFF0007FFFF, 0x0, 0x0, 0x0, 0x0⟩,
  ⟨0x71000, 64, 0x20, 0xBC0000FFFFFFFFFF, 0x0, 0x0, 0x0, 0x0⟩,
  ⟨0x71008, 64, 0x20, 0x0, 0x0, 0x0, 0x0, 0x0⟩,
  ⟨0x71010, 64, 0x20, 0x0, 0x0, 0x0, 0x0, 0x0⟩ ]

/-- FB window (Table 18-10). -/
def fbRegs : List RegRow := [
  ⟨0x80000, 1, 0x8, 0x0, 0x0, 0x0, 0x400000FFFFFFFFFF, 0x100000⟩,
  ⟨0x80008, 1, 0x8, 0x0, 0x0, 0x0, 0xFFFFFFFF007F0000, 0x0⟩,
  ⟨0x80010, 1, 0x8, 0x0, 0x0, 0x0, 0xFFF0FFFFFF00FFFF, 0xFFF02008020003E8⟩,
  ⟨0x80018, 1, 0x8, 0x0, 0x0, 0x0, 0xFFFF, 0x1010⟩,
  ⟨0x80020, 1, 0x8, 0x0, 0x0, 0xFF, 0x0, 0x0⟩,
  ⟨0x80028, 1, 0x8, 0x0, 0x0, 0x0, 0x0, 0x0⟩,
  ⟨0x80030, 1, 0x8, 0x0, 0x0, 0x0, 0x0, 0x0⟩,
  ⟨0x80038, 1, 0x8, 0x0, 0x0, 0x0, 0x0, 0x0⟩,
  ⟨0x81000, 64, 0x10, 0x0, 0x0, 0x0, 0xFFFFFFFFFFFFFFFF, 0x0⟩,
  ⟨0x81008, 64, 0x10, 0x0, 0x0, 0x0, 0xFFFFFFFF, 0x0⟩,
  ⟨0x82000, 1024, 0x8, 0x0, 0x0, 0x0, 0xC000000000003F3F, 0x0⟩,
  ⟨0x84000, 1024, 0x8, 0x0, 0x0, 0x0, 0xC000000000003F3F, 0x0⟩,
  ⟨0x86000, 64, 0x20, 0x0, 0x0, 0x0, 0xFFFFFFFF000, 0x0⟩,
  ⟨0x86008, 64, 0x20, 0x0, 0x0, 0x0, 0xFFFFFFFF000, 0x0⟩,
  ⟨0x86010, 64, 0x20, 0x0, 0x0, 0x0, 0x80000000000303FF, 0x0⟩,
  ⟨0x87000, 96, 0x8, 0x0, 0x8000000000000000, 0x0, 0x4000000000000000, 0x0⟩,
  ⟨0x87400, 96, 0x8, 0x0, 0x0, 0x0, 0x0, 0x0⟩ ]

/-- Mover group windows (Table 18-11). -/
def groupRegs : List RegRow := [
  ⟨0x100000, 12, 0x10000, 0x0, 0x0, 0x0, 0xFFF003F, 0x8000008⟩,
  ⟨0x100010, 12, 0x10000, 0x0, 0x0, 0x0, 0x0, 0x0⟩,
  ⟨0x100100, 12, 0x10000, 0x0, 0x0, 0x0, 0x0, 0x0⟩,
  ⟨0x100108, 12, 0x10000, 0x0, 0x0, 0x0, 0x0, 0x0⟩,
  ⟨0x100110, 12, 0x10000, 0x0, 0x0, 0x0, 0x0, 0x0⟩,
  ⟨0x100118, 12, 0x10000, 0x0, 0x0, 0x0, 0x0, 0x0⟩,
  ⟨0x108000, 12, 0x10000, 0x0, 0x0, 0x0, 0x3FF, 0x32⟩,
  ⟨0x108008, 12, 0x10000, 0x0, 0x0, 0x0, 0x0, 0x1000⟩,
  ⟨0x108010, 12, 0x10000, 0x0, 0x0, 0x0, 0x0, 0x0⟩,
  ⟨0x10A000, 12, 0x10000, 0x0, 0x0, 0x0, 0x1F1F, 0x1008⟩,
  ⟨0x10A008, 12, 0x10000, 0x0, 0x0, 0x0, 0x0, 0x1000⟩,
  ⟨0x10A010, 12, 0x10000, 0x0, 0x0, 0x0, 0x0, 0x0⟩,
  ⟨0x10A018, 12, 0x10000, 0x0, 0x0, 0x0, 0x0, 0x0⟩,
  ⟨0x10F000, 12, 0x10000, 0x0, 0x0, 0x0, 0x0, 0x0⟩,
  ⟨0x10F008, 12, 0x10000, 0x0, 0x0, 0x0, 0x0, 0x0⟩ ]

/-- LF window (Table 18-12), the codebook registers answering in every page (R274). -/
def lfRegs : List RegRow := [
  ⟨0x200000, 16, 0x1000, 0x0, 0x0, 0x0, 0x7, 0x2⟩,
  ⟨0x200008, 16, 0x1000, 0x0, 0x0, 0x0, 0x0, 0x0⟩,
  ⟨0x200010, 16, 0x1000, 0x0, 0x0, 0x0, 0x0, 0x0⟩,
  ⟨0x200018, 16, 0x1000, 0x0, 0x0, 0x0, 0x0, 0x0⟩,
  ⟨0x200020, 16, 0x1000, 0x0, 0x0, 0x0, 0x0, 0x0⟩,
  ⟨0x200F00, 16, 0x1000, 0x3FF, 0x0, 0x0, 0x0, 0x0⟩,
  ⟨0x200F08, 16, 0x1000, 0x0, 0x0, 0x0, 0x1, 0x0⟩,
  ⟨0x200F10, 16, 0x1000, 0x0, 0x0, 0x0, 0xFFFFFFFFFFFFFFFF, 0x0⟩,
  ⟨0x200F18, 16, 0x1000, 0x0, 0x0, 0x0, 0xFFFFFFFFFFFFFFFF, 0x0⟩,
  ⟨0x200F20, 16, 0x1000, 0x0, 0x0, 0x0, 0xFFFFFFFFFFFFFFFF, 0x0⟩,
  ⟨0x200F28, 16, 0x1000, 0x0, 0x0, 0x0, 0xFFFFFFFFFFFFFFFF, 0x0⟩ ]

/-- WB window (Table 18-13). -/
def wbRegs : List RegRow := [
  ⟨0x210000, 64, 0x8, 0x0, 0x0, 0x0, 0x803F, 0x0⟩,
  ⟨0x210200, 32, 0x8, 0x0, 0x0, 0x0, 0x0, 0x0⟩,
  ⟨0x210400, 1, 0x8, 0x0, 0x0, 0x7, 0x0, 0x0⟩,
  ⟨0x210408, 1, 0x8, 0x0, 0x0, 0x0, 0x0, 0x0⟩,
  ⟨0x210410, 1, 0x8, 0x0, 0x0, 0x0, 0x0, 0x0⟩,
  ⟨0x210418, 1, 0x8, 0x0, 0x0, 0x0, 0x0, 0x0⟩,
  ⟨0x210420, 1, 0x8, 0x0, 0x0, 0x0, 0xFF, 0x10⟩,
  ⟨0x211000, 104, 0x8, 0x0, 0x0, 0x0, 0x80001F0007FF07FF, 0x0⟩ ]

/-- PR window (Table 18-14). -/
def prRegs : List RegRow := [
  ⟨0x300000, 1, 0x8, 0xFFF, 0x0, 0x0, 0x0, 0x0⟩,
  ⟨0x300008, 1, 0x8, 0x0, 0x0, 0x1, 0x0, 0x0⟩,
  ⟨0x300010, 1, 0x8, 0x0, 0x0, 0x0, 0x0, 0x0⟩,
  ⟨0x300100, 64, 0x8, 0xFFFFFFFFFFFFFFFF, 0x0, 0x0, 0x0, 0x0⟩ ]

/-- The whole register index (R609). -/
def regTable : List RegRow :=
  idRegs ++
  cfRegs ++
  kpRegs ++
  qmRegs ++
  atRegs ++
  byRegs ++
  hmRegs ++
  fbRegs ++
  groupRegs ++
  lfRegs ++
  wbRegs ++
  prRegs

/-- Whether a row has an instance at an offset. -/
def RegRow.covers (r : RegRow) (off : Nat) : Bool :=
  r.base ≤ off && (off - r.base) % r.stride == 0 && (off - r.base) / r.stride < r.count

/-- The row of the register at an offset, if Tables 18-3 to 18-14 assign one (R595). -/
def regRow (off : Nat) : Option RegRow := regTable.find? (fun r => r.covers off)

end Sys2Proof.Machine
end

