-- ==== Sys2Proof/Machine/State.lean ====
section
/-! DEFINITION. The state of the block as plain data: its registers, queues, descriptors in execution, caches, buffers,
window banks, sync unit, fabric, keeper and pins, and the queue of commands that wait. -/

namespace Sys2Proof.Machine

/-- Why a command stops the block. No command of this block stops it: an event whose condition does not hold has no effect,
and a fatal error is a state (R554). The type has no constructor that any meaning raises. -/
inductive Fault
  /-- Raised by nothing: the spec gives every command an effect. Safe. -/
  | unreachable
deriving DecidableEq, Repr

/-- Why a command is refused. -/
inductive Refusal
  /-- The dispatch raises it for a command that has no meaning yet. Safe: nothing is claimed about it. -/
  | notModelled (mnemonic : String)
deriving DecidableEq, Repr

/-- A register file: the registers that differ from their reset value, by key, in rising order. The key of an instance is its
offset + 2^24 × its first selector + 2^40 × its second. -/
abbrev RegFile := List (Nat × Word)

/-- A sparse table by a number, in rising order. -/
abbrev Tab (α : Type) := List (Nat × α)

/-! ### Die, reset, keeper -/

/-- The fuse map and the straps that the last power-on reset sampled (R8, R576, R577). -/
structure Die where
  fuses : Fuses
  straps : Straps
deriving DecidableEq, Repr

/-- The level of a block reset (R527, Table 17-10). -/
inductive ResetLevel
  | warm
  | cold
deriving DecidableEq, Repr

/-- Where the block stands in a reset: whether one is in effect (R589), at which level, and whether the abort phase of a
warm reset runs (R345). -/
structure ResetState where
  inEffect : Bool
  level : ResetLevel
  abort : Bool
deriving DecidableEq, Repr

/-- KP_BOOT.MODE (Table 15-27). -/
inductive KpMode
  | booting
  | normal
  | keeperOnly
  | halted
deriving DecidableEq, Repr

/-- A slot entry of the NOR directory (Table 15-2). -/
structure SlotEntry where
  slot : Nat
  offset : Nat
  length : Nat
  sequence : Nat
deriving DecidableEq, Repr

/-- What the keeper waits for during a boot (Table 15-5, R503, R507). -/
inductive BootStage
  | none
  | sfdp
  | directory
  | epochs
  | list (e : SlotEntry)
  | auth (e : SlotEntry) (list : Bytes)
deriving DecidableEq, Repr

/-- A record of the keeper's log (Table 15-10). Its CRC is computed when it is read. -/
structure LogRec where
  epoch : Nat
  kind : Nat
  origin : Nat
  seq : Nat
  cycles : Nat
  context : Nat
  object : Nat
  old : Word
  new : Word
  detail : Bytes
deriving DecidableEq, Repr

/-- What the epoch writer of the keeper does at the NOR (R503): the sector it erases first, the record it appends. -/
structure EpochJob where
  sector : Nat
  erase : Bool
  slot : Nat
deriving DecidableEq, Repr

/-- The verification job at the security port (R582). -/
inductive SecJob
  | none
  | list
  | code (applyAfter : Bool) (origin : Nat)
deriving DecidableEq, Repr

/-- What the keeper takes from the NOR's Basic Flash Parameter Table (Table 15-1): whether it takes 4-byte addresses, the opcode, dummy
cycles and data lanes of its bulk reads, the opcode of its 4 KiB erase, and its size in bytes. -/
structure NorInfo where
  four : Bool
  op : Nat
  dummy : Nat
  lanes : Nat
  erase : Nat
  size : Nat
deriving DecidableEq, Repr

/-- The keeper: boot, cached light list, lock ranges, log, fatal halt and dump. `nor` is what it knows of the NOR (R501), `worst` the furthest reason of Table 15-6 for which a list has been refused, `sectors` the epoch sectors as the keeper knows them. -/
structure Keeper where
  mode : KpMode
  reason : Nat
  source : Nat
  bootUs : Nat
  epoch : Nat
  stage : BootStage
  slots : List SlotEntry
  sectors : Bytes
  maxSeq : Nat
  job : SecJob
  epochJob : Option EpochJob
  refClock : Bool
  startup : Bool
  nor : NorInfo
  worst : Nat
  ceilings : List Nat
  list : Bytes
  cached : Bytes
  cachedSlot : Nat
  locks : List (Nat × Nat)
  log : List LogRec
  nextSeq : Nat
  overwritten : Nat
  fatal : Option (Nat × Nat)
  dump : Bytes
  dumpValid : Bool
  dumpReason : Nat
  dumpEpoch : Nat
  dumps : Nat
deriving DecidableEq, Repr

/-! ### Configuration -/

/-- CF_STAT.PHASE (Table 15-14). -/
inductive CommitPhase
  | idle
  | checking
  | prepare
  | switch
  | retire
deriving DecidableEq, Repr

/-- The staged configuration (R517): the shadow set that writes change, the pending set that the prepare token fills, the
active set, and the old set that serves descriptors of the old epoch until they retire. -/
structure Config where
  shadow : RegFile
  pending : RegFile
  active : RegFile
  old : RegFile
deriving DecidableEq, Repr

/-- A commit in progress: the phase, the next island of Table 15-9 that the token reaches, the islands that have reported
retirement, the commits completed and the result of the latest CHECK. -/
structure Commit where
  phase : CommitPhase
  pos : Nat
  reported : List Nat
  epoch : Nat
  result : Nat
  origin : Nat
deriving DecidableEq, Repr

/-- A double-banked memory (R521): its active bank and the words of both banks that are not zero, by 2^20 × bank + word; the
words found uncorrectable and under repair (R535). -/
structure Image where
  active : Nat
  words : RegFile
  damaged : List Nat
deriving DecidableEq, Repr

/-! ### Requests to memories and banks -/

/-- Where an access goes: a memory port of tier 0 (R575), an extension port (R577) or a window bank (R481). -/
inductive Dest
  | mport (p : Nat)
  | ext (e : Nat)
  | bank (b : Nat)
deriving DecidableEq, Repr

/-- What an access does at its target. -/
inductive Access
  | read
  | write
  | rmw
  | aliasSet
  | aliasClear
deriving DecidableEq, Repr

/-- Who waits for an access. -/
inductive Owner
  | src (did obj va off : Nat)
  | dst (did obj va pos : Nat)
  | rmw (did pos : Nat)
  | walk (w : Nat)
  | idx (q : Nat)
  | ent (q i : Nat)
  | replayEnt (did : Nat)
  | rcd (did pos : Nat)
  | interim (did : Nat)
  | cons (q : Nat)
  | save (did : Nat)
  | saveRead (did : Nat)
  | abortRcd (q i : Nat)
  | cp (g rsp off : Nat)
  | cpAhead (g : Nat)
  | inbound (line seq : Nat)
  | inboundAdd (line seq : Nat)
  | tg (p : Nat)
  | flush (e : Nat)
deriving DecidableEq, Repr

/-- The format of Table 2-1 of an addition, its rounding and its modulus (R173 to R175). -/
structure AddForm where
  fmt : Nat
  round : Nat
  prime : Nat
deriving DecidableEq, Repr

/-- An access that has been issued and has not yet been answered. `tag` is the address-space tag it was translated under,
which an invalidation waits on (R366); physical accesses carry none. `unit` names the access unit of a stream that it belongs to, `form`
what an addition adds by. A read of the control island that its bank has `served`
holds its data, and `again` then says that they are uncorrectable; for a memory port `again` says that a poisoned read has
been repeated (R531), and `sent` that the port has passed the access on (R283). -/
structure MemReq where
  id : Nat
  dest : Dest
  pa : Nat
  len : Nat
  kind : Access
  data : Bytes
  enables : List Bool
  owner : Owner
  master : Nat
  queue : Nat
  ctx : Nat
  tag : Option Nat
  lc : Bool
  held : Bool
  again : Bool
  served : Bool
  sent : Bool
  unit : Nat
  form : AddForm
deriving DecidableEq, Repr

/-! ### Translation -/

/-- A range entry (Table 10-1) with its tag, as a cache holds it. -/
structure Range where
  tag : Nat
  vaStart : Nat
  length : Nat
  target : Nat
  attr : Nat
deriving DecidableEq, Repr

/-- A lookup outcome that a walk found and no cache keeps (R361): rows 1 to 4 of Table 10-3, or the range itself. -/
inductive WalkResult
  | data
  | table
  | miss
  | notPresent (r : Range)
  | found (r : Range)
deriving DecidableEq, Repr

/-- A walk in progress (R362, R363): the byte it translates, the table it started with, the entries still in question, and
the stream or queue it serves. -/
structure Walk where
  id : Nat
  tag : Nat
  va : Nat
  base : Nat
  count : Nat
  lo : Nat
  hi : Nat
  did : Option Nat
  queue : Nat
  mover : Option Nat
  lc : Bool
  started : Bool
  cancelled : Bool
  above : Nat
  under : Nat
deriving DecidableEq, Repr

/-- A pending invalidation (R365, R366): its tag, or every tag, and the accesses and line items it waits for. -/
structure Inv where
  tag : Option Nat
  waits : List Nat
deriving DecidableEq, Repr

/-- The translation unit: the caches of each mover, of each group and of the control island, walks and invalidations. -/
structure Translation where
  l0 : Tab (List Range)
  l1 : Tab (List Range)
  l2 : List Range
  walks : List Walk
  invs : List Inv
deriving DecidableEq, Repr

/-! ### Queues -/

/-- A queue state (Table 9-2). -/
inductive QState
  | absent
  | disabled
  | enabled
  | error
deriving DecidableEq, Repr

/-- A chain that has been fetched and waits for admission: the index of its FIRST entry, its entries, and the
identity that orders requests of one kind and class (R281), and whether its admission has waited for a slot. -/
structure Chain where
  first : Nat
  entries : List Bytes
  stamp : Nat
  waited : Bool
deriving DecidableEq, Repr

/-- A queue of Table 9-4. The admin queue is queue 0. `cons` is the consumer index and `pr` the highest accepted producer
index (R313, R319); `final` lists the owned indices whose final record is written; `next` is the next index to fetch, `spec`
the bound of a speculative read (R321), `halfEntry` the header half of an entry read in two steps (R323), and `entStale` says that the
entry read in flight was issued ahead of a PRODUCER that has come to cover its slot (R321). `slotAsk` tells since when the next admission of
the queue has been a request for a slot (R281), 0 where it is none; `lost` says that a remote write of the queue was lost (R440). -/
structure Queue where
  state : QState
  ctx : Nat
  group : Nat
  bulk : Bool
  stopMode : Bool
  weight : Nat
  limit : Nat
  log2 : Nat
  eventFq : Nat
  eventEn : Bool
  ring : Nat
  idx : Nat
  save : Nat
  pr : Nat
  cons : Nat
  next : Nat
  spec : Nat
  halfEntry : Option Bytes
  part : List Bytes
  chains : List Chain
  final : List Nat
  idxOut : Bool
  idxAgain : Bool
  entOut : Option Nat
  entStale : Bool
  slotAsk : Nat
  lost : Bool
  markOpen : Bool
  errReason : Nat
  errStatus : Nat
  errIndex : Nat
  consWritten : Nat
  idle : Bool
  idleSig : Option Word
  idleEvent : Bool
  lastRead : Bool
  params : RegFile
deriving DecidableEq, Repr

/-- The admin command being executed or waiting (R333): its index, its entry, and whether it has begun and now waits: for the power
domains of its group (R338) or for the records of the streams that it resumes. -/
structure AdminCmd where
  index : Nat
  entry : Bytes
  begun : Bool
deriving DecidableEq, Repr

/-- What is particular to the admin queue (R331): the first setting of ENABLE and a later write of QM_ADMIN_IDX take START; the
commands fetched and not executed; the entries read, for the fatal dump (Table 16-7). -/
structure Admin where
  fresh : Bool
  cmds : List AdminCmd
  recent : List (Nat × Bytes)
deriving DecidableEq, Repr

/-- What a queue-manager access under translation is for (R359). -/
inductive QmUse
  | idxRead
  | entRead (i : Nat)
  | replayEnt (did : Nat)
  | rcd (did pos : Nat)
  | interim (did : Nat)
  | consWrite
  | abortRcd (i : Nat)
deriving DecidableEq, Repr

/-- An access of the queue manager under translation that waits for a walk. -/
structure QmReq where
  queue : Nat
  va : Nat
  len : Nat
  data : Bytes
  enables : List Bool
  use : QmUse
deriving DecidableEq, Repr

/-! ### Descriptors in execution -/

/-- A wait of an admitted descriptor (R88). -/
structure WaitSt where
  cond : Nat
  value : Nat
  phys : Nat
  ident : Nat
  met : Bool
  registered : Bool
deriving DecidableEq, Repr

/-- A signal in force (Table 3-7) with the physical buoy of a local one. -/
structure SigSt where
  word : Word
  phys : Nat
  slices : Nat
deriving DecidableEq, Repr

/-- The stages of a descriptor from admission on (Table 3-9). -/
inductive DPhase
  | waiting
  | ready
  | running
  | faulted
  | halted
  | saving
  | resuming
  | finishing
  | recording
deriving DecidableEq, Repr

/-- A fault unit of a stream (R293): its kind (FAULT_OBJ of Table 8-2), its virtual address and its bytes. -/
structure FUnit where
  obj : Nat
  va : Nat
  len : Nat
deriving DecidableEq, Repr

/-- A fault unit that a stream reads: the bytes for which reads were issued, the parts that came back, and whether it has been
read again after an error. -/
structure InUnit where
  unit : FUnit
  issued : Nat
  parts : List (Nat × Bytes)
  reread : Bool
deriving DecidableEq, Repr

/-- A part of an access unit after translation: the chip if it is another one, the physical address and the bytes. -/
structure XPart where
  chip : Option Nat
  pa : Nat
  len : Nat
deriving DecidableEq, Repr

/-- What the production of a unit counts: results to note, residues replaced, casts that saturated, NaNs made zero, elements that
no code represents, elements conditioned, and whether the unit holds anything but pad (1 or 0). -/
structure Notes where
  noted : Nat
  replaced : Nat
  sat : Nat
  nan : Nat
  unrep : Nat
  cond : Nat
  held : Nat
deriving DecidableEq, Repr

/-- The destination unit that a stream is writing: its bytes and byte enables, the parts and the ranges that its translation gave, how
many bytes have been issued, whether it is a tile of zero sub-blocks, and what its production counts. -/
structure OutUnit where
  id : Nat
  obj : Nat
  va : Nat
  data : Bytes
  enables : List Bool
  parts : List XPart
  ranges : List Range
  tag : Nat
  issued : Nat
  zeroTile : Bool
  notes : Notes
deriving DecidableEq, Repr

/-- An operand of a descriptor: format, base, sizes, inner-block exponents and outer strides (R63). -/
structure Operand where
  fmt : Nat
  base : Nat
  n : List Nat
  e : List Nat
  s : List Nat
deriving DecidableEq, Repr

/-- The resolved geometry of a data descriptor (Tables 3-11 to 3-16). -/
structure Geo where
  op : Nat
  src : Operand
  dst : Operand
  win : List Nat
  start : List Int
  perm : List Nat
  bcast : Nat
  pad : Nat
  padValue : Nat
  round : Nat
  toPort : Bool
  idxCount : Nat
  idxDim : Nat
  idxPolicy : Nat
  idxBase : Nat
  galois : Nat
  evalDomain : Bool
  bitrev : Bool
  domainTag : Nat
  polyBase : Nat
  seedBase : Nat
  limbMap : List Nat
  liftUnit : Nat
  liftCtrl : Nat
  kDelta : Int
  auxBase : Nat
  mDelta : Nat
  outlierDst : Nat
deriving DecidableEq, Repr

/-- An expander core that a stream holds, or what remains of one (R225, R231): the limb by seed record and window limb, its sponge
after some permutations, the output bytes not yet split into groups, the slots accepted so far, and its buffer: the residues from
tile `tile` on. Residues below slot `regenTo` are computed again and dropped. `pausedAt` orders the pauses (R228), 0 for a core that has
not paused. -/
structure Core where
  index : Nat
  poly : Nat
  limb : Nat
  perms : Nat
  lanes : List Word
  carry : Bytes
  slot : Nat
  residues : List Nat
  tile : Nat
  regenTo : Nat
  retries : Nat
  pausedAt : Nat
deriving DecidableEq, Repr

/-- A line item's acknowledgement that a signal or a write of a stream waits for (R386, R468). -/
structure Ackwait where
  line : Nat
  seq : Nat
  isSignal : Bool
deriving DecidableEq, Repr

/-- A signal that waits until earlier writes of its stream have reached coherence (R93). -/
structure LateSig where
  sig : Nat
  amount : Nat
  upTo : Nat
deriving DecidableEq, Repr

/-- A descriptor that has been admitted and has no final record yet. `pos` is the place in the order of emission of the next
destination unit to write; `rdPos` that of the unit whose reads are being planned, `rdDone` of which are planned; `idxScan`
counts the indices that have been checked ahead of all writes (R163); `recent` names the units that the coalescer holds, by physical
address, with the virtual address that each was read at (R165); `runs` the units of rows that a run of one index repeats, with the last
position of the list that used each (R166); `stagedLimbs` the limbs of which the lens held tiles at the halt (R203); `placed` the place, the address and the byte enables of the units emitted so far, where a later unit may share their bytes (R71,
R171);
`seeds` are the seed records read (R217); `wakes` the operand addresses whose bank pairs are still to be woken (R287); `outDone` says that the outlier record that comes before the next unit is
out; `haltedAt` orders the halts (R202); `liftPos` is how far the lift unit has produced. -/
structure Desc where
  id : Nat
  queue : Nat
  first : Nat
  entries : List Bytes
  order : Nat
  parent : Option Nat
  iter : Nat
  ent : Nat
  phase : DPhase
  began : Bool
  waits : List WaitSt
  predVal : Nat
  sigs : List (Option SigSt)
  late : List LateSig
  epoch : Nat
  resolved : List Nat
  geo : Geo
  mover : Option Nat
  recIdx : Nat
  pos : Nat
  rdPos : Nat
  rdDone : Nat
  ins : List InUnit
  recent : List (List Nat × Nat)
  runs : List (Nat × Nat)
  stagedLimbs : Nat
  placed : List (Nat × Nat × List Bool)
  idxScan : Nat
  seeds : List Bytes
  wakes : List Nat
  results : List (Nat × WalkResult)
  wr : Option OutUnit
  rmwOut : Bool
  fault : Option FUnit
  faultIsHalt : Bool
  faultCause : Nat
  status : Nat
  word1 : Word
  skipped : Bool
  noted : Nat
  replaced : Nat
  corrected : Nat
  sigChip : Option Nat
  lines : Tab Nat
  acks : List Ackwait
  recordLeft : List Nat
  chan : Option Nat
  idxDone : Nat
  stagingKib : Nat
  staged : Bool
  stagingWait : Bool
  holdLeft : Bool
  eccLimb : Option Nat
  cores : List Core
  coreWait : Bool
  liftSlot : Option Nat
  liftWait : Bool
  levels : List Int
  liftPos : Nat
  outDone : Bool
  replayEnts : List Bytes
  replayPart : List Bytes
  replayIter : Nat
  replayEnt : Nat
  replayOut : Bool
  replayDone : Nat
  replayStatus : Nat
  replayWord1 : Word
  replayFault : Option Nat
  replayMark : Bool
  replayEnded : Bool
  replayFail : Option Nat
  begunAt : Nat
  resumeStamp : Nat
  slotWaited : Bool
  haltedAt : Nat
deriving DecidableEq, Repr

/-! ### Sync unit -/

/-- A physical buoy (R377, R381, R384). -/
structure Buoy where
  value : Nat
  sat : Bool
  poison : Bool
deriving DecidableEq, Repr

/-- A claimant of a buoy (R379): a CLAIM wait of a descriptor or a CLAIM watch. -/
inductive Claimant
  | wait (did w : Nat)
  | watch (slot : Nat)
deriving DecidableEq, Repr

/-- An armed watch (R392 to R394). -/
structure Watch where
  ctx : Nat
  ident : Nat
  phys : Nat
  cond : Nat
  value : Nat
  each : Bool
  cookie : Nat
  fq : Nat
deriving DecidableEq, Repr

/-- A record in a flash-queue cell: its two words. -/
abbrev Flash := Word × Word

/-- A flash queue (R400 to R405): its cells from the head, whether the tail cell is open, the read position and the mark as
cell indices from the head, and the read latch. -/
structure FlashQ where
  cells : List (List Flash)
  tailOpen : Bool
  rd : Nat
  mark : Nat
  latch : Bytes
  latchTag : Nat
deriving DecidableEq, Repr

/-- A BY_SIGNAL operation that its port has accepted and the sync unit has not performed (R387), with the window writes it
waits for. -/
structure HeldSignal where
  word : Word
  accepted : Bool
  waits : List Nat
deriving DecidableEq, Repr

/-- The sync unit. -/
structure Sync where
  buoys : Tab Buoy
  claimants : Tab (List Claimant)
  watches : Tab Watch
  gens : Tab Nat
  fqs : Tab FlashQ
  held : Tab (List HeldSignal)
deriving DecidableEq, Repr

/-! ### Window, compute ports -/

/-- The power state of a bank pair (Table 14-4). -/
inductive PairState
  | off
  | on
  | retention
  | waking
deriving DecidableEq, Repr

/-- A bank pair: its state, whether it has been offered for retention and not woken since, and an accepted request. -/
structure Pair where
  state : PairState
  offered : Bool
  retaining : Bool
deriving DecidableEq, Repr

/-- The window banks: their bytes that are not zero by window offset, the 64-bit words that hold an uncorrectable error,
the bank pairs, and the scrub positions. -/
structure Window where
  ram : List Host.Cell
  bad : List Nat
  pairs : Tab Pair
  scrub : Tab Nat
  rmws : Tab (Nat × Nat)
deriving DecidableEq, Repr

/-- A delivery slot of a compute port (Table 17-4): KIND, CHAN and 64 bytes, with the model's identity and the place of its unit
in the order of emission. `last` marks the last slot of an access unit. -/
structure Slot where
  id : Nat
  pos : Nat
  last : Bool
  kind : Nat
  chan : Nat
  data : Bytes
deriving DecidableEq, Repr

/-- An address channel (R290, R573): the indices it holds, the sizes of the words not yet fully released, its credits, and
the stream bound to it. -/
structure Channel where
  idx : List Int
  words : List Nat
  credits : Nat
  bound : Option Nat
deriving DecidableEq, Repr

/-- A response that a compute port owes, in request order (R570): the window offset of its request, its accesses still outstanding and
the bytes that came back, by their place. -/
structure CpRsp where
  id : Nat
  tag : Nat
  write : Bool
  base : Nat
  len : Nat
  left : Nat
  parts : List (Nat × Bytes)
  err : Bool
deriving DecidableEq, Repr

/-- A compute port: its delivery queue, address channels, responses, and
the read-ahead buffer of 64 granules (R428). `mid` names the stream of which a unit has been delivered in part. -/
structure CPort where
  dlv : List (Nat × Slot)
  mid : Option Nat
  chans : Tab Channel
  rsps : List CpRsp
  ahead : Tab Bytes
deriving DecidableEq, Repr

/-! ### Fabric -/

/-- The state of a link (Table 13-1). -/
inductive LinkState
  | down
  | training
  | up
  | isolated
  | failed
deriving DecidableEq, Repr

/-- A block in a link's queue or replay buffer, with how often it was sent on this link, the outbound line it belongs to (if any),
the link whose receive buffer holds it (a transit block), its size, its queue and its class. -/
structure LinkItem where
  block : LinkBlock
  sends : Nat
  line : Option Nat
  came : Option Nat
  bytes : Nat
  qid : Nat
  lc : Bool
deriving DecidableEq, Repr

/-- One link (Table 13-1): the sequence of the next block sent and of the next block expected (R450), the credits held and those owed
to the other side (R449), whether a NACK has gone out, the blocks that wait, those not acknowledged, the place in the replay buffer
from which it sends again, and the periods without progress (R451). -/
structure Link where
  state : LinkState
  cause : Nat
  nbrValid : Bool
  nbrLink : Nat
  nbrChip : Nat
  nbrEpoch : Nat
  locked : Bool
  txSeq : Nat
  rxSeq : Nat
  credits : Nat
  owed : Nat
  nackSent : Bool
  queue : List LinkItem
  replay : List LinkItem
  resend : Option Nat
  timeouts : Nat
deriving DecidableEq, Repr

/-- An item of an outbound leading line, kept until it is acknowledged: how often it was sent, the address of its first byte, its
address-space tag, and the access units whose bytes it carries. -/
structure OutItem where
  seq : Nat
  block : LinkBlock
  sends : Nat
  va : Nat
  tag : Option Nat
  id : Nat
  units : List Nat
deriving DecidableEq, Repr

/-- An outbound leading line (R463, R464): its stream, destination, next LINE_SEQ, the items sent and not acknowledged, those not sent,
whether the last of these may still grow (R446), whether its OPEN block has been made, whether it runs on the alternate set (R475), and whether the destination refused its OPEN block
for now. -/
structure OutLine where
  did : Nat
  chip : Nat
  next : Nat
  items : List OutItem
  waiting : List OutItem
  growing : Bool
  opened : Bool
  alt : Bool
  busy : Bool
deriving DecidableEq, Repr

/-- An inbound item being applied: how many of its accesses are outstanding, and the link in whose receive buffer its block still lies
(R449, R472). -/
structure Applying where
  seq : Nat
  parts : Nat
  came : Option Nat
deriving DecidableEq, Repr

/-- An inbound leading line (R463, R465): the next LINE_SEQ to apply, the blocks held for their turn with the fabric island that holds
them and the link in whose receive buffer they lie (none for one in the reorder store), the items being applied, the items acknowledged, and the refusal (R467). `opened` says that its OPEN block has come. -/
structure InLine where
  src : Nat
  line : Nat
  opened : Bool
  opening : LinkBlock
  expect : Nat
  reorder : List (Nat × Option Nat × LinkBlock)
  applying : List Applying
  acked : Nat
  refusal : Option (Nat × Nat)
deriving DecidableEq, Repr

/-- The fabric endpoint and router: its links, lines, streams that wait for a line, the blocks that wait for a link (accepted
for another chip, or this chip's own acknowledgements), the blocks of this chip for itself that are not delivered yet (R458), its chip ID
and whether that is a derived one (R455). -/
structure Fabric where
  links : Tab Link
  out : Tab OutLine
  inb : Tab InLine
  outWaits : List (Nat × Nat)
  transit : List LinkItem
  loop : List LinkBlock
  chipId : Nat
  idValid : Bool
  derived : Bool
  reorderPeak : Nat
deriving DecidableEq, Repr

/-! ### Reliability, ports, clocks, test -/

/-- A memory port in the quiesce handshake of Table 17-6, or after it. -/
inductive PortFault
  | quiescing
  | drained
deriving DecidableEq, Repr

/-- A traffic generator in its run (R552, R553): the offset in the range of its next request, its requests of this pass, whether it
makes the read pass of OP 3, and whether it has latched an address in TP_TG_ERR since RUN was set. -/
structure TrafficGen where
  next : Nat
  count : Nat
  readPass : Bool
  erred : Bool
deriving DecidableEq, Repr

/-- A power domain at its switch (R586): the state asked for and the state reached. -/
structure Domain where
  want : Nat
  got : Nat
deriving DecidableEq, Repr

/-- A SET_OP that has not been answered (R584). -/
structure OpReq where
  freq : Nat
  seq : Nat
deriving DecidableEq, Repr

/-- Reliability, power, clocks and test. -/
structure Support where
  ports : Tab PortFault
  bankPortBad : Tab Nat
  ceWin : Tab Nat
  ueWin : Tab Nat
  ops : Tab OpReq
  domains : Tab Domain
  holdover : Bool
  tg : Tab TrafficGen
  injSkipped : Nat
  injDone : Nat
  tpLocked : Bool
deriving DecidableEq, Repr

/-- The TAP (R591, R592). -/
structure Tap where
  ir : Nat
  data : Word
  done : Bool
  err : Bool
deriving DecidableEq, Repr

/-- Deficit round robin at one arbitration point (R283): the round order and deficits of each class, keyed by queue. -/
structure Drr where
  lcLast : Nat
  bulkLast : Nat
  lcDeficit : Tab Nat
  bulkDeficit : Tab Nat
deriving DecidableEq, Repr

/-- What the block sends out of its ports. The block never reads this list; it is the model's own record of the outputs. -/
inductive Out
  | nvmRead (op dummy lanes addrBytes addr len : Nat)
  | nvmEnable
  | nvmErase (op addr : Nat)
  | nvmProgram (addr : Nat) (data : Bytes)
  | security (job : Nat) (signed signature : Bytes)
  | power (msg : Word)
  | pdReq (domain state : Nat)
  | link (l : Nat) (b : LinkBlock)
  | delivery (g : Nat) (slots : List Slot)
  | windowRsp (g tag : Nat) (data : Bytes) (err : Bool)
  | regRsp (port : Port) (data : Bytes) (tag : Nat)
  | credit (g chan : Nat)
  | quiesce (p : Nat)
  | busy (g : Nat)
deriving DecidableEq, Repr

/-- The state of the block. `free` indexes the model's free values and `ids` the next identity of an object of the model;
neither belongs to the hardware. -/
structure State where
  pending : List Instr
  free : Nat
  ids : Nat
  out : List Out
  die : Die
  rst : ResetState
  kp : Keeper
  regs : RegFile
  cfg : Config
  commit : Commit
  images : Tab Image
  admin : Admin
  queues : Tab Queue
  qmParked : List QmReq
  fetchOrder : List Nat
  qmResults : Tab (List (Nat × WalkResult))
  descs : List Desc
  reqs : List MemReq
  xl : Translation
  sync : Sync
  win : Window
  cps : Tab CPort
  fab : Fabric
  sup : Support
  tap : Tap
  drr : Tab Drr
deriving DecidableEq, Repr

/-! ### Reset -/

/-- The fuse map of an XL die with every unit present (Table 18-16). The fuses of State.reset are the model's choice (DESIGN CHOICE, log entry 4). -/
def Fuses.full : Fuses where
  grade := 0x0000000000000304
  size := 0x000010604010300C
  size2 := 0x0000004004001000
  unit := 0xFFFF0FFF0FFF0FFF
  mover := 0x0000FFFFFFFFFFFF
  bank := 0xFFFFFFFFFFFFFFFF
  link0 := 0xFFFFFFFFFFFFFFFF
  link1 := 0x00000000FFFFFFFF
  mport := 0xFFFFFFFFFFFFFFFF
  computePorts := 0xFFF
  tpFused := false

/-- The straps of State.reset: 512 GiB of tier 0, 3 TiB of tier 1 on three CXL ports, 1 TiB of tier 2. The model's choice (DESIGN CHOICE, log entry 4). -/
def Straps.default : Straps where
  t0Size := 512
  t1Size := 3072
  t2Size := 1024
  xpRole := [0, 0, 0, 1]

/-- The keeper while a cold reset is in effect. -/
def Keeper.cold : Keeper where
  mode := .booting
  reason := 0
  source := 0
  bootUs := 0
  epoch := 0
  stage := .none
  slots := []
  sectors := []
  maxSeq := 0
  job := .none
  epochJob := none
  refClock := true
  startup := true
  nor := { four := false, op := 0x0B, dummy := 8, lanes := 1, erase := 0, size := 0 }
  worst := 0
  ceilings := []
  list := []
  cached := []
  cachedSlot := 0
  locks := []
  log := []
  nextSeq := 0
  overwritten := 0
  fatal := none
  dump := []
  dumpValid := false
  dumpReason := 0
  dumpEpoch := 0
  dumps := 0

/-- Queue 0 at reset: disabled and idle (Table 18-6). -/
def Queue.blank : Queue where
  state := .absent
  ctx := 0
  group := 0
  bulk := false
  stopMode := false
  weight := 0
  limit := 0
  log2 := 0
  eventFq := 0
  eventEn := false
  ring := 0
  idx := 0
  save := 0
  pr := 0
  cons := 0
  next := 0
  spec := 0
  halfEntry := none
  part := []
  chains := []
  final := []
  idxOut := false
  idxAgain := false
  entOut := none
  entStale := false
  slotAsk := 0
  lost := false
  markOpen := false
  errReason := 0
  errStatus := 0
  errIndex := 0
  consWritten := 0
  idle := true
  idleSig := none
  idleEvent := false
  lastRead := false
  params := []

/-- The fabric at reset: no link is up, and the chip ID is the reset value of FB_CHIP. -/
def Fabric.blank : Fabric where
  links := []
  out := []
  inb := []
  outWaits := []
  transit := []
  loop := []
  chipId := 0
  idValid := false
  derived := false
  reorderPeak := 0

/-- Reliability, power and test at reset: no fault, no domain on. -/
def Support.blank : Support where
  ports := []
  bankPortBad := []
  ceWin := []
  ueWin := []
  ops := []
  domains := []
  holdover := false
  tg := []
  injSkipped := 0
  injDone := 0
  tpLocked := false

/-- The block in the reset that power-on gives (R589): every register at its value of Tables 18-3 to 18-14 (an empty
register file), every queue, buffer and cache empty, and the reset still in effect until its release. -/
def State.reset : State where
  pending := []
  free := 0
  ids := 1
  out := []
  die := { fuses := Fuses.full, straps := Straps.default }
  rst := { inEffect := true, level := .cold, abort := false }
  kp := Keeper.cold
  regs := []
  cfg := { shadow := [], pending := [], active := [], old := [] }
  commit := { phase := .idle, pos := 0, reported := [], epoch := 0, result := 0, origin := 0 }
  images := []
  admin := { fresh := true, cmds := [], recent := [] }
  queues := [(0, { Queue.blank with state := .disabled })]
  qmParked := []
  fetchOrder := []
  qmResults := []
  descs := []
  reqs := []
  xl := { l0 := [], l1 := [], l2 := [], walks := [], invs := [] }
  sync := { buoys := [], claimants := [], watches := [], gens := [], fqs := [], held := [] }
  win := { ram := [], bad := [], pairs := [], scrub := [], rmws := [] }
  cps := []
  fab := Fabric.blank
  sup := Support.blank
  tap := { ir := 0x01, data := 0, done := true, err := false }
  drr := []

end Sys2Proof.Machine
end

