-- ==== Sys2Proof/Machine/Regs.lean ====
section
/-! DEFINITION. Reading and writing the register files, the fuse map and retirement, events with their counters (R18, R607),
and the keeper's log (R524 to R526). -/

namespace Sys2Proof.Machine

/-! ### Free values and fresh identities -/

/-- The state after one free value has been used. -/
def State.useFree (s : State) : State := { s with free := s.free + 1 }

/-- The state after one identity has been used. -/
def State.useId (s : State) : State := { s with ids := s.ids + 1 }

/-- Sends one message out of a port. -/
def State.emit (s : State) (o : Out) : State := { s with out := s.out ++ [o] }

/-! ### Fuses and counts -/

/-- ID_GRADE.GRADE. -/
def State.grade (s : State) : Nat := fld s.die.fuses.grade 7 0

/-- Whether buoys are virtualised (ID_GRADE.BUOY_MODE). -/
def State.virtBuoys (s : State) : Bool := bit s.die.fuses.grade 8

/-- Whether entry fetches are doorbell-bounded (ID_GRADE.ENTRY_PREFETCH). -/
def State.bounded (s : State) : Bool := bit s.die.fuses.grade 9

/-- ID_SIZE fields. -/
def State.nGroups (s : State) : Nat := fld s.die.fuses.size 7 0
def State.nMovers (s : State) : Nat := fld s.die.fuses.size 15 8
def State.nLifts (s : State) : Nat := fld s.die.fuses.size 23 16
def State.nBanks (s : State) : Nat := fld s.die.fuses.size 31 24
def State.nLinks (s : State) : Nat := fld s.die.fuses.size 39 32
def State.coresPer (s : State) : Nat := fld s.die.fuses.size 47 40

/-- ID_SIZE2 fields. -/
def State.nQueues (s : State) : Nat := fld s.die.fuses.size2 15 0
def State.nContexts (s : State) : Nat := fld s.die.fuses.size2 31 16
def State.nMports (s : State) : Nat := fld s.die.fuses.size2 47 32

/-- Bits of a mask below a count (R10). -/
def below (m n : Nat) : Nat := m % 2 ^ n

/-- The lens fuse bit of a group. -/
def State.lensFuse (s : State) (g : Nat) : Bool :=
  g < s.nGroups && bit s.die.fuses.unit (16 + g)

/-- GROUP_PRESENT bit g: the lens, at least one mover and the compute port must be there (R12). -/
def State.groupFuse (s : State) (g : Nat) : Bool :=
  g < s.nGroups && g < 12 && bit s.die.fuses.unit g && s.lensFuse g && s.die.fuses.computePorts.testBit g &&
    (List.range 4).any (fun k => 4 * g + k < s.nMovers && bit s.die.fuses.mover (4 * g + k))

/-- MOVER_PRESENT bit m, cleared with its group (R10, R12). -/
def State.moverFuse (s : State) (m : Nat) : Bool :=
  m < s.nMovers && m < 48 && bit s.die.fuses.mover m && s.groupFuse (m / 4)

/-- EXP_PRESENT bit g, cleared with its group (R10, R12). -/
def State.expFuse (s : State) (g : Nat) : Bool :=
  g < s.nGroups && g < 12 && bit s.die.fuses.unit (32 + g) && s.groupFuse g

/-- LIFT_PRESENT bit u (R10). -/
def State.liftFuse (s : State) (u : Nat) : Bool := u < s.nLifts && u < 16 && bit s.die.fuses.unit (48 + u)

/-- BANK_PRESENT bit b (R10). -/
def State.bankFuse (s : State) (b : Nat) : Bool := b < s.nBanks && b < 64 && bit s.die.fuses.bank b

/-- LINK_PRESENT bit l (R10). -/
def State.linkFuse (s : State) (l : Nat) : Bool :=
  l < s.nLinks && l < 96 && (if l < 64 then bit s.die.fuses.link0 l else bit s.die.fuses.link1 (l - 64))

/-- MPORT_PRESENT bit p (R10). -/
def State.mportFuse (s : State) (p : Nat) : Bool := p < s.nMports && p < 64 && bit s.die.fuses.mport p

/-- A mask word from a test of each bit. -/
def maskOf (n : Nat) (p : Nat → Bool) : Nat :=
  (List.range n).foldl (fun a i => if p i then a + 2 ^ i else a) 0

/-- The value of an ID register (Tables 0-3 to 0-6, R10, R12). -/
def State.idReg (s : State) (off : Nat) : Word :=
  let f := s.die.fuses
  if off = Reg.idGrade then f.grade &&& 0x00000000FFFF03FF
  else if off = Reg.idSize then f.size &&& 0x0000FFFFFFFFFFFF
  else if off = Reg.idSize2 then f.size2 &&& 0x0000FFFFFFFFFFFF
  else if off = Reg.idFuseUnit then
    BitVec.ofNat 64 (maskOf 12 s.groupFuse + 2 ^ 16 * maskOf 12 s.lensFuse + 2 ^ 32 * maskOf 12 s.expFuse +
      2 ^ 48 * maskOf 16 s.liftFuse)
  else if off = Reg.idFuseMover then BitVec.ofNat 64 (maskOf 48 s.moverFuse)
  else if off = Reg.idFuseBank then BitVec.ofNat 64 (maskOf 64 s.bankFuse)
  else if off = Reg.idFuseLink0 then BitVec.ofNat 64 (maskOf 64 s.linkFuse)
  else if off = Reg.idFuseLink1 then BitVec.ofNat 64 (maskOf 32 (fun l => s.linkFuse (64 + l)))
  else if off = Reg.idFuseMport then BitVec.ofNat 64 (maskOf 64 s.mportFuse)
  else 0

/-! ### Register files -/

/-- The key of an instance of a register: its offset and up to two selectors. -/
def rkey (off sel : Nat) (sel2 : Nat := 0) : Nat := off + 2 ^ 24 * sel + 2 ^ 40 * sel2

/-- The value a register holds after a cold reset (R608), by key and grade: the values of the XL die, and those of the other
grades where Tables 18-6 and 18-11 and the field maps give others. -/
def resetOf (grade k : Nat) : Word :=
  let off := k % 2 ^ 24
  match regRow off with
  | none => 0
  | some r =>
    if off = Reg.qmFetchCfg then (if grade < 3 then 4 else 0)
    else if grade = 0 && r.base = Reg.mvCfg 0 then 0x08000004
    else if grade = 0 && r.base = Reg.exCfg 0 then 0x0804
    else r.reset

/-- A register of a file, or its reset value. -/
def rget (grade : Nat) (f : RegFile) (k : Nat) : Word := (tget f k).getD (resetOf grade k)

/-- A register file with one register set. A register at its reset value is not listed. -/
def rput (grade : Nat) (f : RegFile) (k : Nat) (v : Word) : RegFile :=
  match f with
  | [] => if v = resetOf grade k then [] else [(k, v)]
  | p :: r => if v = resetOf grade k then tdel (p :: r) k else tput (p :: r) k v

/-- A register that is not staged: RW and latched RO fields, W1C bits and counts. -/
def State.reg (s : State) (k : Nat) : Word := rget s.grade s.regs k

/-- Sets a register that is not staged. -/
def State.setReg (s : State) (k : Nat) (v : Word) : State := { s with regs := rput s.grade s.regs k v }

/-- A field of a register that is not staged. -/
def State.regFld (s : State) (k hi lo : Nat) : Nat := fld (s.reg k) hi lo

/-- Sets a field of a register that is not staged. -/
def State.setFld (s : State) (k hi lo v : Nat) : State := s.setReg k (putFld (s.reg k) hi lo v)

/-- The active value of a staged register. -/
def State.act (s : State) (k : Nat) : Word := rget s.grade s.cfg.active k

/-- The shadow value of a staged register. -/
def State.shadow (s : State) (k : Nat) : Word := rget s.grade s.cfg.shadow k

/-- A field of the active value of a staged register. -/
def State.actFld (s : State) (k hi lo : Nat) : Nat := fld (s.act k) hi lo

/-- The value of a staged register for a descriptor of a commit epoch (R518): the pending set once the control island has
switched and the register's island has not, the old set for an older epoch, and otherwise the active set. -/
def State.cfgAt (s : State) (epoch k : Nat) : Word :=
  if epoch = s.commit.epoch then
    (if s.commit.phase = .switch ∧ 0 < s.commit.pos then rget s.grade s.cfg.pending k else s.act k)
  else rget s.grade s.cfg.old k

/-- Adds to a wrapping count (R606). -/
def State.bump (s : State) (k hi lo : Nat) (n : Nat := 1) : State := s.setFld k hi lo (s.regFld k hi lo + n)

/-- Adds to a saturating count (R606). -/
def State.bumpSat (s : State) (k hi lo : Nat) (n : Nat := 1) : State :=
  s.setFld k hi lo (min (s.regFld k hi lo + n) (2 ^ (hi + 1 - lo) - 1))

/-- Sets a W1C bit and advances its event counter (R18, R607). -/
def State.event (s : State) (ev b cnt hi lo : Nat) : State :=
  (s.setReg ev (putBit (s.reg ev) b true)).bump cnt hi lo

/-! ### Events by window -/

def State.evCf (s : State) (b : Nat) : State := s.event Reg.cfEvent b Reg.cfEventCnt (16 * b + 15) (16 * b)
def State.evKp (s : State) (b : Nat) : State := s.event Reg.kpEvent b Reg.kpEventCnt (32 * b + 31) (32 * b)
def State.evQm (s : State) (b : Nat) : State := s.event Reg.qmEvent b Reg.qmEventCnt (32 * b + 31) (32 * b)
def State.evAt (s : State) (b : Nat) : State := s.event Reg.atEvent b Reg.atEventCnt (16 * b + 15) (16 * b)
def State.evWb (s : State) (b : Nat) : State := s.event Reg.wbEvent b Reg.wbEventCnt (16 * b + 15) (16 * b)
def State.evFb (s : State) (b : Nat) : State := s.event Reg.fbEvent b Reg.fbEventCnt (8 * b + 7) (8 * b)
def State.evHm (s : State) (b : Nat) : State := s.event Reg.hmEvent b Reg.hmEventCnt (8 * b + 7) (8 * b)

/-- A BY_EVENT bit and its counter: bits 0 to 3 count downward in BY_EVENT_CNT, bits 4 and 5 in BY_EVENT_CNT2 (Table 18-2). -/
def State.evBy (s : State) (b : Nat) : State :=
  s.event Reg.byEvent b (if b < 4 then Reg.byEventCnt else Reg.byEventCnt2)
    (if b < 4 then 63 - 16 * b else 16 * (b - 4) + 15) (if b < 4 then 48 - 16 * b else 16 * (b - 4))

/-! ### Retirement and presence -/

/-- HM_RETIRED bits. -/
def State.groupRetired (s : State) (g : Nat) : Bool := bit (s.reg Reg.hmRetiredUnit) g
def State.lensRetired (s : State) (g : Nat) : Bool := bit (s.reg Reg.hmRetiredUnit) (16 + g)
def State.expRetired (s : State) (g : Nat) : Bool := bit (s.reg Reg.hmRetiredUnit) (32 + g)
def State.liftRetired (s : State) (u : Nat) : Bool := bit (s.reg Reg.hmRetiredUnit) (48 + u)
def State.moverRetired (s : State) (m : Nat) : Bool := bit (s.reg Reg.hmRetiredMover) m
def State.bankRetired (s : State) (b : Nat) : Bool := bit (s.reg Reg.hmRetiredBank) b
def State.linkRetired (s : State) (l : Nat) : Bool :=
  if l < 64 then bit (s.reg Reg.hmRetiredLink0) l else bit (s.reg Reg.hmRetiredLink1) (l - 64)
def State.mportRetired (s : State) (p : Nat) : Bool := bit (s.reg Reg.hmRetiredMport) p

/-- A unit that is present and not retired (R537: a retired unit counts as absent). -/
def State.hasGroup (s : State) (g : Nat) : Bool := s.groupFuse g && !s.groupRetired g
def State.hasMover (s : State) (m : Nat) : Bool := s.moverFuse m && !s.moverRetired m && s.hasGroup (m / 4)
def State.hasExp (s : State) (g : Nat) : Bool := s.expFuse g && !s.expRetired g && s.hasGroup g
def State.hasLift (s : State) (u : Nat) : Bool := s.liftFuse u && !s.liftRetired u
def State.hasBank (s : State) (b : Nat) : Bool := s.bankFuse b && !s.bankRetired b
def State.hasLink (s : State) (l : Nat) : Bool := s.linkFuse l && !s.linkRetired l
def State.hasMport (s : State) (p : Nat) : Bool := s.mportFuse p && !s.mportRetired p

/-- The movers of a group that are present and not retired. -/
def State.groupMovers (s : State) (g : Nat) : List Nat :=
  ((List.range 4).map (4 * g + ·)).filter s.hasMover

/-- The slot count of a group (R276): eight for each of its movers. -/
def State.groupSlots (s : State) (g : Nat) : Nat := 8 * (s.groupMovers g).length

/-! ### The keeper's log -/

/-- The origin code of a port (Table 15-10). -/
def originOf : Port → Nat
  | .host => 0x01
  | .debug => 0x02
  | .compute g => 0x10 + g

/-- The origin code of the keeper. -/
def keeperOrigin : Nat := 0

/-- The copy of the banked BY registers that a port uses (R396): the host copy is 0, shared with the debug port. -/
def copyOf : Port → Nat
  | .compute g => 1 + g
  | _ => 0

/-- The number of records the log ring holds. -/
def logSize : Nat := 16384

/-- Writes one record to the keeper's log: it takes the next SEQ, replaces the oldest when the ring is full, and sets
LOG_LEVEL when the records not yet drained reach LEVEL (R524, R526). The cycle count is a free value. -/
def State.logRec (s : State) (kind origin ctx obj : Nat) (old new : Word) (detail : Bytes) : State :=
  let r : LogRec := { epoch := s.kp.epoch, kind := kind, origin := origin, seq := s.kp.nextSeq,
                      cycles := Config.cycles s.free, context := ctx, object := obj, old := old, new := new,
                      detail := fitTo 20 detail }
  let full := logSize ≤ s.kp.log.length
  let next := (s.kp.nextSeq + 1) % 2 ^ 32
  let e := if full then s.evKp 1 else s
  let level := e.regFld Reg.kpLogCfg 14 0
  let e := if level ≠ 0 ∧ (next + 2 ^ 32 - e.regFld Reg.kpLogCfg 63 32) % 2 ^ 32 = level then e.evKp 0 else e
  { s with free := s.free + 1, regs := e.regs
           kp := { s.kp with log := (if full then s.kp.log.drop 1 else s.kp.log) ++ [r], nextSeq := next,
                             overwritten := (s.kp.overwritten + b2n full) % 2 ^ 32 } }

/-- A log record of a kind that no context and no values belong to. -/
def State.logObj (s : State) (kind origin obj : Nat) (detail : Bytes) : State :=
  s.logRec kind origin 0xFFFF obj 0 0 detail

/-- Records a refused write (R512): CF_EVENT.WRITE_REFUSED, CF_REFUSE_INFO and a REFUSED log record. -/
def State.refuseWrite (s : State) (origin reason off : Nat) : State :=
  let s := s.setReg Reg.cfRefuseInfo (BitVec.ofNat 64 (2 ^ 32 * origin + 2 ^ 24 * reason + off))
  (s.evCf 2).logObj 0x07 origin off [BitVec.ofNat 8 reason]

end Sys2Proof.Machine
end

