-- ==== Sys2Proof/Machine/Stage.lean ====
section
/-! DEFINITION. Staged configuration: which registers are staged where, CHECK with the tests of Table 15-8, and the commit of
Table 15-9. -/

namespace Sys2Proof.Machine

/-! ### Resources by grade -/

/-- Physical buoys of the grade (Table 0-2): 48 for each control core in static mode. -/
def State.nBuoys (s : State) : Nat := (gradeRow s.grade).buoys

/-- Active watches of the grade (Table 0-2). -/
def State.nWatches (s : State) : Nat := (gradeRow s.grade).watches

/-- Cells of the flash-queue pool. -/
def poolCells : Nat := 16384

/-- Bytes of a window bank (R481): half a slot on XS. -/
def State.bankBytes (s : State) : Nat := 1024 * (gradeRow s.grade).bankKib

/-! ### Islands -/

/-- The island (Table 16-4) that holds a staged register. The configuration registers that the spec places on no island of
their own are taken to lie on the control island, bank-wide ones on bank island 0, fabric-wide ones on fabric island 0. -/
def islandOf (k : Nat) : Nat :=
  let off := k % 2 ^ 24
  if 0x100000 ≤ off ∧ off < 0x1C0000 then (off - 0x100000) / 0x10000
  else if 0x200000 ≤ off ∧ off < 0x210000 ∧ off % 0x1000 < 0xF00 then 12 + (off - 0x200000) / 0x4000
  else if 0x210000 ≤ off ∧ off < 0x210200 then 16 + (off - 0x210000) / 64
  else if 0x210000 ≤ off ∧ off < 0x220000 then 16
  else if 0x087000 ≤ off ∧ off < 0x087300 then 24 + (off - 0x087000) / 128
  else if 0x080000 ≤ off ∧ off < 0x090000 then 24
  else if 0x060000 ≤ off ∧ off < 0x070000 then 31
  else 30

/-- The islands of the die in the order of the commit token (Table 15-9, step 2). -/
def State.tokenOrder (s : State) : List Nat :=
  [30] ++ List.range s.nGroups ++ (List.range (ceilDiv s.nLifts 4)).map (12 + ·) ++
    (List.range (ceilDiv s.nBanks 8)).map (16 + ·) ++ (List.range (ceilDiv s.nLinks 16)).map (24 + ·) ++ [31]

/-- A configuration set in which the registers of one island are taken from another set. -/
def takeIsland (island : Nat) (into source : RegFile) : RegFile :=
  let kept := into.filter (fun p => islandOf p.1 ≠ island)
  (source.filter (fun p => islandOf p.1 = island)).foldl (fun f p => tput f p.1 p.2) kept

/-! ### CHECK -/

/-- A failure that CHECK reports (R516): code, register offset and the two selector values. -/
structure CheckFail where
  code : Nat
  off : Nat
  sel : Nat
  sel2 : Nat
deriving DecidableEq, Repr

/-- The selector value that stands for a failed sum (R516). -/
def selSum : Nat := 0xFFFF

/-- The instances of a register that a file lists: selectors and value. -/
def instances (f : RegFile) (off : Nat) : List (Nat × Nat × Word) :=
  (f.filter (fun p => p.1 % 2 ^ 24 = off)).map (fun p => (p.1 / 2 ^ 24 % 2 ^ 16, p.1 / 2 ^ 40, p.2))

/-- Failures of one code at registers of a range of offsets that a test finds among the listed registers. -/
def failAt (f : RegFile) (code : Nat) (p : Nat → Word → Bool) : List CheckFail :=
  (f.filter (fun kv => p (kv.1 % 2 ^ 24) kv.2)).map
    (fun kv => { code := code, off := kv.1 % 2 ^ 24, sel := kv.1 / 2 ^ 24 % 2 ^ 16, sel2 := kv.1 / 2 ^ 40 })

/-- Whether an offset is an instance of a register with a base, a spacing and a count. -/
def isInst (off base stride count : Nat) : Bool :=
  base ≤ off && (off - base) % stride == 0 && (off - base) / stride < count

/-- FIELD_RANGE (Table 15-8, 0x01): R236, R273, R308, Tables 9-13, 13-9, 13-10, 14-9, the tag range of R353, R558. -/
def checkFieldRange (s : State) : List CheckFail :=
  failAt s.cfg.shadow 0x01 (fun off v =>
    (isInst off (Reg.exCfg 0) 0x10000 12 && (s.coresPer < fld v 4 0 || s.coresPer < fld v 12 8)) ||
    (isInst off (Reg.lfCfg 0) 0x1000 16 && (fld v 2 0 == 0 || 4 < fld v 2 0)) ||
    (isInst off (Reg.mvCfg 0) 0x10000 12 &&
      ((if s.grade = 0 then 16 else 32) ≤ fld v 5 0 || fld v 27 16 < 64 || 2048 < fld v 27 16)) ||
    (off == Reg.qmFetchCfg && 8 < fld v 3 0) ||
    (off == Reg.fbCfg && (fld v 63 52 == 0 || fld v 47 40 ≤ fld v 39 32 || fld v 31 24 == 0)) ||
    (off == Reg.fbCfg2 && (fld v 7 0 == 0 || fld v 15 8 == 0)) ||
    (off == Reg.wbCfg && fld v 7 0 == 0) ||
    (off == Reg.atCtx && s.nContexts ≤ fld v 11 0) ||
    (off == Reg.hmCfg && fld v 15 0 == 0) ||
    (off == Reg.hmAgeCfg && (fld v 31 16 == 0 || fld v 7 0 == 0)))

/-- Whether a context has a queue that is not ABSENT. Queue 0 belongs to no context. -/
def State.ctxHasQueue (s : State) (c : Nat) : Bool :=
  s.queues.any (fun p => p.1 != 0 && p.2.ctx == c && p.2.state != .absent)

/-- Whether a context has a watch armed. -/
def State.ctxHasWatch (s : State) (c : Nat) : Bool := s.sync.watches.any (fun p => p.2.ctx == c)

/-- The keys at which two files differ, of those that either lists. -/
def diffKeys (grade : Nat) (a b : RegFile) : List Nat :=
  let ks := (a.map (·.1)) ++ (b.map (·.1)).filter (fun k => (tget a k).isNone)
  ks.filter (fun k => rget grade a k != rget grade b k)

/-- CONTEXT_IN_USE (0x02): changes to contexts with queues or armed watches (R353, R374, R515). -/
def checkInUse (s : State) : List CheckFail :=
  let g := s.grade
  (diffKeys g s.cfg.active s.cfg.shadow).filterMap (fun k =>
    let off := k % 2 ^ 24
    let c := k / 2 ^ 24 % 2 ^ 16
    let a := rget g s.cfg.active k
    let b := rget g s.cfg.shadow k
    let ring := rget g s.cfg.active (rkey Reg.cfCtxRing c)
    let ringNew := rget g s.cfg.shadow (rkey Reg.cfCtxRing c)
    let i := k / 2 ^ 40
    let bad :=
      (off == Reg.cfCtxRing && s.ctxHasQueue c && fld a 11 0 != fld b 11 0) ||
      ((off == Reg.cfPrimeQ || off == Reg.cfPrimePsi || off == Reg.cfPrimeMu) && s.ctxHasQueue c &&
        i < max (fld ring 7 0) (fld ringNew 7 0)) ||
      (off == Reg.atCtx && s.ctxHasQueue c && fld a 11 0 != fld b 11 0) ||
      (off == Reg.byCtxMap && s.virtBuoys && (s.ctxHasQueue c || s.ctxHasWatch c) && fld a 28 0 != fld b 28 0) ||
      (isInst off (Reg.byStaticOwner 0) 8 96 && !s.virtBuoys &&
        ((bit a 63 && (s.ctxHasQueue (fld a 9 0) || s.ctxHasWatch (fld a 9 0))) ||
         (bit b 63 && (s.ctxHasQueue (fld b 9 0) || s.ctxHasWatch (fld b 9 0)))))
    if bad then some { code := 0x02, off := off, sel := c, sel2 := i } else none)

/-- `x` squared `n` times modulo `q`: x^(2^n) mod q. -/
def sqMod (q : Nat) : Nat → Nat → Nat
  | 0, x => x % q
  | n + 1, x => sqMod q n (x * x % q)

/-- The primes of R77: 2^35 < q < 2^36, q = 1 modulo 2N, psi^N = q - 1. -/
def primeOk (log2n q psi : Nat) : Bool :=
  2 ^ 35 < q && q < 2 ^ 36 && q % 2 ^ (log2n + 1) == 1 && sqMod q log2n psi == q - 1

/-- PRIME_TABLE (0x03): R77 and R515, over the contexts whose shadow ring configuration is VALID. -/
def checkPrimes (s : State) : List CheckFail :=
  let f := s.cfg.shadow
  (instances f Reg.cfCtxRing).flatMap (fun (c, _, v) =>
    if !bit v 15 then []
    else
      let n := fld v 11 8
      let p := fld v 7 0
      if n < 12 || 17 < n || p == 0 || 128 < p then
        [{ code := 0x03, off := Reg.cfCtxRing, sel := c, sel2 := 0 }]
      else
        (List.range p).flatMap (fun i =>
          let q := fld (rget s.grade f (rkey Reg.cfPrimeQ c i)) 35 0
          let psi := fld (rget s.grade f (rkey Reg.cfPrimePsi c i)) 35 0
          let mu := fld (rget s.grade f (rkey Reg.cfPrimeMu c i)) 36 0
          if !(2 ^ 35 < q && q < 2 ^ 36 && q % 2 ^ (n + 1) == 1) then
            [{ code := 0x03, off := Reg.cfPrimeQ, sel := c, sel2 := i }]
          else if !primeOk n q psi then [{ code := 0x03, off := Reg.cfPrimePsi, sel := c, sel2 := i }]
          else if mu != 2 ^ 72 / q then [{ code := 0x03, off := Reg.cfPrimeMu, sel := c, sel2 := i }]
          else []))

/-- The 16 levels of a codebook (Table 7-18) as signed numbers. -/
def codebookLevels (get : Nat → Word) (c : Nat) : List Int :=
  (List.range 16).map (fun i => sgn 16 (fld (get (rkey (Reg.lfCbLevel (i / 4)) c)) (16 * (i % 4) + 15) (16 * (i % 4))))

/-- CODEBOOK (0x04): levels strictly rising and level 7 zero (R238). -/
def checkCodebooks (s : State) : List CheckFail :=
  (instances s.cfg.shadow Reg.lfCbCtrl).flatMap (fun (c, _, v) =>
    if !bit v 0 then []
    else
      let l := codebookLevels (rget s.grade s.cfg.shadow) c
      (List.range 16).filterMap (fun i =>
        if (0 < i && l.getD i 0 ≤ l.getD (i - 1) 0) || (i == 7 && l.getD 7 0 != 0) then
          some { code := 0x04, off := Reg.lfCbLevel (i / 4), sel := c, sel2 := 0 }
        else none))

/-- BUOY_MAP (0x05): maps within the physical buoys, and no overlap of contexts of different tags (R374). A map of COUNT 0 holds no buoy:
it reaches beyond nothing and overlaps nothing. -/
def checkBuoyMaps (s : State) : List CheckFail :=
  if !s.virtBuoys then []
  else
    let ms := instances s.cfg.shadow Reg.byCtxMap
    let tag := fun c => fld (rget s.grade s.cfg.shadow (rkey Reg.atCtx c)) 11 0
    ms.filterMap (fun (c, _, v) =>
      let b := fld v 15 0
      let n := fld v 28 16
      let clash := ms.any (fun (d, _, w) =>
        d != c && tag d != tag c && 0 < fld w 28 16 && b < fld w 15 0 + fld w 28 16 && fld w 15 0 < b + n)
      if 0 < n && (s.nBuoys < b + n || clash) then some { code := 0x05, off := Reg.byCtxMap, sel := c, sel2 := 0 } else none)

/-- QUOTA (0x06): the watch quotas (R398) and the flash-queue quotas of enabled queues (R399). -/
def checkQuotas (s : State) : List CheckFail :=
  let ws := ((instances s.cfg.shadow Reg.byCtxMap).map (fun (_, _, v) => fld v 46 32)).sum
  let fq := (instances s.cfg.shadow Reg.fqCfg).filter (fun (_, _, v) => bit v 63)
  let one := fq.filterMap (fun (f, _, v) =>
    if fld v 30 16 == 0 || poolCells < fld v 30 16 then
      some { code := 0x06, off := Reg.fqCfg, sel := f, sel2 := 0 : CheckFail } else none)
  (if s.nWatches < ws then [{ code := 0x06, off := Reg.byCtxMap, sel := selSum, sel2 := 0 }] else []) ++ one ++
  (if poolCells < (fq.map (fun (_, _, v) => fld v 30 16)).sum then
    [{ code := 0x06, off := Reg.fqCfg, sel := selSum, sel2 := 0 }] else [])

/-- A region register (Table 14-10) covers a bank that CHECK refuses, or the upper half of a slot on XS (R488). -/
def regionCoversHole (s : State) (v : Word) : Bool :=
  let base := fld v 10 0
  let limit := fld v 26 16
  (List.range 64).any (fun b =>
    let lo := 32 * b
    let usable := s.bankFuse b && bit (s.shadow (Reg.wbBank b)) 15
    let mid := if s.grade = 0 then lo + 16 else lo + 32
    (base < lo + 32 && lo ≤ limit) && (!usable || (mid ≤ limit && mid < lo + 32 && base < lo + 32)))

/-- BANK_REGION (0x07): R488, and the alias reach of R490. -/
def checkRegions (s : State) : List CheckFail :=
  let f := s.cfg.shadow
  let rgns := f.filter (fun p => isInst (p.1 % 2 ^ 24) (Reg.wbRgn 0 0) 8 104 && bit p.2 63)
  let master := fun (k : Nat) => (k - Reg.wbRgn 0 0) / 32
  let grants := fun (v : Word) => bit v 41 || bit v 42 || bit v 43
  let bad := rgns.filter (fun (k, v) =>
    fld v 26 16 < fld v 10 0 || regionCoversHole s v ||
    rgns.any (fun (k', v') =>
      master k' != master k && grants v && grants v' && !(bit v 44 && bit v' 44) &&
      fld v 10 0 ≤ fld v' 26 16 && fld v' 10 0 ≤ fld v 26 16))
  let owners := failAt f 0x07 (fun off v => isInst off (Reg.wbBank 0) 8 64 && 26 ≤ fld v 5 0)
  let lends := failAt f 0x07 (fun off v =>
    isInst off (Reg.byLendCfg 0) 8 12 &&
    let g := (off - Reg.byLendCfg 0) / 8
    (List.range 32).any (fun p => bit v p &&
      [2 * p, 2 * p + 1].any (fun b =>
        let o := fld (s.shadow (Reg.wbBank b)) 5 0
        o != g && o != 12 + g)))
  let aps := (List.range 64).filterMap (fun a =>
    let base := 4096 * fld (s.shadow (Reg.fbInBase a)) 43 12
    let len := 4096 * fld (s.shadow (Reg.fbInLen a)) 43 12
    if bit (s.shadow (Reg.fbInAttr a)) 63 && base < 0x08018000000 && 0x08008000000 < base + len then
      some { code := 0x07, off := Reg.fbInBase a, sel := 0, sel2 := 0 : CheckFail } else none)
  lends ++ aps ++ owners ++ bad.map (fun (k, _) => { code := 0x07, off := k, sel := 0, sel2 := 0 })

/-- The links of a set in a configuration file. -/
def linkSetOf (s : State) (f : RegFile) (n : Nat) : List Nat :=
  (List.range 96).filter (fun l =>
    if l < 64 then bit (rget s.grade f (Reg.fbLinksetLo n)) l else bit (rget s.grade f (Reg.fbLinksetHi n)) (l - 64))

/-- ROUTE (0x08): R462 over the route entries with VALID 1. -/
def checkRoutes (s : State) : List CheckFail :=
  let f := s.cfg.shadow
  failAt f 0x08 (fun off v =>
    (isInst off (Reg.fbRouteRegion 0) 8 1024 || isInst off (Reg.fbRouteLocal 0) 8 1024) && bit v 63 &&
    let prim := linkSetOf s f (fld v 5 0)
    let alt := linkSetOf s f (fld v 13 8)
    let used := if bit v 62 then prim ++ alt else prim
    prim.isEmpty || (bit v 62 && prim == alt) ||
    used.any (fun l => !s.linkFuse l ||
      ((tget s.fab.links l).any (fun k => k.nbrValid && s.fab.idValid && k.nbrChip == s.fab.chipId))))

/-- OPERATING_POINT (0x09): a changed CAP_MHZ outside 1800 to 2700 or above the ceiling (R546). -/
def checkCaps (s : State) : List CheckFail :=
  failAt s.cfg.shadow 0x09 (fun off v =>
    isInst off (Reg.hmAge 0) 8 31 && fld v 31 20 != s.actFld off 31 20 &&
    (fld v 31 20 < 1800 || 2700 < fld v 31 20 || s.regFld off 55 44 < fld v 31 20))

/-- Bytes of a bank of a double-banked memory (R521). -/
def imageBytes (mem : Nat) : Nat := if mem = 0 then 0x80000 else 0x10000

/-- Whether a code of CF_IMG_SEL.MEMORY names a memory of the die. -/
def State.isImage (s : State) (mem : Nat) : Bool := mem == 0 || (0x10 ≤ mem && mem - 0x10 < s.nGroups)

/-- A double-banked memory, all zero and with bank 0 active until something else is known. -/
def State.image (s : State) (mem : Nat) : Image := (tget s.images mem).getD { active := 0, words := [], damaged := [] }

/-- The first `n` bytes of a bank of an image. -/
def Image.bytes (im : Image) (bank n : Nat) : Bytes :=
  ((List.range (ceilDiv n 8)).flatMap (fun i =>
    leBytes 8 ((tget im.words (2 ^ 20 * bank + i)).getD 0).toNat)).take n

/-- The memories whose CF_IMG_CTRL has SWAP set in the shadow set. -/
def State.swaps (s : State) : List (Nat × Word) :=
  ((instances s.cfg.shadow Reg.cfImgCtrl).filter (fun (_, _, v) => bit v 31)).map (fun (m, _, v) => (m, v))

/-- IMAGE (0x0A): the CRC of every image with SWAP set (R523). The signature of a code image is asked of the security port. -/
def checkImages (s : State) : List CheckFail :=
  s.swaps.filterMap (fun (m, v) =>
    let n := fld v 19 0
    if imageBytes m < n || crc32c ((s.image m).bytes (1 - (s.image m).active) n) != fld v 63 32 then
      some { code := 0x0A, off := Reg.cfImgCtrl, sel := m, sel2 := 0 } else none)

/-- The failure at the lowest offset, and among those at the lowest selectors (R516). -/
def lowest : List CheckFail → Option CheckFail
  | [] => none
  | a :: r =>
    match lowest r with
    | none => some a
    | some b =>
      if a.off < b.off ∨ (a.off = b.off ∧ (a.sel < b.sel ∨ (a.sel = b.sel ∧ a.sel2 ≤ b.sel2))) then some a else some b

/-- CHECK's rows in the order of Table 15-8, up to the CRC of the images. -/
def checkRows (s : State) : List (List CheckFail) :=
  [checkFieldRange s, checkInUse s, checkPrimes s, checkCodebooks s, checkBuoyMaps s, checkQuotas s, checkRegions s,
   checkRoutes s, checkCaps s, checkImages s]

/-- The first failure of CHECK over the whole shadow set (R516). -/
def runCheck (s : State) : Option CheckFail := (checkRows s).findSome? lowest

/-- Latches a failed CHECK: RESULT, CF_CHECK_INFO, CF_EVENT.CHECK_FAILED and a CHECK_FAIL log record. -/
def State.checkFailed (s : State) (origin : Nat) (f : CheckFail) : State :=
  let s := s.setReg Reg.cfCheckInfo (BitVec.ofNat 64 (2 ^ 48 * f.sel + 2 ^ 32 * f.sel2 + 2 ^ 24 * f.code + f.off))
  let s := { s with commit := { s.commit with phase := .idle, result := f.code } }
  (s.evCf 1).logObj 0x04 origin f.off (BitVec.ofNat 8 f.code :: leBytes 4 f.off)

/-- The security port gets the span of a code image that is about to swap: LENGTH bytes, which end in its signature. How
the span divides into signed bytes and signature belongs to the security block. -/
def State.askCode (s : State) (applyAfter : Bool) (origin : Nat) (v : Word) : State :=
  let im := s.image 0
  let s := { s with kp := { s.kp with job := .code applyAfter origin },
                    commit := { s.commit with phase := .checking, origin := origin } }
  s.emit (.security 2 (im.bytes (1 - im.active) (fld v 19 0)) [])

/-- The commit starts: PHASE PREPARE, the token on its way to the control island (Table 15-9, step 1). -/
def State.startCommit (s : State) (origin : Nat) : State :=
  { s with commit := { s.commit with phase := .prepare, pos := 0, reported := [], origin := origin, result := 0 },
           cfg := { s.cfg with pending := s.cfg.active } }

/-- CHECK or APPLY through a port or by the keeper, once authority and phase allow it. -/
def State.checkOp (s : State) (origin : Nat) (applyAfter : Bool) : State :=
  match runCheck s with
  | some f => s.checkFailed origin f
  | none =>
    match s.swaps.find? (fun p => p.1 == 0) with
    | some (_, v) => s.askCode applyAfter origin v
    | none =>
      if applyAfter then s.startCommit origin
      else { s with commit := { s.commit with result := 0 } }

/-- CF_CTRL operations are refused for a compute port (AUTHORITY) and outside IDLE (BUSY), and ignored unless the mode is
NORMAL (R512, R517, R603). -/
def State.cfCtrlGate (s : State) (p : Port) (f : State → State) : State :=
  if s.kp.mode ≠ .normal then s
  else match p with
    | .compute _ => s.refuseWrite (originOf p) 4 Reg.cfCtrl
    | _ => if s.commit.phase ≠ .idle then s.refuseWrite (originOf p) 3 Reg.cfCtrl else f s

/-! ### Commit -/

/-- IMAGE_SWAP: a memory's shadow bank becomes active, with a log record of its CRC (R522). -/
def State.swapImage (s : State) (mem : Nat) (v : Word) : State :=
  let im := s.image mem
  let s := { s with images := tput s.images mem { im with active := 1 - im.active } }
  s.logRec 0x08 keeperOrigin 0xFFFF mem 0 (BitVec.ofNat 64 (fld v 63 32)) []

/-- The pattern memory of a group swaps when the prepare token reaches the group's island (R522). -/
def State.swapPattern (s : State) (island : Nat) : State :=
  if island < 12 then
    match s.swaps.find? (fun p => p.1 == 0x10 + island) with
    | some (m, v) => s.swapImage m v
    | none => s
  else s

/-- The power domain of a bank pair: the domains are counted movers 0 to 47, lenses 48 to 59, expander clusters 60 to 71,
lift units 72 to 87, bank pairs 88 to 119, link groups 120 to 143, queue manager 144, translation 145, sync 146, keeper 147. -/
def pairDomain (p : Nat) : Nat := 88 + p

/-- Asks a power switch for a state (R586). -/
def State.pdAsk (s : State) (d want : Nat) : State :=
  let cur := (tget s.sup.domains d).getD { want := 0, got := 0 }
  { s with sup := { s.sup with
             domains := if cur.want = want then s.sup.domains else tput s.sup.domains d { cur with want := want } }
           out := if cur.want = want then s.out else s.out ++ [.pdReq d want] }

/-- A bank pair, off until a commit switches it on. -/
def State.pair (s : State) (p : Nat) : Pair :=
  (tget s.win.pairs p).getD { state := .off, offered := false, retaining := false }

/-- Sets a bank pair. -/
def State.setPair (s : State) (p : Nat) (x : Pair) : State :=
  { s with win := { s.win with pairs := tput s.win.pairs p x } }

/-- A window memory without the bytes of a bank pair (4 MiB of window offsets). -/
def dropPair (ram : List Host.Cell) (p : Nat) : List Host.Cell := ram.filter (fun c => c.1 / 0x400000 ≠ p)

/-- A descriptor of an earlier epoch that is in execution. -/
def State.isOld (s : State) (d : Desc) : Bool :=
  d.began && d.epoch != s.commit.epoch && d.phase != .halted && d.phase != .saving && d.phase != .resuming

/-- Whether a bank pair is in use (R33): an access to one of its banks is outstanding, or a stream of an earlier epoch executes, for which
a bank of the pair still has EN 1. -/
def State.pairUsed (s : State) (p : Nat) : Bool :=
  s.reqs.any (fun r => r.dest == .bank (2 * p) || r.dest == .bank (2 * p + 1)) ||
    ((bit (rget s.grade s.cfg.old (Reg.wbBank (2 * p))) 15 || bit (rget s.grade s.cfg.old (Reg.wbBank (2 * p + 1))) 15) &&
      s.descs.any s.isOld)

/-- Whether a bank that is there has EN 1. -/
def State.bankOn (s : State) (b : Nat) : Bool := s.hasBank b && bit (s.act (Reg.wbBank b)) 15

/-- BANK_PAIR_ZERO_FILL: the keeper switches a pair off when both of its banks have EN 0 and nothing uses it any more (R33, R489), its
contents lost, and on when either has EN 1, filled with zeros (R489). A bank that is absent or retired keeps no pair on. -/
def State.powerPair (s : State) (p : Nat) : State :=
  let on := s.bankOn (2 * p) || s.bankOn (2 * p + 1)
  let cur := s.pair p
  if on = (cur.state ≠ .off) then (if cur.state = .on then s.pdAsk (pairDomain p) 1 else s)
  else if !on && s.pairUsed p then s
  else
    let s := { s with win := { s.win with ram := dropPair s.win.ram p,
                                          bad := s.win.bad.filter (fun a => a / 0x400000 ≠ p) } }
    (s.setPair p { state := if on then .on else .off, offered := false, retaining := false }).pdAsk (pairDomain p) (b2n on)

/-- A bank pair that a commit has taken out of service is switched off once the last access to it has ended (R33, R489). -/
def State.settlePair (s : State) (p : Nat) : State :=
  if s.bankOn (2 * p) || s.bankOn (2 * p + 1) then s else s.powerPair p

/-- The four bank pairs of a bank island. -/
def State.powerPairs (s : State) (island : Nat) : State :=
  if 16 ≤ island ∧ island < 24 then
    (List.range 4).foldl (fun s k => s.powerPair (4 * (island - 16) + k)) s
  else s

/-- The prepare token at an island (Table 15-9, step 2; R522). -/
def State.prepareAt (s : State) (island : Nat) : State :=
  let s := s.swapPattern island
  { s with cfg := { s.cfg with pending := takeIsland island s.cfg.pending s.cfg.shadow } }

/-- The switch token at an island (Table 15-9, steps 4 and 5): the control island starts the new epoch. -/
def State.switchAt (s : State) (island : Nat) : State :=
  let s := { s with cfg := { s.cfg with active := takeIsland island s.cfg.active s.cfg.pending } }
  let s := if island = 30 then { s with commit := { s.commit with epoch := (s.commit.epoch + 1) % 2 ^ 32 } } else s
  s.powerPairs island

/-- A commit token reaches the next island; when it returns to the keeper the phase moves on (Table 15-9, steps 2 to 6). -/
def State.token (s : State) : State :=
  let order := s.tokenOrder
  match s.commit.phase with
  | .prepare =>
    let s := s.prepareAt (order.getD s.commit.pos 31)
    if s.commit.pos + 1 < order.length then { s with commit := { s.commit with pos := s.commit.pos + 1 } }
    else { s with commit := { s.commit with phase := .switch, pos := 0 }, cfg := { s.cfg with old := s.cfg.active } }
  | .switch =>
    let s := s.switchAt (order.getD s.commit.pos 31)
    if s.commit.pos + 1 < order.length then { s with commit := { s.commit with pos := s.commit.pos + 1 } }
    else ({ s with commit := { s.commit with phase := .retire, pos := 0 } }).evCf 0
  | _ => s

/-- Whether an old descriptor executes on an island: its group's island, the lift island of its slot, and every control,
bank and fabric island. -/
def State.oldOn (s : State) (island : Nat) : Bool :=
  s.descs.any (fun d => s.isOld d &&
    (if island < 12 then ((tget s.queues d.queue).map (·.group)) == some island
     else if island < 16 then (d.liftSlot.map (· / 4)) == some (island - 12)
     else if island = 31 then false else true))

/-- The register-change records of a commit (R525): one for each register whose committed value changed, then COMMIT. -/
def State.logCommit (s : State) : State :=
  let ks := diffKeys s.grade s.cfg.old s.cfg.active
  let s := ks.foldl (fun s k =>
    let off := k % 2 ^ 24
    let byCtx := off == Reg.cfCtxRing || off == Reg.cfPrimeQ || off == Reg.cfPrimePsi || off == Reg.cfPrimeMu ||
      off == Reg.atCtx || off == Reg.byCtxMap || off == Reg.lfCbCtrl || isInst off (Reg.lfCbLevel 0) 8 4
    s.logRec 0x02 s.commit.origin (if byCtx then k / 2 ^ 24 % 2 ^ 16 else 0xFFFF) off
      (rget s.grade s.cfg.old k) (rget s.grade s.cfg.active k) []) s
  s.logRec 0x03 s.commit.origin 0xFFFF 0 0 (BitVec.ofNat 64 s.commit.epoch) []

/-- SWAP returns to 0 in both copies after a commit (R522). -/
def clearSwaps (grade : Nat) (f : RegFile) : RegFile :=
  f.foldl (fun g p => if p.1 % 2 ^ 24 = Reg.cfImgCtrl then rput grade g p.1 (putBit p.2 31 false) else g) f

/-- The last report: the keeper swaps its own code bank, PHASE returns to IDLE and the log records follow (step 8). -/
def State.endCommit (s : State) : State :=
  let code := s.swaps.find? (fun p => p.1 == 0)
  let s := s.logCommit
  let s := match code with
    | some (_, v) => s.swapImage 0 v
    | none => s
  let a := clearSwaps s.grade s.cfg.active
  { s with cfg := { shadow := clearSwaps s.grade s.cfg.shadow, pending := a, active := a, old := a },
           commit := { s.commit with phase := .idle, reported := [] } }

/-- An island with no descriptor of the old epoch reports its retirement; the last report ends the commit (steps 7, 8). -/
def State.retireReport (s : State) (island : Nat) : State :=
  if s.commit.phase = .retire ∧ island ∈ s.tokenOrder ∧ island ∉ s.commit.reported ∧ s.oldOn island = false then
    let s := { s with commit := { s.commit with reported := island :: s.commit.reported } }
    if s.tokenOrder.all (fun i => s.commit.reported.contains i) then (List.range 32).foldl State.powerPair s.endCommit else s
  else s

/-- DISCARD copies every active value over its shadow (R605). -/
def State.discardShadow (s : State) : State := { s with cfg := { s.cfg with shadow := s.cfg.active } }

end Sys2Proof.Machine
end

