-- ==== Sys2Proof/Machine/Retire.lean ====
section
/-! DEFINITION. Retirement of units (R536 to R539), the error counts that lead to it (R529, R533), and a link that leaves service
(R474). -/

namespace Sys2Proof.Machine

/-! ### Descriptors -/

/-- The group of a queue. -/
def State.groupOf (s : State) (q : Nat) : Nat := ((tget s.queues q).map (·.group)).getD 0

/-- The descriptor ends with a status before or during execution: it issues nothing more and performs no further signal
(R95), but for the rest of a destination unit of which it has issued a part (R52). It is complete once its outstanding writes have
retired. -/
def endWith (d : Desc) (status : Nat) (word1 : Word) : Desc :=
  { d with phase := .finishing, status := status, word1 := word1, wr := d.wr.filter (fun u => u.issued != 0), late := [] }

/-- A change of a descriptor that has not ended yet, as it stands now. -/
def State.ifLive (s : State) (did : Nat) (f : State → Desc → State) : State :=
  match s.descs.find? (fun d => d.id == did) with
  | some d => if d.phase == .finishing || d.phase == .recording then s else f s d
  | none => s

/-! ### Links -/

/-- A link that nothing has happened to: DOWN. -/
def Link.blank : Link where
  state := .down
  cause := 0
  nbrValid := false
  nbrLink := 0
  nbrChip := 0
  nbrEpoch := 0
  locked := false
  txSeq := 0
  rxSeq := 0
  credits := 0
  owed := 0
  nackSent := false
  queue := []
  replay := []
  resend := none
  timeouts := 0

/-- A link. -/
def State.link (s : State) (l : Nat) : Link := (tget s.fab.links l).getD Link.blank

/-- Sets a link. -/
def State.setLink (s : State) (l : Nat) (x : Link) : State := { s with fab := { s.fab with links := tput s.fab.links l x } }

/-- The KIND of a link block (Table 13-2). -/
def blockKind (b : LinkBlock) : Nat := nfld b.tag.toNat 39 32

/-- Kinds that belong to one link alone: IDLE, BEACON, FOG and NACK (Table 13-3). -/
def ownKind (k : Nat) : Bool := k == 0 || k == 6 || k == 7 || k == 8

/-- Whether a kind takes a credit and a place in the replay buffer (R449). -/
def lineKind (k : Nat) : Bool := (1 ≤ k && k ≤ 5) || k == 9

/-- The leading line of a block: SRC_CHIP and LINE (Table 13-2). -/
def blockLine (b : LinkBlock) : Nat × Nat := (nfld b.tag.toNat 83 64, nfld b.tag.toNat 127 116)

/-- A receive buffer is empty once its link has left service: what it held owes the other side no credit any more. -/
def State.forgetBuffer (s : State) (l : Nat) : State :=
  let clear := fun (c : Option Nat) => if c = some l then none else c
  { s with fab := { s.fab with
      transit := s.fab.transit.map (fun i => { i with came := clear i.came }),
      inb := s.fab.inb.map (fun p => (p.1, { p.2 with reorder := p.2.reorder.map (fun r => (r.1, clear r.2.1, r.2.2)),
                                                      applying := p.2.applying.map (fun a => { a with came := clear a.came }) })) } }

/-- A link leaves service (R474): the blocks of its replay buffer are to be sent again on other links, ahead of the blocks of their lines
that no link has sent yet, and the blocks of its queue go to other links; its neighbour's values and its cause stay on record. -/
def State.dropLink (s : State) (l : Nat) (st : LinkState) (cause : Nat) : State :=
  let x := s.link l
  let lines := (x.replay.filter (fun i => lineKind (blockKind i.block))).map (fun i => blockLine i.block)
  let after := fun (i : LinkItem) => lineKind (blockKind i.block) && lines.contains (blockLine i.block)
  let y := { Link.blank with state := st, cause := cause, nbrValid := x.nbrValid, nbrLink := x.nbrLink, nbrChip := x.nbrChip,
                             nbrEpoch := x.nbrEpoch, locked := x.locked }
  let s := (s.setLink l y).forgetBuffer l
  let behind := s.fab.links.flatMap (fun p => p.2.queue.filter after)
  let again := ((x.replay ++ x.queue).filter (fun i => !ownKind (blockKind i.block))).map (fun i => { i with sends := 0 })
  { s with fab := { s.fab with links := s.fab.links.map (fun p => (p.1, { p.2 with queue := p.2.queue.filter (fun i => !after i) })),
                               transit := again ++ behind ++ s.fab.transit } }

/-! ### Units -/

/-- The register and the bit that show a unit retired (Table 16-11). Kinds are those of HM_RETIRE_REQ (Table 16-12), and 8 for a
lens. -/
def retiredBit (kind i : Nat) : Nat × Nat :=
  if kind = 1 then (Reg.hmRetiredMover, i)
  else if kind = 2 then (Reg.hmRetiredUnit, i)
  else if kind = 3 then (Reg.hmRetiredUnit, 32 + i)
  else if kind = 4 then (Reg.hmRetiredUnit, 48 + i)
  else if kind = 5 then (Reg.hmRetiredBank, i)
  else if kind = 6 then (Reg.hmRetiredMport, i)
  else if kind = 7 then (if i < 64 then (Reg.hmRetiredLink0, i) else (Reg.hmRetiredLink1, i - 64))
  else (Reg.hmRetiredUnit, 16 + i)

/-- Whether a unit is present and not retired (R536). -/
def State.hasUnit (s : State) (kind i : Nat) : Bool :=
  if kind = 1 then s.hasMover i
  else if kind = 2 then s.hasGroup i
  else if kind = 3 then s.hasExp i
  else if kind = 4 then s.hasLift i
  else if kind = 5 then s.hasBank i
  else if kind = 6 then s.hasMport i
  else if kind = 7 then s.hasLink i
  else if kind = 8 then i < 12 && s.lensFuse i && !s.lensRetired i
  else false

/-- The keeper marks a unit retired (R536): its bit, HM_EVENT.RETIRED and a HEALTH record, whose DETAIL the spec does not state (a
free value). -/
def State.markRetired (s : State) (kind i : Nat) : State :=
  let (k, b) := retiredBit kind i
  ((s.setReg k (putBit (s.reg k) b true)).evHm 1).logObj 0x0D keeperOrigin i (leBytes 20 (Config.openValue 6 s.free))

/-- Whether a descriptor holds a unit (R538): a slot of a mover, cores of a cluster, or a slot of a lift unit. -/
def State.holdsUnit (s : State) (kind i : Nat) (d : Desc) : Bool :=
  if kind = 1 then d.mover == some i
  else if kind = 3 then s.groupOf d.queue == i && d.cores.any (fun c => c.index < 254)
  else if kind = 4 then d.liftSlot == some i
  else false

/-- Every descriptor that holds a unit when it is retired completes with DATA_CHECK and address zero (R538). -/
def State.endHolders (s : State) (kind i : Nat) : State :=
  { s with descs := s.descs.map (fun d =>
      if s.holdsUnit kind i d && d.phase != .finishing && d.phase != .recording then endWith d 0x30 0 else d) }

/-- A mover or an expander cluster is retired. -/
def State.retireHeld (s : State) (kind i : Nat) : State :=
  if s.hasUnit kind i then (s.markRetired kind i).endHolders kind i else s

/-- A group is retired, with its movers and its expander cluster (R537). -/
def State.retireGroup (s : State) (g : Nat) : State :=
  if s.hasGroup g then
    let s := (List.range 4).foldl (fun s k => s.retireHeld 1 (4 * g + k)) s
    (s.retireHeld 3 g).markRetired 2 g
  else s

/-- A bank is retired (R539): its contents are lost, and its pair is switched off once both of its banks are retired. -/
def State.retireBank (s : State) (b : Nat) : State :=
  let s := s.markRetired 5 b
  let p := b / 2
  let s := { s with win := { s.win with ram := s.win.ram.filter (fun c => c.1 / 0x200000 ≠ b),
                                        bad := s.win.bad.filter (fun a => a / 0x200000 ≠ b) } }
  if s.hasBank (2 * p) || s.hasBank (2 * p + 1) || (s.pair p).state == .off then s
  else (s.setPair p { state := .off, offered := false, retaining := false }).pdAsk (pairDomain p) 0

/-- The keeper retires a unit (R536, R537): nothing happens to one that is absent or retired already. -/
def State.retire (s : State) (kind i : Nat) : State :=
  if !s.hasUnit kind i then s
  else if kind = 1 then
    let s := s.retireHeld 1 i
    if (s.groupMovers (i / 4)).isEmpty then s.retireGroup (i / 4) else s
  else if kind = 2 then s.retireGroup i
  else if kind = 3 then s.retireHeld 3 i
  else if kind = 4 then s.retireHeld 4 i
  else if kind = 5 then s.retireBank i
  else if kind = 6 then s.markRetired 6 i
  else if kind = 7 then (s.markRetired 7 i).dropLink i .down 0
  else (s.markRetired 8 i).retireGroup i

/-! ### Error counts -/

/-- The unit that the errors of a store and instance of Table 16-2 count against: none for a store that belongs to no unit that
can be retired. -/
def unitOfStore (store unit : Nat) : Option (Nat × Nat) :=
  if store = 0 then some (8, unit)
  else if store = 1 then some (5, unit)
  else if store = 4 then some (4, unit)
  else if store = 5 then some (3, unit)
  else if store = 6 ∧ unit < 12 then some (2, unit)
  else if store = 8 ∧ unit < 48 then some (1, unit)
  else if store = 9 ∧ 16 ≤ unit then some (2, unit - 16)
  else if store = 10 then some (6, unit)
  else if store = 11 then some (7, unit)
  else none

/-- The errors of a unit within the window of HM_CFG reach a limit that is not 0: the keeper retires the unit (R536). -/
def State.limitCheck (s : State) (store unit : Nat) (uncorr : Bool) : State :=
  match unitOfStore store unit with
  | none => s
  | some (kind, i) =>
    let k := kind * 256 + i
    let cfg := s.act Reg.hmCfg
    if uncorr then
      let n := (tget s.sup.ueWin k).getD 0 + 1
      let s := { s with sup := { s.sup with ueWin := tput s.sup.ueWin k n } }
      if fld cfg 31 24 ≠ 0 ∧ fld cfg 31 24 ≤ n then s.retire kind i else s
    else
      let n := (tget s.sup.ceWin k).getD 0 + 1
      let s := { s with sup := { s.sup with ceWin := tput s.sup.ceWin k n } }
      if fld cfg 63 32 ≠ 0 ∧ fld cfg 63 32 ≤ n then s.retire kind i else s

/-- Counts an error in a store of Table 16-2 in HM_ECC, with the unit, sets HM_EVENT.UNCORRECTABLE for an uncorrectable one
(R529, R533), and applies the limits of R536. -/
def State.countEcc (s : State) (store unit : Nat) (uncorr : Bool) : State :=
  let k := Reg.hmEcc store
  let s := s.setFld k 63 48 unit
  let s := if uncorr then (s.bump k 47 32).evHm 0 else s.bump k 31 0
  s.limitCheck store unit uncorr

end Sys2Proof.Machine
end

