-- ==== Sys2Proof/Machine/Sync.lean ====
section
/-! DEFINITION. The sync unit: buoy identifiers, the atomic buoy operation with its waits, claims and watches (R373 to R386),
flash queues (R399 to R409), wait reports and wakes (R412, R413). -/

namespace Sys2Proof.Machine

/-! ### Injection -/

/-- An access to a store of Table 16-2 under error injection (R549): the armed injection at this store and unit first lets
SKIP accesses pass, then corrupts TIMES accesses, and then disarms. A MODE that does not suit the store is ignored. -/
def State.inject (s : State) (store unit : Nat) (ctx : Option Nat) : State × Ecc :=
  let w := s.reg Reg.tpInj
  let mode := fld w 51 48
  let suits := if 11 ≤ store then mode == 2 else if store == 5 || store == 6 then mode == 3 else mode == 0 || mode == 1
  if !bit w 63 || s.sup.tpLocked || s.die.fuses.tpFused || fld w 47 40 != store || fld w 39 32 != unit || !suits ||
      (bit w 62 && ctx != some (fld w 61 52)) then (s, .clean)
  else if s.sup.injSkipped < fld w 31 16 then
    ({ s with sup := { s.sup with injSkipped := s.sup.injSkipped + 1 } }, .clean)
  else if fld w 15 0 ≤ s.sup.injDone then
    (s.setReg Reg.tpInj (putBit w 63 false), .clean)
  else
    let s := { s with sup := { s.sup with injDone := s.sup.injDone + 1 } }
    let s := s.bump Reg.tpInjStat 63 32
    let s := if s.sup.injDone = fld w 15 0 then s.setReg Reg.tpInj (putBit w 63 false) else s
    (s, if mode == 0 then .corrected else .uncorrectable)

/-! ### Power lending -/

/-- A power-manager message from the block (Table 17-7). -/
def State.pmSend (s : State) (type : Nat) (fields : Nat) : State := s.emit (.power (BitVec.ofNat 64 (type + fields)))

/-- A pair in retention starts to wake (R496); a pair in any other state is left alone. -/
def State.wakePair (s : State) (p : Nat) : State :=
  let x := s.pair p
  if x.state = .retention then
    ((s.setPair p { x with state := .waking }).bump (Reg.wbPairStat p) 63 32).pdAsk (pairDomain p) 1
  else s

/-- The bank pairs that a group lends (Table 11-24). -/
def State.lendPairs (s : State) (g : Nat) : List Nat :=
  (List.range 32).filter (fun p => bit (s.act (Reg.byLendCfg g)) p)

/-- The wake of a reported group (R413): REPORTED clears, WAKE_GROUP goes out, its pairs are no longer offered and those in
retention start to wake. -/
def State.wakeGroup (s : State) (g : Nat) : State :=
  if bit (s.reg Reg.byLendStat) g then
    let s := s.setReg Reg.byLendStat (putBit (s.reg Reg.byLendStat) g false)
    let s := s.pmSend 0x83 (2 ^ 8 * g)
    (s.lendPairs g).foldl (fun s p => (s.setPair p { s.pair p with offered := false, retaining := false }).wakePair p) s
  else s

/-! ### Identifiers -/

/-- The physical buoy that a context's identifier names (R373, R375), if it is mapped. -/
def State.physOf (s : State) (ctx ident : Nat) : Option Nat :=
  if s.nContexts ≤ ctx then none
  else if s.virtBuoys then
    let m := s.act (rkey Reg.byCtxMap ctx)
    if ident < fld m 28 16 ∧ ident < 4096 then some (fld m 15 0 + ident) else none
  else
    let c := ident / 64
    let b := ident % 64
    let own := s.act (Reg.byStaticOwner (48 * c + b))
    if b < 48 ∧ 48 * c + b < s.nBuoys ∧ bit own 63 ∧ fld own 9 0 = ctx then some (48 * c + b) else none

/-- A physical buoy. -/
def State.buoy (s : State) (b : Nat) : Buoy := (tget s.sync.buoys b).getD { value := 0, sat := false, poison := false }

/-- Sets a physical buoy. -/
def State.setBuoy (s : State) (b : Nat) (x : Buoy) : State :=
  { s with sync := { s.sync with
      buoys := if x = { value := 0, sat := false, poison := false } then tdel s.sync.buoys b
               else tput s.sync.buoys b x } }

/-- The claimants of a buoy in order (R379). -/
def State.claimants (s : State) (b : Nat) : List Claimant := (tget s.sync.claimants b).getD []

/-- Sets the claimants of a buoy. -/
def State.setClaimants (s : State) (b : Nat) (l : List Claimant) : State :=
  { s with sync := { s.sync with
      claimants := if l.isEmpty then tdel s.sync.claimants b else tput s.sync.claimants b l } }

/-- Whether a condition of Table 3-8 holds of a buoy value (CLAIM as GE). -/
def condHolds (cond buoy value : Nat) : Bool :=
  if cond = 1 then buoy == value else if cond = 2 then buoy != value else if cond = 3 then buoy < value
  else value ≤ buoy

/-! ### Flash queues -/

/-- A flash queue. -/
def State.fq (s : State) (f : Nat) : FlashQ :=
  (tget s.sync.fqs f).getD { cells := [], tailOpen := false, rd := 0, mark := 0, latch := zeros 64, latchTag := 0 }

/-- Sets a flash queue. -/
def State.setFq (s : State) (f : Nat) (x : FlashQ) : State :=
  { s with sync := { s.sync with fqs := tput s.sync.fqs f x } }

/-- The fill of a flash queue: the records at or after the read position (R407). -/
def fqFill (x : FlashQ) : Nat := ((x.cells.drop x.rd).map List.length).sum

/-- Cells left in the pool (R399). -/
def State.poolFree (s : State) : Nat := poolCells - ((s.sync.fqs.map (fun p => p.2.cells.length)).sum)

/-- A dropped record sets OVERRUN and counts in DROPPED (R401). -/
def State.fqDrop (s : State) (f : Nat) : State :=
  s.event (rkey Reg.fqStat f) 63 (rkey Reg.fqSeq f) 63 32

/-- A flash queue with a record appended to its open tail cell, or to a new cell (R400); a full cell is closed. -/
def fqAppend (x : FlashQ) (r : Flash) : FlashQ :=
  if x.tailOpen then
    let n := x.cells.length - 1
    let cells := lmod x.cells n (fun c => c ++ [r])
    { x with cells := cells, tailOpen := (cells.getD n []).length < 4 }
  else { x with cells := x.cells ++ [[r]], tailOpen := true }

/-- The sync unit writes a record to a flash queue (R400, R401, R407): dropped for a disabled queue or when a new cell would
pass the quota; an accepted record counts in WRITTEN and raises the level interrupt at LEVEL. -/
def State.flash (s : State) (f : Nat) (r : Flash) : State :=
  let cfg := s.act (rkey Reg.fqCfg f)
  let x := s.fq f
  if !bit cfg 63 then s.fqDrop f
  else if !x.tailOpen && fld cfg 30 16 ≤ x.cells.length then s.fqDrop f
  else
    let y := fqAppend x r
    let s := (s.setFq f y).bump (rkey Reg.fqSeq f) 31 0
    let level := fld cfg 47 32
    if level ≠ 0 ∧ fqFill x < level ∧ level ≤ fqFill y then
      (s.setReg (Reg.fqIrq (f / 64)) (putBit (s.reg (Reg.fqIrq (f / 64))) (f % 64) true)).bump (rkey Reg.fqCnt f) 31 0
    else s

/-- The record that a watch writes when it fires at a buoy value (Table 11-3). -/
def watchFlash (slot : Nat) (w : Watch) (sat : Bool) (v : Nat) : Flash :=
  (BitVec.ofNat 64 (0x10 + 2 ^ 8 * b2n (w.cond == 4) + 2 ^ 9 * b2n sat + 2 ^ 16 * w.ident + 2 ^ 32 * v),
   BitVec.ofNat 64 (w.cookie + 2 ^ 32 * slot))

/-- A flash-queue cell as a word of 64 bytes, padded with pad records (R403). -/
def cellBytes (c : List Flash) : Bytes := fitTo 64 (c.flatMap (fun r => leBytes 8 r.1.toNat ++ leBytes 8 r.2.toNat))

/-- The idle word of a flash queue (Table 11-4, R404). -/
def State.idleWord (s : State) (f : Nat) : Bytes :=
  cellBytes [(BitVec.ofNat 64 (0x7F + 2 ^ 16 * f + 2 ^ 32 * s.regFld (rkey Reg.fqSeq f) 31 0),
              BitVec.ofNat 64 (s.regFld (rkey Reg.fqSeq f) 63 32))]

/-! ### Waits of descriptors -/

/-- A descriptor by its identity. -/
def State.desc (s : State) (did : Nat) : Option Desc := s.descs.find? (fun d => d.id == did)

/-- Replaces a descriptor. -/
def State.setDesc (s : State) (d : Desc) : State :=
  { s with descs := s.descs.map (fun e => if e.id = d.id then d else e) }

/-- A change of one descriptor, if it is there. -/
def State.onDesc (s : State) (did : Nat) (f : Desc → Desc) : State :=
  { s with descs := s.descs.map (fun e => if e.id = did then f e else e) }

/-- The predicate's buoy of a descriptor: context identifier and enable, from the PRED word (Table 3-5). -/
def Desc.predEn (d : Desc) : Bool := nbit (leAt (d.entries.getD 0 []) 0 8) 16
def Desc.predIdent (d : Desc) : Nat := leAt (d.entries.getD 0 []) 8 8 % 4096

/-- The context of a queue. -/
def State.ctxOf (s : State) (q : Nat) : Nat := ((tget s.queues q).map (·.ctx)).getD 0

/-- Every wait of a descriptor is met: it leaves the waiting stage; its predicate takes the value that its buoy holds now
(R90); its wait entry is released, which wakes a reported group (R390, R413). -/
def State.waitsMet (s : State) (d : Desc) : State :=
  let v := match s.physOf (s.ctxOf d.queue) d.predIdent with
    | some b => (s.buoy b).value
    | none => 0
  (s.setDesc { d with phase := .ready, predVal := v }).wakeGroup (s.groupOf d.queue)

/-- The first unmet wait of a waiting descriptor, where it is a CLAIM that is not registered, becomes a claimant of its buoy: every
earlier wait is met (R89, R379). -/
def State.registerClaim (s : State) (did : Nat) : State :=
  match s.desc did with
  | none => s
  | some d =>
    match firstIdx (fun (x : WaitSt) => !x.met) d.waits 0 with
    | none => s
    | some w =>
      match d.waits[w]? with
      | none => s
      | some x =>
        if d.phase ≠ .waiting ∨ x.cond ≠ 4 ∨ x.registered then s
        else
          let s := s.setDesc { d with waits := lmod d.waits w (fun x => { x with registered := true }) }
          s.setClaimants x.phys (s.claimants x.phys ++ [.wait did w])

/-- One wait of a descriptor is met (R88): a CLAIM behind it may be registered now (R379), and the last one met releases the entry. -/
def State.meetWait (s : State) (did w : Nat) : State :=
  match s.desc did with
  | none => s
  | some d =>
    let d := { d with waits := lmod d.waits w (fun x => { x with met := true }) }
    let s := s.setDesc d
    if d.phase = .waiting ∧ d.waits.all (·.met) then s.waitsMet d else s.registerClaim did

/-- The waits that a buoy value meets among the registered waits other than claims (R378, R88). -/
def State.metNow (s : State) (b v : Nat) : List (Nat × Nat) :=
  s.descs.flatMap (fun d =>
    if d.phase ≠ .waiting then []
    else (List.range d.waits.length).filterMap (fun w =>
      match d.waits[w]? with
      | some x => if !x.met && x.registered && x.cond != 4 && x.phys == b && condHolds x.cond v x.value then
                    some (d.id, w) else none
      | none => none))

/-- A GE or CLAIM wait of a reported group that comes within PREWAKE of its value wakes the group (R413). -/
def State.prewake (s : State) (b v : Nat) : State :=
  (List.range 12).foldl (fun s g =>
    let margin := s.actFld (Reg.byLendCfg g) 47 32
    if bit (s.reg Reg.byLendStat) g && s.descs.any (fun d =>
        d.phase == .waiting && s.groupOf d.queue == g &&
        d.waits.any (fun x => !x.met && x.phys == b && (x.cond == 0 || x.cond == 4) && x.value - v ≤ margin))
    then s.wakeGroup g else s) s

/-- The BROADCAST watches on a buoy whose condition a value meets, of those not in a list. -/
def State.firing (s : State) (b v : Nat) (fired : List Nat) : List (Nat × Watch) :=
  s.sync.watches.filter (fun (slot, w) =>
    w.phys == b && w.cond != 4 && !fired.contains slot && condHolds w.cond v w.value)

/-- A BROADCAST watch fires: one flash, and it disarms unless EACH is set (R392, R394). -/
def State.fireWatch (s : State) (slot : Nat) (w : Watch) (v : Nat) : State :=
  let s := s.flash w.fq (watchFlash slot w (s.buoy w.phys).sat v)
  if w.each then s else { s with sync := { s.sync with watches := tdel s.sync.watches slot } }

/-- observe of R377 and R378: a value of a buoy reaches the open waits and the BROADCAST watches on it, each watch at most
once in a step. -/
def State.observe (s : State) (b v : Nat) (fired : List Nat) : State × List Nat :=
  let s := (s.metNow b v).foldl (fun s p => s.meetWait p.1 p.2) s
  let fs := s.firing b v fired
  let s := fs.foldl (fun s p => s.fireWatch p.1 p.2 v) s
  (s.prewake b v, fired ++ fs.map (·.1))

/-- The amount a claimant takes; none for one that is gone: a descriptor that no longer waits, or a watch that was disarmed. -/
def State.claimAmount (s : State) : Claimant → Option Nat
  | .wait did w =>
    (s.desc did).bind (fun d => if d.phase = .waiting then (d.waits[w]?).map (·.value) else none)
  | .watch slot => (tget s.sync.watches slot).map (·.value)

/-- serve of R377: the claim of a wait is taken, or a CLAIM watch writes its flash at the value before its claim. -/
def State.serve (s : State) (b v : Nat) : Claimant → State
  | .wait did w =>
    (s.setBuoy b { s.buoy b with value := v - ((s.claimAmount (.wait did w)).getD 0) }).meetWait did w
  | .watch slot =>
    match tget s.sync.watches slot with
    | none => s
    | some x =>
      let s := s.flash x.fq (watchFlash slot x (s.buoy b).sat v)
      let s := s.setBuoy b { s.buoy b with value := v - x.value }
      if x.each then s.setClaimants b (s.claimants b ++ [.watch slot])
      else { s with sync := { s.sync with watches := tdel s.sync.watches slot } }

/-- The claim loop of R377: while the buoy covers the head claimant it is served and the lowered value is observed. -/
def State.claimLoop (b : Nat) : Nat → State → List Nat → State
  | 0, s, _ => s
  | fuel + 1, s, fired =>
    match s.claimants b with
    | [] => s
    | c :: rest =>
      match s.claimAmount c with
      | none => claimLoop b fuel (s.setClaimants b rest) fired
      | some a =>
        let v := (s.buoy b).value
        if a ≤ v then
          let s := (s.setClaimants b rest).serve b v c
          let (s, fired) := s.observe b (s.buoy b).value fired
          claimLoop b fuel s fired
        else s

/-- A bound of the claim loop: each served claim takes at least one, or is a wait that leaves for good. -/
def State.claimFuel (s : State) (b : Nat) : Nat := (s.buoy b).value + (s.claimants b).length + s.descs.length * 4 + 1

/-- The buoys at whose tail a claimant stands that did not stand there in an earlier state: a CLAIM wait has been registered there. -/
def State.grown (s0 s : State) : List Nat :=
  (s.sync.claimants.filter (fun p => (s0.claimants p.1).getLast? != (s.claimants p.1).getLast?)).map (·.1)

/-- A registration is a step on its buoy: the buoys in a list are served, and so are those at which that registers further waits. -/
def State.settleClaims : Nat → List Nat → State → State
  | 0, _, s => s
  | _ + 1, [], s => s
  | fuel + 1, b :: rest, s =>
    let t := claimLoop b (s.claimFuel b) s []
    settleClaims fuel (rest ++ s.grown t) t

/-- A bound of the steps that registrations can take: every CLAIM wait is registered once. -/
def State.settleFuel (s : State) : Nat := 4 * s.descs.length + s.sync.claimants.length + 1

/-- The buoys at which something was registered since an earlier state are served. -/
def State.settled (s0 s : State) : State := State.settleClaims s.settleFuel (s0.grown s) s

/-- Serves the claims at the head of a buoy that take nothing (R380); a claimant that is gone leaves its place. -/
def State.serveZeros (b : Nat) : Nat → State → State
  | 0, s => s
  | fuel + 1, s =>
    match s.claimants b with
    | [] => s
    | c :: rest =>
      match s.claimAmount c with
      | none => serveZeros b fuel (s.setClaimants b rest)
      | some 0 => serveZeros b fuel ((s.setClaimants b rest).serve b (s.buoy b).value c)
      | some _ => s

/-- Claimants that are gone, with their descriptor or by a disarm, leave their buoys, and a claim that takes nothing is served where it
has become the head (R380). Nothing else is served: that is no step on the buoy (log entry 87). -/
def State.sweepClaims (s : State) : State :=
  let gone := s.sync.claimants.filter (fun p => p.2.any (fun c => (s.claimAmount c).isNone))
  let t := gone.foldl (fun s p =>
    let s := s.setClaimants p.1 ((s.claimants p.1).filter (fun c => (s.claimAmount c).isSome))
    State.serveZeros p.1 (s.claimants p.1).length s) s
  s.settled t

/-- The operation of a buoy (R377). -/
inductive BuoyOp
  | add
  | sub
  | set
deriving DecidableEq, Repr

/-- The outcome of an operation on a buoy. -/
inductive BuoyRes
  | ok
  | underflow
  | poisoned
deriving DecidableEq, Repr

/-- An uncorrectable error poisons a buoy; every wait and predicate that names it ends its descriptor with DATA_CHECK and
address zero (R384). -/
def State.poisonBuoy (s : State) (b : Nat) : State :=
  let s := (s.setBuoy b { s.buoy b with poison := true }).evBy 5
  let hit := s.descs.filter (fun d => d.phase == .waiting && d.waits.any (fun x => !x.met && x.phys == b))
  (hit.foldl (fun s d => s.setDesc (endWith d 0x30 0)) s).sweepClaims

/-- One atomic operation on a physical buoy (R377 to R384): add saturates and sets SAT, a subtract below zero is refused and
leaves everything unchanged, the new value is observed, and claimants are served in order. -/
def State.buoyOp (s : State) (b : Nat) (op : BuoyOp) (amt : Nat) : State × BuoyRes :=
  let (s, e) := s.inject 2 0 none
  let s := if e = .clean then s else s.countEcc 2 0 (e = .uncorrectable)
  let s := if e = .uncorrectable ∧ (s.buoy b).poison = false then s.poisonBuoy b else s
  let x := s.buoy b
  if x.poison ∧ op ≠ .set then (s, .poisoned)
  else if op = .sub ∧ x.value < amt then (s, .underflow)
  else
    let full := op = .add ∧ 0xFFFFFFFF < x.value + amt
    let v := match op with
      | .add => if full then 0xFFFFFFFF else x.value + amt
      | .sub => x.value - amt
      | .set => amt
    let s := s.setBuoy b { x with value := v, sat := x.sat || decide full }
    let s := if full then s.evBy 1 else s
    let (t, fired) := s.observe b v []
    let t := State.claimLoop b (t.claimFuel b) t fired
    (s.settled t, .ok)

/-- A refused subtract is latched (R382). -/
def State.latchUnderflow (s : State) (ctx ident b : Nat) : State :=
  (s.setReg Reg.byUflowInfo (BitVec.ofNat 64 (2 ^ 48 * b + 2 ^ 32 * ident + ctx))).evBy 0

/-- The operation of a signal on a buoy of a context (R377, R382). -/
def State.signalOp (s : State) (ctx ident b : Nat) (isSub : Bool) (amt : Nat) : State × BuoyRes :=
  let (s, r) := s.buoyOp b (if isSub then .sub else .add) amt
  if r = .underflow then (s.latchUnderflow ctx ident b, r) else (s, r)

/-! ### Port authority -/

/-- Whether a port may act for a context (R397). -/
def State.mayAct (s : State) (p : Port) (ctx : Nat) : Bool :=
  match p with
  | .compute g => bit (s.act (Reg.byPortCtx g)) 63 && s.actFld (Reg.byPortCtx g) 9 0 == ctx
  | _ => true

/-- Performs an accepted BY_SIGNAL operation, or refuses it (R387). -/
def State.portSignal (s : State) (p : Port) (w : Word) : State :=
  let ctx := fld w 9 0
  let ident := fld w 27 16
  match s.physOf ctx ident with
  | none => s.evBy 2
  | some b =>
    if !s.mayAct p ctx || 1 < fld w 14 12 || (s.buoy b).poison then s.evBy 2
    else
      let (s, r) := s.signalOp ctx ident b (fld w 14 12 == 1) (fld w 63 32)
      if r = .poisoned then s.evBy 2 else s

/-- The window writes of a compute port that have not reached their bank. -/
def State.portWrites (s : State) (p : Port) : List Nat :=
  match p with
  | .compute g => (s.reqs.filter (fun r => r.kind != .read &&
      (match r.owner with
       | .cp g' _ _ => g' == g
       | _ => false))).map (·.id)
  | _ => []

/-- The operations that a port holds (R387). -/
def State.heldOf (s : State) (p : Port) : List HeldSignal := (tget s.sync.held (copyOf p)).getD []

/-- Sets the operations that a port holds; the first sixteen are accepted, and one accepted now waits for the port's window
writes of now. -/
def State.setHeld (s : State) (p : Port) (l : List HeldSignal) : State :=
  let ws := s.portWrites p
  let l := (List.range l.length).filterMap (fun i => (l[i]?).map (fun h =>
    if i < 16 ∧ h.accepted = false then { h with accepted := true, waits := ws } else h))
  { s with sync := { s.sync with held := if l.isEmpty then tdel s.sync.held (copyOf p)
                                         else tput s.sync.held (copyOf p) l } }

/-- Whether an operation at the head of its port may be performed: RELEASE clear, or its window writes have all reached
their banks. -/
def State.signalReady (s : State) (h : HeldSignal) : Bool :=
  h.accepted && (!bit h.word 28 || h.waits.all (fun i => !s.reqs.any (fun r => r.id == i)))

/-- Performs the operations at the head of a port that need not wait, in order (R387). `release` lets the head be a RELEASE
operation whose writes are done. -/
def State.drainHeld (p : Port) : Nat → Bool → State → State
  | 0, _, s => s
  | fuel + 1, release, s =>
    match s.heldOf p with
    | [] => s
    | h :: rest =>
      if s.signalReady h && (release || !bit h.word 28) then
        drainHeld p fuel false ((s.portSignal p h.word).setHeld p rest)
      else s

end Sys2Proof.Machine
end

