-- ==== Sys2Proof/Machine/Mem.lean ====
section
/-! DEFINITION. Physical addresses and the ports that serve them (R35, R36, R575, R577), the bytes of the window banks, the
region check (R486), translation with its caches and walks (R348 to R371), and the issue of an access. -/

namespace Sys2Proof.Machine

/-! ### Physical addresses -/

def windowBase : Nat := 0x08000000000
def windowSize : Nat := 0x8000000
def tier1Base : Nat := 0x10000000000
def tier2Base : Nat := 0x40000000000
def tier2End : Nat := 0x50000000000

/-- mport_of: the memory port of a tier 0 address by the interleave (R575). -/
def mportOf (a count : Nat) : Nat := ((a / 2 ^ 8 % 2 ^ 16) ^^^ (a / 2 ^ 24 % 2 ^ 16)) % max count 1

/-- The partner of a memory port (R574). -/
def partner (p : Nat) : Nat := p ^^^ 1

/-- The extension ports of a role in ascending order (R577). -/
def State.xpOf (s : State) (role : Nat) : List Nat :=
  (List.range 4).filter (fun e => s.die.straps.xpRole.getD e 9 == role)

/-- Whether a local physical address lies in the window. -/
def inWindow (pa : Nat) : Bool := windowBase ≤ pa && pa < windowBase + windowSize

/-- Whether a local physical address lies in tier 0. -/
def inTier0 (pa : Nat) : Bool := pa < windowBase

/-- Where an access to a local physical address goes, or none where no such address is attached: a PHYSICAL fault (R36, R482,
R575 to R577). -/
def State.routePa (s : State) (pa : Nat) : Option Dest :=
  if inTier0 pa then
    if 2 ^ 30 * s.die.straps.t0Size ≤ pa then none
    else
      let p := mportOf pa s.nMports
      if s.hasMport p then some (.mport p)
      else if s.hasMport (partner p) then some (.mport (partner p)) else none
  else if inWindow pa then
    let o := pa - windowBase
    let b := o / 0x200000
    if s.hasBank b && o % 0x200000 < s.bankBytes then some (.bank b) else none
  else if tier1Base ≤ pa ∧ pa < tier2Base then
    let c := s.xpOf 0
    if 2 ^ 30 * s.die.straps.t1Size ≤ pa - tier1Base then none
    else ((c.drop ((pa - tier1Base) / 4096 % max c.length 1)).head?).map Dest.ext
  else if tier2Base ≤ pa ∧ pa < tier2End then
    if 2 ^ 30 * s.die.straps.t2Size ≤ pa - tier2Base then none
    else ((s.xpOf 1).head?).map Dest.ext
  else none

/-- Whether every byte of a span is attached: its first, its last and every 256 B piece between. -/
def State.spanOk (s : State) (pa len : Nat) : Bool :=
  (List.range (len / 256 + 1)).all (fun i => (s.routePa (min (pa + 256 * i) (pa + len - 1))).isSome) &&
    (s.routePa (pa + len - 1)).isSome

/-! ### Window memory -/

/-- What a byte of the window reads as that nothing has written since its pair was switched on: the fill with zeros of R489. -/
abbrev Memory.blank : Byte := 0

/-- The byte at a window offset: the blank byte where none is listed. -/
def ramByte (ram : List Host.Cell) (o : Nat) : Byte := (tget ram o).getD Memory.blank

/-- The window memory with one byte written, kept in its canonical form: blank bytes are not listed. -/
def ramPut (ram : List Host.Cell) (o : Nat) (b : Byte) : List Host.Cell :=
  if b = Memory.blank then tdel ram o else tput ram o b

/-- Bytes of the window. -/
def ramRead (ram : List Host.Cell) (o len : Nat) : Bytes := (List.range len).map (fun i => ramByte ram (o + i))

/-- Writes the enabled bytes of a string at a window offset. -/
def ramWrite (ram : List Host.Cell) (o : Nat) : Bytes → List Bool → List Host.Cell
  | b :: bs, e :: es => ramWrite (if e then ramPut ram o b else ram) (o + 1) bs es
  | _, _ => ram

/-- The canonical form of the window memory: rising offsets and no blank byte. -/
def Memory.wf (ram : List Host.Cell) : Bool := tsorted ram && ram.all (fun c => c.2 != Memory.blank)

/-! ### Regions -/

/-- What an access to a bank needs of a region (R486): the bits READ 40, WRITE 41, ATOMIC 42 and ALIAS 43 of WB_RGN. -/
def needBits : Access → List Nat
  | .read => [40]
  | .write => [41]
  | .rmw => [41, 42]
  | _ => [41, 43]

/-- Whether a region of a master covers a window offset and grants what an access needs. -/
def regionGrants (v : Word) (o : Nat) (kind : Access) : Bool :=
  bit v 63 && fld v 10 0 ≤ o / 65536 && o / 65536 ≤ fld v 26 16 && (needBits kind).all (bit v)

/-- The region check of a bank (R486): every byte of the access is covered by an enabled region of the master that grants
the permission. Regions have a grain of 64 KiB, so the first and the last byte decide. -/
def State.regionOk (s : State) (master o len : Nat) (kind : Access) : Bool :=
  let at1 := fun x => (List.range 4).any (fun r => regionGrants (s.act (Reg.wbRgn master r)) x kind)
  at1 o && at1 (o + len - 1)

/-- A refused bank access sets WB_EVENT.REFUSED and latches master, direction and offset (R487). -/
def State.regionRefuse (s : State) (master o : Nat) (kind : Access) : State :=
  (s.setReg Reg.wbRefuseInfo
    (BitVec.ofNat 64 (2 ^ 32 * o + 2 ^ 8 * b2n (kind != .read) + master))).evWb 0

/-! ### Ranges -/

/-- Whether a range covers a virtual address. -/
def Range.covers (r : Range) (va : Nat) : Bool := r.vaStart ≤ va && va < r.vaStart + r.length

def Range.present (r : Range) : Bool := r.attr.testBit 0
def Range.readable (r : Range) : Bool := r.attr.testBit 1
def Range.writable (r : Range) : Bool := r.attr.testBit 2
def Range.atomic (r : Range) : Bool := r.attr.testBit 3
def Range.remote (r : Range) : Bool := r.attr.testBit 4
def Range.counted (r : Range) : Bool := r.attr.testBit 5
def Range.counter (r : Range) : Nat := nfld r.attr 19 8
def Range.chip (r : Range) : Nat := nfld r.target 63 44

/-- The local physical address that a range gives a virtual address (R349). A sum of 2^44 or more is an address that Table 1-4 does not
hold (R36). -/
def Range.pa (r : Range) (va : Nat) : Nat := r.target % 2 ^ 44 + (va - r.vaStart)

/-- The range at byte `i` of a table granule (Table 10-1), under a tag. -/
def rangeAt (tag : Nat) (g : Bytes) (i : Nat) : Range :=
  { tag := tag, vaStart := leAt g i 8, length := leAt g (i + 8) 8, target := leAt g (i + 16) 8, attr := leAt g (i + 24) 8 }

/-- A range entry that the walk refuses with a TABLE fault (row 2 of Table 10-3): a reserved field that is not zero, a LENGTH
of zero, an end above 2^56, or a COUNTER that R370 refuses. -/
def State.rangeBad (s : State) (r : Range) : Bool :=
  r.vaStart % 4096 != 0 || 2 ^ 56 ≤ r.vaStart || r.length % 4096 != 0 || 2 ^ 56 ≤ r.length || r.length == 0 ||
    2 ^ 56 < r.vaStart + r.length || r.target % 4096 != 0 || (!r.remote && r.chip != 0) ||
    r.attr / 2 ^ 20 != 0 || nfld r.attr 7 6 != 0 || (r.counted && s.nQueues ≤ r.counter)

/-- Whether a range sends an access to another chip (R349, R351). -/
def State.isRemote (s : State) (r : Range) : Bool := r.remote && !(s.fab.idValid && r.chip == s.fab.chipId)

/-! ### Caches -/

/-- The tag of a context (R353). -/
def State.tagOf (s : State) (ctx : Nat) : Nat := s.actFld (rkey Reg.atCtx ctx) 11 0

/-- A cached range of a tag that covers an address. -/
def cacheFind (l : List Range) (tag va : Nat) : Option Range := l.find? (fun r => r.tag == tag && r.covers va)

/-- The cached range that a lookup hits: L0 of the mover, L1 of its group, L2 (R361). The queue manager looks in L2 alone. -/
def State.cached (s : State) (mover : Option Nat) (tag va : Nat) : Option Range :=
  let l2 := cacheFind s.xl.l2 tag va
  match mover with
  | none => l2
  | some m =>
    (cacheFind ((tget s.xl.l0 m).getD []) tag va).orElse
      (fun _ => (cacheFind ((tget s.xl.l1 (m / 4)).getD []) tag va).orElse (fun _ => l2))

/-- A cache with one more range. A full cache gives up an entry that the spec does not name: a free value. -/
def cacheAdd (l : List Range) (cap free : Nat) (r : Range) : List Range :=
  let l := l.filter (fun x => !(x.tag == r.tag && x.vaStart == r.vaStart))
  if l.length < cap then l ++ [r] else (l.eraseIdx (Config.victim free % max l.length 1)) ++ [r]

/-- A walk installs the range it finds in L2, in the L1 of the group that asked and in the L0 of the mover that asked
(R362). -/
def State.install (s : State) (mover : Option Nat) (r : Range) : State :=
  let l2 := cacheAdd s.xl.l2 (4 * s.nQueues) s.free r
  match mover with
  | none => { s with xl := { s.xl with l2 := l2 } }.useFree
  | some m =>
    let l1 := cacheAdd ((tget s.xl.l1 (m / 4)).getD []) 512 s.free r
    let l0 := cacheAdd ((tget s.xl.l0 m).getD []) 16 s.free r
    { s with xl := { s.xl with l2 := l2, l1 := tput s.xl.l1 (m / 4) l1, l0 := tput s.xl.l0 m l0 } }.useFree

/-- A lookup that hits a cache under error injection (Table 16-2, index 6): on a parity error the entry is dropped from every cache
that the lookup sees, the error counts as corrected, and the lookup is to walk again. UNIT is the group, or 12 for L2. Answers whether
the entry was dropped. -/
def State.cacheParity (s : State) (mover : Option Nat) (ctx va : Nat) : State × Bool :=
  let tag := s.tagOf ctx
  match s.cached mover tag va with
  | none => (s, false)
  | some r =>
    let near := mover.any (fun m => (cacheFind ((tget s.xl.l0 m).getD []) tag va).isSome ||
      (cacheFind ((tget s.xl.l1 (m / 4)).getD []) tag va).isSome)
    let unit := if near then (mover.getD 0) / 4 else 12
    let (s, e) := s.inject 6 unit (some ctx)
    if e = .clean then (s, false)
    else
      let cut := fun (l : List Range) => l.filter (fun x => !(x.tag == r.tag && x.covers va))
      let xl := match mover with
        | none => { s.xl with l2 := cut s.xl.l2 }
        | some m => { s.xl with l0 := tmod s.xl.l0 m cut, l1 := tmod s.xl.l1 (m / 4) cut, l2 := cut s.xl.l2 }
      (({ s with xl := xl } : State).countEcc 6 unit false, true)

/-! ### Lookup -/

/-- The outcome of a lookup: a byte that no cache and no finished walk covers, a fault by its row of Table 10-3, or the parts
of the unit (R358). -/
inductive Look
  | walk (va : Nat)
  | fault (row : Nat)
  | ok (parts : List XPart) (ranges : List Range)
deriving DecidableEq, Repr

/-- What an access needs (R350), and whether it is a stream's (R351). -/
structure Need where
  read : Bool
  write : Bool
  atomic : Bool
  stream : Bool
deriving DecidableEq, Repr

/-- The key under which the result of a walk is kept: the tag and the 4 KiB page of its byte. -/
def resultKey (tag va : Nat) : Nat := 2 ^ 52 * tag + va / 4096

/-- Whether the result of a walk tells of a byte: it was walked for its page, or it is a range that covers it. -/
def resultTells (tag va : Nat) (p : Nat × WalkResult) : Bool :=
  p.1 == resultKey tag va || (match p.2 with
    | .found r => r.tag == tag && r.covers va
    | .notPresent r => r.tag == tag && r.covers va
    | _ => false)

/-- What is known of the range over one byte: a cached range, or a result that a walk left for this requester. -/
def State.known (s : State) (mover : Option Nat) (results : List (Nat × WalkResult)) (tag va : Nat) : Option WalkResult :=
  match s.cached mover tag va with
  | some r => some (.found r)
  | none => (results.find? (resultTells tag va)).map (·.2)

/-- A range lacks a permission (row 5: R350, R351). -/
def State.lacks (s : State) (n : Need) (r : Range) : Bool :=
  (n.read && !r.readable) || (n.write && !r.writable) || (n.atomic && !r.atomic) ||
    (s.isRemote r && (n.read || !n.stream))

/-- The parts of a span that one range, or two ranges, translate (R358). -/
def State.partsOf (s : State) (va len : Nat) (a b : Range) : List XPart :=
  let chipOf := fun r => if s.isRemote r then some (Range.chip r) else none
  let n := if a = b then len else min len (a.vaStart + a.length - va)
  let p : XPart := { chip := chipOf a, pa := a.pa va, len := n }
  if n = len then [p]
  else
    let q : XPart := { chip := chipOf b, pa := b.pa (va + n), len := len - n }
    if q.chip = p.chip ∧ q.pa = p.pa + n then [{ p with len := len }] else [p, q]

/-- The lookup of a span under a tag (R356): the first row of Table 10-3 that applies, or its parts. A span of at most 4096
bytes lies in at most two ranges. The tier of a part on another chip is that of the address there (R352); where its range runs past 2^44,
which no block can carry (Table 13-2), row 7 applies (DESIGN CHOICE, log entry 111). -/
def State.look (s : State) (mover : Option Nat) (results : List (Nat × WalkResult)) (tag va len : Nat) (n : Need) : Look :=
  let last := va + len - 1
  match s.known mover results tag va, s.known mover results tag last with
  | none, _ => .walk va
  | some _, none => .walk last
  | some x, some y =>
    let xs := [x, y]
    if xs.contains .data then .fault 1
    else if xs.contains .table then .fault 2
    else if xs.contains .miss then .fault 3
    else match x, y with
      | .found a, .found b =>
        let rs := if a = b then [a] else [a, b]
        let ps := s.partsOf va len a b
        if rs.any (s.lacks n) then .fault 5
        else if (ps.length == 2 && ((ps.map XPart.chip).eraseDups).length == 2) || (n.atomic && 2 ≤ rs.length) then
          .fault 6
        else if ps.any (fun p => if p.chip.isNone then !s.spanOk p.pa p.len else 2 ^ 44 < p.pa + p.len) then .fault 7
        else if n.atomic && ps.any (fun p => tier1Base ≤ p.pa) then .fault 8
        else .ok ps rs
      | _, _ => .fault 4

/-- FAULT_MODE END of a context (R357). -/
def State.faultEnds (s : State) (ctx : Nat) : Bool := bit (s.act (rkey Reg.atCtx ctx)) 16

/-- Whether a fault of Table 10-3 halts a stream (R357): MISS under FAULT_MODE HALT, and NOT_PRESENT. -/
def State.faultHalts (s : State) (ctx row : Nat) : Bool := row == 4 || (row == 3 && !s.faultEnds ctx)

/-- The final status of a fault that does not halt (Table 10-3): DATA_CHECK for row 1, otherwise PROTECTION. -/
def faultStatus (row : Nat) : Nat := if row = 1 then 0x30 else 0x21

/-- Latches a fault of Table 10-3 in AT_FAULT_INFO and AT_FAULT_VA and sets AT_EVENT.FAULT (R360); a TABLE fault also sets
TABLE_ERROR. -/
def State.latchFault (s : State) (row obj queue ctx va : Nat) : State :=
  let s := s.setReg Reg.atFaultInfo (BitVec.ofNat 64 (2 ^ 40 * row + 2 ^ 32 * obj + 2 ^ 16 * queue + ctx))
  (s.setReg Reg.atFaultVa (BitVec.ofNat 64 (va % 2 ^ 56))).evAt 0

/-- Counts the granules of an access in the counter of each range that counts (R370), and sets the hot bit when the counter
reaches THRESHOLD (R371). -/
def State.countAccess (s : State) (rs : List Range) (va len : Nat) : State :=
  rs.foldl (fun s r =>
    if r.counted then
      let lo := max va r.vaStart
      let hi := min (va + len) (r.vaStart + r.length)
      let n := (hi - 1) / 64 + 1 - lo / 64
      let k := rkey Reg.atCntVal r.counter
      let before := s.regFld k 31 0
      let s := s.bumpSat k 31 0 n
      let t := fld (s.act Reg.atHotCfg) 63 32
      if before < t ∧ t ≤ s.regFld k 31 0 then
        let h := Reg.atHot (r.counter / 64)
        (s.setReg h (putBit (s.reg h) (r.counter % 64) true)).evAt 3
      else s
    else s) s

/-! ### Requests -/

/-- The byte span of an access is cut at 256 B boundaries of the physical address, so that each piece has one port (R575). -/
def pieceLen (pa len : Nat) : Nat := min len (256 - pa % 256)

/-- Adds a request to the outstanding accesses under a fresh identity. A request to a memory port that is being quiesced is
held until the port's addresses have moved (R540, R541). -/
def State.addReq (s : State) (r : MemReq) : State :=
  let held := match r.dest with
    | .mport p => (tget s.sup.ports p).isSome
    | _ => false
  ({ s with reqs := s.reqs ++ [{ r with id := s.ids, held := held }] }).useId

/-- A request without an owner's particulars. -/
def mkReq (dest : Dest) (pa len : Nat) (kind : Access) (owner : Owner) (master queue ctx : Nat) (tag : Option Nat)
    (lc : Bool) (data : Bytes) (enables : List Bool) : MemReq :=
  { id := 0, dest := dest, pa := pa, len := len, kind := kind, data := data, enables := enables, owner := owner,
    master := master, queue := queue, ctx := ctx, tag := tag, lc := lc, held := false, again := false, served := false, sent := false,
    unit := 0, form := { fmt := 0, round := 0, prime := 1 } }

/-- An outstanding request by identity. -/
def State.req (s : State) (i : Nat) : Option MemReq := s.reqs.find? (fun r => r.id == i)

/-- Takes a request off the outstanding accesses. -/
def State.dropReq (s : State) (i : Nat) : State := { s with reqs := s.reqs.filter (fun r => r.id != i) }

/-- The master of Table 14-1 of the control island. -/
def ctlMaster : Nat := 25

/-- Whether the bytes of a window span hold an uncorrectable word (R498). -/
def State.spanBad (s : State) (o len : Nat) : Bool := s.win.bad.any (fun a => a < o + len && o < a + 8)

/-- A read of the control island that may be answered now: a bank has served it, or it went to a memory or extension port. -/
def MemReq.answerable (r : MemReq) : Bool :=
  match r.dest with
  | .bank _ => r.served
  | _ => !r.held

/-- The data of a control-island read that has returned: what its bank read, or what the memory returned. -/
def MemReq.result (r : MemReq) (data : Bytes) : Bytes := if r.served then r.data else fitTo r.len data

/-- Whether a control-island read failed: an uncorrectable word of the bank, or an error response of the memory. -/
def MemReq.failed (r : MemReq) (err : Bool) : Bool := if r.served then r.again else err

/-! ### Walks -/

/-- The table of a tag (Table 10-8). -/
def State.tableOf (s : State) (tag : Nat) : Nat × Nat :=
  let w := s.reg (rkey Reg.atTable tag)
  (fld w 43 6 * 64, min (fld w 60 44) 65536)

/-- The walks that a stream, or a queue, has outstanding (R363). -/
def State.walksOf (s : State) (did : Option Nat) (queue : Nat) : Nat × Nat :=
  ((s.xl.walks.filter (fun w => did.isSome && w.did == did)).length,
   (s.xl.walks.filter (fun w => w.queue == queue)).length)

/-- Whether a walk for the same requester already covers an address. -/
def State.walking (s : State) (did : Option Nat) (queue tag va : Nat) : Bool :=
  s.xl.walks.any (fun w => !w.cancelled && w.did == did && (did.isSome || w.queue == queue) && w.tag == tag &&
    w.va / 4096 == va / 4096)

/-- Starts a walk, if the requester has none for the address and is within 2 walks of a stream and 4 of a queue (R363). A
table with COUNT 0 gives MISS without a read, which the caller sees as a result of the walk. -/
def State.startWalk (s : State) (did : Option Nat) (queue : Nat) (mover : Option Nat) (lc : Bool) (tag va : Nat) : State :=
  let (n, m) := s.walksOf did queue
  if s.walking did queue tag va || (did.isSome && 2 ≤ n) || 4 ≤ m then s
  else
    let (base, count) := s.tableOf tag
    let w : Walk := { id := s.ids, tag := tag, va := va, base := base, count := count, lo := 0, hi := ceilDiv count 2,
                      did := did, queue := queue, mover := mover, lc := lc, started := false, cancelled := false,
                      above := 2 ^ 56, under := 0 }
    ({ s with xl := { s.xl with walks := s.xl.walks ++ [w] } }).useId

/-- The granule that a walk reads next. -/
def Walk.granule (w : Walk) : Nat := (w.lo + w.hi) / 2

/-- Takes a walk off the list. -/
def State.dropWalk (s : State) (id : Nat) : State :=
  { s with xl := { s.xl with walks := s.xl.walks.filter (fun w => w.id != id) } }

/-- Leaves the result of a walk with its requester, which keeps it until it looks the address up again. -/
def State.giveResult (s : State) (w : Walk) (r : WalkResult) : State :=
  match w.did with
  | some did => s.onDesc did (fun d => { d with results := (resultKey w.tag w.va, r) :: d.results })
  | none =>
    { s with qmResults := tput s.qmResults w.queue ((resultKey w.tag w.va, r) :: (tget s.qmResults w.queue).getD []) }

/-- A finished walk: a present range goes into the caches, a TABLE fault sets its event, and the requester learns the result.
A cancelled walk's result is discarded (R366). -/
def State.endWalk (s : State) (w : Walk) (r : WalkResult) : State :=
  let s := s.dropWalk w.id
  if w.cancelled then s
  else
    let s := match r with
      | .found x => s.install w.mover x
      | _ => s
    s.giveResult w r

/-- Whether a granule of a range table may be read: in tier 0 or the window, and attached (R348, R362). -/
def State.granuleOk (s : State) (pa : Nat) : Bool := (inTier0 pa || inWindow pa) && (s.routePa pa).isSome

/-- One bisection step of a walk over the two entries of a granule (R362): the two entries are checked, and the walk ends
with what covers the address or goes on above or below. The `Sum` is a result, or the narrowed walk. -/
def State.bisect (s : State) (w : Walk) (g : Bytes) : WalkResult ⊕ Walk :=
  let i := w.granule
  let a := rangeAt w.tag g 0
  let b := rangeAt w.tag g 32
  let two := 2 * i + 1 < w.count
  let lastEnd := if two then b.vaStart + b.length else a.vaStart + a.length
  let bad := s.rangeBad a || (two && s.rangeBad b) || (two && b.vaStart < a.vaStart + a.length) ||
    a.vaStart < w.under || w.above < lastEnd
  let hit := fun (r : Range) => if r.present then Sum.inl (WalkResult.found r) else Sum.inl (WalkResult.notPresent r)
  if bad then .inl .table
  else if a.covers w.va then hit a
  else if two && b.covers w.va then hit b
  else if w.va < a.vaStart then
    (if w.lo < i then .inr { w with hi := i, above := a.vaStart } else .inl .miss)
  else if lastEnd ≤ w.va then
    (if i + 1 < w.hi then .inr { w with lo := i + 1, under := lastEnd } else .inl .miss)
  else .inl .miss

/-- Issues the read of a walk's next granule, in the latency-critical class (R362). A granule outside tier 0 and the window
ends the walk with TABLE. -/
def State.walkRead (s : State) (w : Walk) : State :=
  let pa := w.base + 64 * w.granule
  if w.count = 0 then s.endWalk w .miss
  else
    match s.granuleOk pa, s.routePa pa with
    | true, some dest =>
      let s := { s with xl := { s.xl with walks := s.xl.walks.map (fun (x : Walk) =>
        if x.id = w.id then { w with started := true, cancelled := x.cancelled } else x) } }
      s.addReq (mkReq dest pa 64 .read (.walk w.id) ctlMaster w.queue 0xFFFF none true [] [])
    | _, _ => (s.evAt 1).endWalk w .table

/-- The walkers (R363): 64 walks at a time, latency-critical ones first and the oldest first within a class. A
walk takes the table as it stands when it begins (R354). -/
def State.startWalkers (s : State) : State :=
  let active := (s.xl.walks.filter (·.started)).length
  let waiting := s.xl.walks.filter (fun w => !w.started)
  let order := waiting.filter (·.lc) ++ waiting.filter (fun w => !w.lc)
  (order.take (64 - active)).foldl (fun s w =>
    let (base, count) := s.tableOf w.tag
    s.walkRead { w with base := base, count := count, lo := 0, hi := ceilDiv count 2 }) s

/-! ### Invalidation -/

/-- The identities of every access and line item that was issued under a tag, or under any tag (R366). -/
def State.underTag (s : State) (tag : Option Nat) : List Nat :=
  let hits := fun (t : Option Nat) => match t, tag with
    | some x, some y => x == y
    | some _, none => true
    | none, _ => false
  (s.reqs.filter (fun r => hits r.tag)).map (·.id) ++
    s.descs.filterMap (fun d => d.wr.bind (fun u => if u.issued != 0 && hits (some u.tag) then some u.id else none)) ++
    s.fab.out.flatMap (fun p => ((p.2.items ++ p.2.waiting).filter (fun i => hits i.tag)).map (·.id))

/-- An accepted invalidation (R366): every cached entry of the tag goes, walks of the tag in progress are cancelled and the results of
finished ones dropped, and the invalidation waits for every access issued under the tag; a unit whose writing has begun keeps its
translation (R52). -/
def State.invalidate (s : State) (tag : Option Nat) : State :=
  let mine := fun (t : Nat) => tag.isNone || tag == some t
  let keep := fun (l : List Range) => l.filter (fun r => !mine r.tag)
  let xl := { s.xl with l0 := s.xl.l0.map (fun p => (p.1, keep p.2)), l1 := s.xl.l1.map (fun p => (p.1, keep p.2)),
                        l2 := keep s.xl.l2,
                        walks := s.xl.walks.map (fun w => if mine w.tag then { w with cancelled := true } else w),
                        invs := s.xl.invs ++ [{ tag := tag, waits := s.underTag tag }] }
  let again := fun (u : OutUnit) => if u.issued = 0 ∧ mine u.tag = true then { u with parts := [] } else u
  let left := fun (l : List (Nat × WalkResult)) => l.filter (fun p => !mine (p.1 / 2 ^ 52))
  let descs := s.descs.map (fun d =>
    { d with results := left d.results, wr := d.wr.map again })
  let qmr := s.qmResults.map (fun p => (p.1, left p.2))
  { s with xl := xl, descs := descs, qmResults := qmr }

/-- Whether an access or line item, or any access or item of an access unit, is still outstanding. -/
def State.isOut (s : State) (i : Nat) : Bool :=
  s.reqs.any (fun r => r.id == i || r.unit == i) || s.descs.any (fun d => d.wr.any (fun u => u.id == i)) ||
    s.fab.out.any (fun p => (p.2.items ++ p.2.waiting).any (fun x => x.id == i || x.units.contains i))

/-! ### Order of accesses -/

/-- The stream that an access belongs to, 0 where it belongs to none. -/
def Owner.stream : Owner → Nat
  | .src d _ _ _ => d
  | .dst d _ _ _ => d
  | .rmw d _ => d
  | _ => 0

/-- Whether an access belongs to a read-modify-write of the atomic stage. -/
def MemReq.atomic (r : MemReq) : Bool :=
  match r.owner with
  | .rmw _ _ => true
  | .inboundAdd _ _ => true
  | _ => false

/-- Whether two accesses touch a byte in common. -/
def MemReq.overlaps (a b : MemReq) : Bool := a.pa < b.pa + b.len && b.pa < a.pa + a.len

/-- A write to tier 2 is posted: it has reached host memory once a flush read issued after it on its port has completed (R416, R417). -/
def MemReq.posted (r : MemReq) : Bool := r.kind == .write && tier2Base ≤ r.pa

/-- Whether an access outside the window may reach its point of coherence now: the accesses of one stream to a byte do so in the order
of their issue (R419), and the atomic stage of a memory port takes the writes and read-modify-writes of one unit one at a time, in that
order (R176, R434, R436). A posted write is ordered before a later access by its port (R417). -/
def State.inTurn (s : State) (r : MemReq) : Bool :=
  !s.reqs.any (fun q => q.id < r.id && !q.posted && q.overlaps r &&
    ((q.owner.stream != 0 && q.owner.stream == r.owner.stream) || (q.kind != .read && (q.atomic || r.atomic))))

end Sys2Proof.Machine
end

