-- ==== Sys2Proof/Machine/Ops.lean ====
section
/-! DEFINITION. The shared form of a meaning: when a command is served at all, and what it never touches; and the deficit round
robin that every arbitration point uses (R283), the memory ports among them. -/

namespace Sys2Proof.Machine

/-- The outcome of a command: the next state, with the queue of waiting commands as it was. -/
def answer (s t : State) : Host.Outcome State Fault Refusal := .next { t with pending := s.pending }

/-- A command that has its effect only while no reset is in effect (R589: while a reset is in effect every output of the
block is inactive). -/
def outOfReset (f : State → State) (s : State) : Host.Outcome State Fault Refusal :=
  answer s (if s.rst.inEffect then s else f s)

/-- The block is out of reset and its mode is NORMAL: every window answers and the datapath works (R511, R554, R603). -/
def State.normal (s : State) : Bool := !s.rst.inEffect && s.kp.mode == .normal

/-- The block issues and admits: it is in normal mode, no fatal event has been detected (Table 16-5, step 2) and no abort
phase runs (R345). -/
def State.issuing (s : State) : Bool := s.normal && s.kp.fatal.isNone && !s.rst.abort

/-- A command of the datapath or of the registers outside the ID and KP windows: it has no effect unless the mode is NORMAL
(R511, R554, R603). -/
def whenNormal (f : State → State) (s : State) : Host.Outcome State Fault Refusal :=
  answer s (if s.normal then f s else s)

/-- The ports and banks serve accesses: in normal mode, and in an abort phase, which may run from a halt (R345). -/
def State.serving (s : State) : Bool := s.normal || (s.rst.abort && !s.rst.inEffect)

/-- A command by which an access goes on that has been issued. -/
def whenServing (f : State → State) (s : State) : Host.Outcome State Fault Refusal :=
  answer s (if s.serving then f s else s)

/-- A command that issues or admits work: it has no effect either once a fatal event is detected or in an abort phase. -/
def whenIssuing (f : State → State) (s : State) : Host.Outcome State Fault Refusal :=
  answer s (if s.issuing then f s else s)

/-- A fatal event (Table 16-5, step 1): the first reason and object are kept until the keeper has written its dump. Nothing raises reason
KEEPER_QUEUE: the spec gives the keeper's internal queue (R324, R335, R487) no ring, register or command (DESIGN CHOICE, log entry 116). -/
def State.raiseFatal (s : State) (reason obj : Nat) : State :=
  { s with kp := { s.kp with fatal := if s.kp.fatal.isSome || s.kp.mode == .halted then s.kp.fatal else some (reason, obj) } }

/-! ### Arbitration -/

/-- A request at an arbitration point: what it is, its queue, class, weight and the bytes of its transfer. -/
structure Cand where
  id : Nat
  queue : Nat
  lc : Bool
  weight : Nat
  bytes : Nat
deriving DecidableEq, Repr

/-- The request of each queue that stands first in a list, by queue in ascending order. -/
def candHeads : List Cand → Tab Cand → Tab Cand
  | [], t => t
  | c :: r, t => candHeads r (if (tget t c.queue).isSome then t else tput t c.queue c)

/-- Whether a queue lies strictly between two others in the cyclic order of the round. -/
def passed (last next k : Nat) : Bool := if last < next then last < k && k < next else last < k || k < next

/-- Turns of a deficit round robin over the ready queues of one class: a queue is served while its deficit covers the request
at its head, a queue gains its weight times the quantum when its turn starts, and one that is not ready at its turn has its
deficit set to zero (R283). The round visits the queues by ascending number, cyclically (DESIGN CHOICE, log entry 112). -/
def drrTurns (quantum : Nat) (cs : Tab Cand) : Nat → Nat → Tab Nat → Nat × Tab Nat × Option Cand
  | 0, last, d => (last, d, none)
  | fuel + 1, last, d =>
    match tget cs last with
    | some c =>
      if c.bytes ≤ (tget d last).getD 0 then (last, tput d last ((tget d last).getD 0 - c.bytes), some c)
      else
        match (cs.find? (fun p => last < p.1)).orElse (fun _ => cs.head?) with
        | none => (last, d, none)
        | some (n, c') =>
          let d := d.filter (fun p => !passed last n p.1)
          drrTurns quantum cs fuel n (tput d n ((tget d n).getD 0 + max c'.weight 1 * quantum))
    | none =>
      match (cs.find? (fun p => last < p.1)).orElse (fun _ => cs.head?) with
      | none => (last, d, none)
      | some (n, c') =>
        let d := (tdel d last).filter (fun p => !passed last n p.1)
        drrTurns quantum cs fuel n (tput d n ((tget d n).getD 0 + max c'.weight 1 * quantum))

/-- Serves one of the ready requests at an arbitration point: latency-critical before bulk, deficit round robin within a
class, the first listed request of a queue (R43, R283). -/
def State.arbitrate (s : State) (point quantum : Nat) (cs : List Cand) : State × Option Cand :=
  let d := (tget s.drr point).getD { lcLast := 0, bulkLast := 0, lcDeficit := [], bulkDeficit := [] }
  let lc := candHeads (cs.filter (·.lc)) []
  let heads := if lc.isEmpty then candHeads cs [] else lc
  let fuel := heads.foldl (fun n p => n + 2 + p.2.bytes / quantum) 2
  if lc.isEmpty then
    let (last, def', pick) := drrTurns quantum heads fuel d.bulkLast d.bulkDeficit
    ({ s with drr := tput s.drr point { d with bulkLast := last, bulkDeficit := def' } }, pick)
  else
    let (last, def', pick) := drrTurns quantum heads fuel d.lcLast d.lcDeficit
    ({ s with drr := tput s.drr point { d with lcLast := last, lcDeficit := def' } }, pick)

/-- Arbitration point keys: movers, compute ports, bank ports and links (Table 8-1). -/
def moverPoint (m : Nat) : Nat := m
def cportPoint (g : Nat) : Nat := 100 + g
def bankPoint (b port : Nat) : Nat := 1000 + 2 * b + port
def linkPoint (l : Nat) : Nat := 2000 + l
def mportPoint (p : Nat) : Nat := 3000 + p

/-! ### Memory ports -/

/-- A queue, ABSENT until it is created. -/
def State.queue (s : State) (q : Nat) : Queue := (tget s.queues q).getD Queue.blank

/-- The accesses that wait at a memory port, in the order in which it serves them within a queue: those of no stream, then those of the
streams in the order of their admission (R283). -/
def State.mportReqs (s : State) (p : Nat) : List MemReq :=
  let l := s.reqs.filter (fun r => r.dest == .mport p && !r.sent && !r.held)
  l.filter (fun r => !s.descs.any (fun d => d.id == r.owner.stream)) ++
    s.descs.flatMap (fun d => l.filter (fun r => r.owner.stream == d.id))

/-- An access as a request at its memory port. -/
def State.mportCand (s : State) (r : MemReq) : Cand :=
  { id := r.id, queue := r.queue, lc := r.lc, weight := (s.queue r.queue).weight, bytes := r.len }

/-- A memory port passes on the accesses that wait at it, by class and deficit round robin with a quantum of 128 B (R43, Table 8-1),
until it has passed on the one of an identity. -/
def State.mportServe (p i : Nat) : Nat → State → State
  | 0, s => s
  | n + 1, s =>
    if s.reqs.any (fun r => r.id == i && !r.sent) then
      match s.arbitrate (mportPoint p) 128 ((s.mportReqs p).map s.mportCand) with
      | (s, none) => s
      | (s, some c) =>
        mportServe p i n { s with reqs := s.reqs.map (fun r => if r.id = c.id then { r with sent := true } else r) }
    else s

/-- An access that is answered outside the window has been passed on by its memory port (R283). -/
def State.passOn (s : State) (r : MemReq) : State :=
  match r.dest with
  | .mport p => State.mportServe p r.id (s.reqs.length + 1) s
  | _ => s

end Sys2Proof.Machine
end

