-- ==== Sys2Proof/Machine/Flags.lean ====
section
/-! DEFINITION. The status that the block computes from its state (CF_STAT, KP_BOOT, the queue, lens, lift, bank, line and link status
registers), and which instance of a register an access reaches. -/

namespace Sys2Proof.Machine

/-- A 64-bit word from a number. -/
def word (n : Nat) : Word := BitVec.ofNat 64 n

/-! ### Configuration and keeper -/

/-- CF_STAT.PHASE. -/
def phaseCode : CommitPhase → Nat
  | .idle => 0
  | .checking => 1
  | .prepare => 2
  | .switch => 3
  | .retire => 4

/-- CF_STAT (Table 15-14). -/
def State.cfStat (s : State) : Word :=
  word (2 ^ 32 * s.commit.epoch + 2 ^ 16 * min (s.descs.filter s.isOld).length 0xFFFF + 2 ^ 8 * s.commit.result +
    phaseCode s.commit.phase)

/-- KP_BOOT.MODE. -/
def modeCode : KpMode → Nat
  | .booting => 0
  | .normal => 1
  | .keeperOnly => 2
  | .halted => 3

/-- KP_BOOT (Table 15-27). -/
def State.kpBoot (s : State) : Word :=
  word (2 ^ 48 * s.kp.epoch + 2 ^ 24 * (s.kp.bootUs % 2 ^ 24) + 2 ^ 16 * s.kp.reason + 2 ^ 8 * s.kp.source + modeCode s.kp.mode)

/-- KP_LIST (Table 15-28): SEQUENCE and LENGTH of the list in force. -/
def State.kpList (s : State) : Word := word (2 ^ 32 * leAt s.kp.list 16 4 + leAt s.kp.list 8 4 % 2 ^ 23)

/-- The bytes of a log record before its CRC (Table 15-10). -/
def LogRec.body (r : LogRec) : Bytes :=
  leBytes 2 r.epoch ++ leBytes 1 r.kind ++ leBytes 1 r.origin ++ leBytes 4 r.seq ++ leBytes 8 r.cycles ++
    leBytes 2 r.context ++ zeros 2 ++ leBytes 4 r.object ++ leBytes 8 r.old.toNat ++ leBytes 8 r.new.toNat ++
    fitTo 20 r.detail

/-- A log record of 64 bytes, with its CRC. -/
def LogRec.bytes (r : LogRec) : Bytes := r.body ++ leBytes 4 (crc32c r.body)

/-- The record that KP_LOG_SEL selects, if the ring holds it. -/
def State.selLog (s : State) : Option LogRec :=
  s.kp.log.find? (fun r => r.epoch == s.regFld Reg.kpLogSel 47 32 && r.seq == s.regFld Reg.kpLogSel 31 0)

/-! ### Queues and streams -/

/-- A stream that is halted, or on its way into or out of the halt with no slot (R327, Table 9-21). -/
def Desc.isHalted (d : Desc) : Bool := d.phase == .halted || d.phase == .resuming

/-- The descriptors of a queue in execution or admitted. -/
def State.descsOf (s : State) (q : Nat) : List Desc := s.descs.filter (fun d => d.queue == q)

/-- The entries a queue owns: from the consumer index to the highest accepted producer index (R313). -/
def Queue.owned (q : Queue) : Nat := (q.pr + 2 ^ 32 - q.cons) % 2 ^ 32

/-- QM_STAT.STATE. -/
def stateCode : QState → Nat
  | .absent => 0
  | .disabled => 1
  | .enabled => 2
  | .error => 3

/-- QM_STAT[q] (Table 9-21). Queue 0 shows ENABLE, which is 0 while the last read of its index block is out. -/
def State.qmStat (s : State) (q : Nat) : Word :=
  let x := s.queue q
  let ds := s.descsOf q
  let streams := (ds.filter (fun d => d.mover.isSome || d.isHalted)).length
  word (2 ^ 32 * x.cons + 2 ^ 16 * min x.owned 0xFFFF + 2 ^ 8 * min streams 0xFF + b2n (ds.any Desc.isHalted) * 16 +
    b2n x.idle * 8 + (if q = 0 ∧ x.lastRead = true then 1 else stateCode x.state))

/-- QM_QRING to QM_QERR of a queue that is not ABSENT (Tables 9-17 to 9-19). -/
def Queue.ringReg (q : Queue) : Word := word (2 ^ 56 * q.log2 + q.ring % 2 ^ 56)
def Queue.bindReg (q : Queue) : Word :=
  word (2 ^ 56 * b2n q.eventEn + 2 ^ 48 * q.eventFq + 2 ^ 32 * q.limit + 2 ^ 24 * q.weight + 2 ^ 17 * b2n q.stopMode +
    2 ^ 16 * b2n q.bulk + 2 ^ 12 * q.group + q.ctx)
def Queue.errReg (q : Queue) : Word := word (2 ^ 32 * q.errIndex + 2 ^ 8 * q.errStatus + q.errReason)

/-- The reads of 128 B that a stream has in flight (R284). -/
def State.readsOut (s : State) (did : Nat) : Nat :=
  ((s.reqs.filter (fun r => r.kind == .read &&
    (match r.owner with
     | .src d _ _ _ => d == did
     | _ => false))).map (fun r => ceilDiv r.len 128)).sum

/-- The streams that occupy a slot of a mover. -/
def State.onMover (s : State) (m : Nat) : List Desc := s.descs.filter (fun d => d.mover == some m)

/-- The descriptors of a group's queues. -/
def State.inGroup (s : State) (g : Nat) : List Desc := s.descs.filter (fun d => (s.queue d.queue).group == g)

/-- The capacity of a lens in KiB (Table 5-6). -/
def State.lensKib (s : State) : Nat := (gradeRow s.grade).lensKib

/-- The staging that a group's streams hold, in KiB. -/
def State.stagedKib (s : State) (g : Nat) : Nat := (((s.inGroup g).filter (·.staged)).map (·.stagingKib)).sum

/-- LN_STAT[g] (Table 5-6). -/
def State.lnStat (s : State) (g : Nat) : Word :=
  let ds := s.inGroup g
  word (2 ^ 40 * (ds.filter (·.stagingWait)).length + 2 ^ 32 * (ds.filter (fun d => d.staged && d.isHalted)).length +
    2 ^ 24 * (ds.filter (fun d => d.staged && !d.isHalted)).length + (s.lensKib - s.stagedKib g))

/-- The index of a core record whose core has returned to the pool: only its buffered tiles remain (R225). -/
def coreGone : Nat := 255

/-- The index of a core record whose core went back to the pool before its limb was complete: its place stays (R231). -/
def coreLost : Nat := 254

/-- The cores that a stream holds. -/
def Desc.held (d : Desc) : List Core := d.cores.filter (fun c => c.index < coreLost)

/-- The cores that a group's streams hold. -/
def State.coresHeld (s : State) (g : Nat) : Nat := ((s.inGroup g).map (fun d => d.held.length)).sum

/-- The streams that hold a slot of a lift unit. -/
def State.onLift (s : State) (u : Nat) : List Desc := s.descs.filter (fun d => d.liftSlot == some u)

/-- The streams that wait for a slot of a lift unit. -/
def State.awaitLift (s : State) (u : Nat) : List Desc :=
  s.descs.filter (fun d => d.liftWait && (d.geo.liftUnit == u || (d.geo.liftUnit == 0xFF && s.hasLift u)))

/-- LF_STAT[u] (Table 7-12). -/
def State.lfStat (s : State) (u : Nat) : Word :=
  let bulk := fun (d : Desc) => (s.queue d.queue).bulk
  word (2 ^ 24 * ((s.onLift u).filter bulk).length + 2 ^ 16 * ((s.awaitLift u).filter bulk).length +
    2 ^ 8 * ((s.awaitLift u).filter (fun d => !bulk d)).length + (s.onLift u).length)

/-! ### Sync unit, banks, fabric, test -/

/-- The buoy that a copy of BY_SEL selects: PHYS counts in the host copy only (Table 11-8). -/
def State.selBuoy (s : State) (copy : Nat) : Option Nat :=
  let w := s.reg (rkey Reg.bySel copy)
  if copy = 0 ∧ bit w 63 then (if fld w 47 32 < s.nBuoys then some (fld w 47 32) else none)
  else s.physOf (fld w 9 0) (fld w 27 16)

/-- BY_VAL (Table 11-9), under the authority of R397. -/
def State.byVal (s : State) (p : Port) : Word :=
  let w := s.reg (rkey Reg.bySel (copyOf p))
  if !s.mayAct p (fld w 9 0) then 0
  else match s.selBuoy (copyOf p) with
    | none => 0
    | some b =>
      let x := s.buoy b
      word (2 ^ 34 * b2n x.poison + 2 ^ 33 + 2 ^ 32 * b2n x.sat + x.value)

/-- Whether a port reaches a flash queue: a compute port only one whose owner it may act for (R406). -/
def State.fqReach (s : State) (p : Port) (f : Nat) : Bool := s.mayAct p (fld (s.act (rkey Reg.fqCfg f)) 9 0)

/-- The watches that a context has armed. -/
def State.watchCount (s : State) (c : Nat) : Nat := (s.sync.watches.filter (fun p => p.2.ctx == c)).length

/-- FQ_POOL (Table 11-31). -/
def State.fqPool (s : State) : Word :=
  let sum := ((List.range 256).map (fun f =>
    let w := s.act (rkey Reg.fqCfg f)
    if bit w 63 then fld w 30 16 else 0)).sum
  word (2 ^ 16 * sum + s.poolFree)

/-- WB_PAIR_STAT.STATE. -/
def pairCode : PairState → Nat
  | .off => 0
  | .on => 1
  | .retention => 2
  | .waking => 3

/-- FB_LINK_STAT.STATE. -/
def linkCode : LinkState → Nat
  | .down => 0
  | .training => 1
  | .up => 2
  | .isolated => 3
  | .failed => 4

/-- The fields of FB_LINK_STAT[l] that the block sets (Table 13-18). -/
def State.linkStat (s : State) (l : Nat) : Word :=
  let k := s.link l
  word (2 ^ 59 * linkCode k.state + 2 ^ 56 * k.cause + 2 ^ 39 * b2n k.nbrValid + 2 ^ 32 * (k.nbrLink % 128) + k.nbrChip % 2 ^ 20)

/-- The UP links of a link set of the active configuration. A retired or failed link belongs to none. -/
def State.upLinks (s : State) (set' : Nat) : List Nat :=
  (linkSetOf s s.cfg.active set').filter (fun l => s.hasLink l && (s.link l).state == .up)

/-- ON_ALT of a route entry (R459): its primary set holds no UP link and its alternate set does. -/
def State.onAlt (s : State) (off : Nat) : Bool :=
  let v := s.act off
  bit v 63 && bit v 62 && (s.upLinks (fld v 5 0)).isEmpty && !(s.upLinks (fld v 13 8)).isEmpty

/-- FB_LINES (Table 13-14). -/
def State.fbLines (s : State) : Word :=
  word (2 ^ 48 * s.regFld Reg.fbLines 63 48 + 2 ^ 32 * ((s.fab.inb.filter (fun p => p.2.opened)).length % 2 ^ 15) +
    2 ^ 16 * (s.fab.out.length % 2 ^ 13) + s.fab.reorderPeak % 2 ^ 10)

/-- TP_LOCK.LOCKED (R547). -/
def State.tpIsLocked (s : State) : Bool := s.sup.tpLocked || s.die.fuses.tpFused

/-! ### Selection -/

/-- The offset of a lift-page register with the block-wide codebook registers brought to page 0 (Tables 7-16 to 7-18). -/
def normOff (off : Nat) : Nat :=
  if 0x200000 ≤ off ∧ off < 0x210000 ∧ 0xF00 ≤ off % 0x1000 then 0x200000 + off % 0x1000 else off

/-- The key of the instance that an access through a port reaches, or none where a selector is out of range: such a register
reads zero and ignores writes (R528). -/
def State.keyOf (s : State) (p : Port) (off : Nat) : Option Nat :=
  let pick := fun (sel lim : Nat) => if sel < lim then some (rkey off sel) else none
  let cf := s.regFld Reg.cfCtxSel 9 0
  if off ∈ [Reg.bySel, Reg.byVal, Reg.byArmLo, Reg.byArmHi, Reg.byDisarm, Reg.byArmRes, Reg.bySignal] then
    some (rkey off (copyOf p))
  else if off = Reg.cfCtxRing then pick cf s.nContexts
  else if off ∈ [Reg.cfPrimeQ, Reg.cfPrimePsi, Reg.cfPrimeMu] then
    (if cf < s.nContexts then some (rkey off cf (s.regFld Reg.cfPrimeSel 6 0)) else none)
  else if off = Reg.cfImgCtrl then
    (if s.isImage (s.regFld Reg.cfImgSel 7 0) then some (rkey off (s.regFld Reg.cfImgSel 7 0)) else none)
  else if off = Reg.atCtx then pick (s.regFld Reg.atSel 9 0) s.nContexts
  else if off = Reg.atTable then pick (s.regFld Reg.atSel 27 16) s.nContexts
  else if off = Reg.atCntVal then pick (s.regFld Reg.atSel 43 32) s.nQueues
  else if off ∈ [Reg.byCtxMap, Reg.byCtxStat] then pick (s.regFld Reg.byCtxSel 9 0) s.nContexts
  else if off ∈ [Reg.fqCfg, Reg.fqStat, Reg.fqSeq, Reg.fqCnt] then some (rkey off (s.regFld Reg.fqSel 7 0))
  else if off ∈ [Reg.lfCbCtrl, Reg.lfCbLevel 0, Reg.lfCbLevel 1, Reg.lfCbLevel 2, Reg.lfCbLevel 3] then
    pick (s.regFld Reg.lfCbCtx 9 0) s.nContexts
  else if off ∈ [Reg.qmQring, Reg.qmQbind, Reg.qmQerr, Reg.qmQcnt] then
    (if (s.queue (s.regFld Reg.qmQsel 11 0)).state = .absent then none else pick (s.regFld Reg.qmQsel 11 0) s.nQueues)
  else some (rkey off 0)

/-- A register of a unit that is absent in the fuse map or beyond the as-built counts reads zero and ignores writes (R602).
Retired units keep theirs. -/
def State.absentReg (s : State) (off : Nat) : Bool :=
  if 0x100000 ≤ off ∧ off < 0x1C0000 then
    let g := (off - 0x100000) / 0x10000
    let r := off % 0x10000
    !s.groupFuse g || (0x100 ≤ r && r < 0x120 && !s.moverFuse (4 * g + (r - 0x100) / 8)) ||
      (0xA000 ≤ r && r < 0xB000 && !s.expFuse g)
  else if 0x200000 ≤ off ∧ off < 0x210000 then off % 0x1000 < 0xF00 && !s.liftFuse ((off - 0x200000) / 0x1000)
  else if 0x087000 ≤ off ∧ off < 0x087300 then !s.linkFuse ((off - 0x087000) / 8)
  else if 0x087400 ≤ off ∧ off < 0x087700 then !s.linkFuse ((off - 0x087400) / 8)
  else if 0x210000 ≤ off ∧ off < 0x210200 then !s.bankFuse ((off - 0x210000) / 8)
  else if 0x038000 ≤ off ∧ off < 0x040000 then s.nQueues ≤ (off - 0x038000) / 8
  else if 0x050400 ≤ off ∧ off < 0x050700 then s.virtBuoys || s.nBuoys ≤ (off - 0x050400) / 8
  else false

/-- Whether a port is a compute port. -/
def fromCompute : Port → Bool
  | .compute _ => true
  | _ => false

/-- Whether a compute port reaches a register (R512, R572): the banked BY registers and FQ_CTRL. -/
def computeMay (off : Nat) : Bool :=
  [Reg.bySel, Reg.byVal, Reg.bySet, Reg.byArmLo, Reg.byArmHi, Reg.byDisarm, Reg.byArmRes, Reg.bySignal].contains off ||
    isInst off (Reg.fqCtrl 0) 8 256

end Sys2Proof.Machine
end

