-- ==== Sys2Proof/Machine/Formats.lean ====
section
/-! DEFINITION. Element formats and access units (Table 2-1, R48 to R57), casts (R151 to R158) and the additions of the
atomic stage (R173 to R175), over exact integers. -/

namespace Sys2Proof.Machine

/-! ### Formats -/

/-- A format code that Table 2-1 does not reserve. -/
def fmtOk (f : Nat) : Bool := f < 14

/-- Bits of an element of a format. -/
def elemBits (f : Nat) : Nat :=
  match f with
  | 0 | 1 => 8
  | 2 | 3 | 8 | 9 => 16
  | 4 | 5 | 10 | 13 => 32
  | 6 | 7 => 64
  | 11 => 36
  | _ => 4

/-- Bytes of an access unit. -/
def unitBytes (f : Nat) : Nat := if f = 11 then 576 else if f = 12 then 1088 else 64

/-- Elements in an access unit. -/
def epu (f : Nat) : Nat := if f = 11 then 128 else if f = 12 then 2048 else 512 / elemBits f

/-- Whether a format is byte-aligned. -/
def byteFmt (f : Nat) : Bool := f != 11 && f != 12

/-- The integer formats u8 to s64 and ix32. -/
def intFmt (f : Nat) : Bool := f ≤ 7 || f == 13

/-- The float formats. -/
def fltFmt (f : Nat) : Bool := f == 8 || f == 9 || f == 10

/-- Signed integer formats; ix32 counts as s32. -/
def sgnFmt (f : Nat) : Bool := f == 1 || f == 3 || f == 5 || f == 7 || f == 13

/-- The element at a position of an access unit of a byte-aligned format or of a tile (R48, R51). -/
def elemAt (f : Nat) (u : Bytes) (pos : Nat) : Nat :=
  let b := elemBits f * pos
  leAt u (b / 8) 9 / 2 ^ (b % 8) % 2 ^ elemBits f

/-- An access unit from its elements in order (R48, R51). -/
def packUnit (f : Nat) (vals : List Nat) : Bytes :=
  leBytes (unitBytes f) (vals.foldr (fun v acc => v % 2 ^ elemBits f + acc * 2 ^ elemBits f) 0)

/-- Code `i` of sub-block `s` of a lift block, and the scale word of the sub-block (R55, R56). -/
def codeAt (u : Bytes) (s i : Nat) : Nat :=
  let b := ((u.drop (64 + 64 * s + i / 2)).head?.getD 0).toNat
  if i % 2 = 0 then b % 16 else b / 16
def scaleAt (u : Bytes) (s : Nat) : Nat := leAt u (4 * s) 4

/-! ### Integers -/

/-- The integer that the bits of an integer format stand for. -/
def toInt (f v : Nat) : Int := if sgnFmt f then sgn (elemBits f) v else ((v % 2 ^ elemBits f : Nat) : Int)

/-- The least and the greatest integer of a format. -/
def intMin (f : Nat) : Int := if sgnFmt f then -((2 ^ (elemBits f - 1) : Nat) : Int) else 0
def intMax (f : Nat) : Int := if sgnFmt f then ((2 ^ (elemBits f - 1) : Nat) : Int) - 1 else ((2 ^ elemBits f : Nat) : Int) - 1

/-- An integer in a format, saturated, and whether it saturated (R152). -/
def satInt (f : Nat) (i : Int) : Nat × Bool :=
  if i < intMin f then (unsgn (elemBits f) (intMin f), true)
  else if intMax f < i then (unsgn (elemBits f) (intMax f), true)
  else (unsgn (elemBits f) i, false)

/-! ### Floats -/

/-- Exponent and fraction bits of a float format (R49). -/
def expBits (f : Nat) : Nat := if f = 8 then 5 else 8
def fracBits (f : Nat) : Nat := if f = 8 then 10 else if f = 9 then 7 else 23
def bias (f : Nat) : Nat := 2 ^ (expBits f - 1) - 1

/-- Fields of a float. -/
def fSign (f v : Nat) : Bool := v.testBit (elemBits f - 1)
def fExp (f v : Nat) : Nat := v / 2 ^ fracBits f % 2 ^ expBits f
def fFrac (f v : Nat) : Nat := v % 2 ^ fracBits f
def isNan (f v : Nat) : Bool := fExp f v == 2 ^ expBits f - 1 && fFrac f v != 0
def isInf (f v : Nat) : Bool := fExp f v == 2 ^ expBits f - 1 && fFrac f v == 0

/-- The magnitude of a finite float as m × 2^e. -/
def fMag (f v : Nat) : Nat × Int :=
  let e0 : Int := 1 - (bias f : Int) - (fracBits f : Int)
  if fExp f v = 0 then (fFrac f v, e0) else (2 ^ fracBits f + fFrac f v, e0 + (fExp f v : Int) - 1)

/-- A float from its fields. -/
def mkFlt (f : Nat) (neg : Bool) (e fr : Nat) : Nat :=
  b2n neg * 2 ^ (elemBits f - 1) + e * 2 ^ fracBits f + fr % 2 ^ fracBits f

/-- Infinity of a sign. -/
def fInf (f : Nat) (neg : Bool) : Nat := mkFlt f neg (2 ^ expBits f - 1) 0

/-- The default quiet NaN of R175. -/
def fNan (f : Nat) : Nat := mkFlt f false (2 ^ expBits f - 1) (2 ^ (fracBits f - 1))

/-- A NaN with its quiet bit set. -/
def quiet (f v : Nat) : Nat := v ||| 2 ^ (fracBits f - 1)

/-- m × 2^e divided by 2^q, rounded under ROUND: 0 to nearest with ties to even, otherwise toward zero. -/
def roundTo (m : Nat) (e q : Int) (round : Nat) : Nat :=
  if q ≤ e then m * 2 ^ (e - q).toNat
  else
    let d := 2 ^ (q - e).toNat
    let n := m / d
    let r := m % d
    if round = 0 ∧ (d < 2 * r ∨ (2 * r = d ∧ n % 2 = 1)) then n + 1 else n

/-- The float of a format nearest to ±m × 2^e under ROUND, and whether it overflowed (R154, R155). -/
def encodeFlt (f round : Nat) (neg : Bool) (m : Nat) (e : Int) : Nat × Bool :=
  if m = 0 then (mkFlt f neg 0 0, false)
  else
    let qmin : Int := 1 - (bias f : Int) - (fracBits f : Int)
    let q := max ((Nat.log2 m : Int) + e - (fracBits f : Int)) qmin
    let n := roundTo m e q round
    if n < 2 ^ fracBits f then (mkFlt f neg 0 n, false)
    else
      let (n, q) := if n = 2 ^ (fracBits f + 1) then (2 ^ fracBits f, q + 1) else (n, q)
      let ex := (q - qmin + 1).toNat
      if 2 ^ expBits f - 1 ≤ ex then
        (if round = 0 then fInf f neg else mkFlt f neg (2 ^ expBits f - 2) (2 ^ fracBits f - 1), true)
      else (mkFlt f neg ex (n - 2 ^ fracBits f), false)

/-! ### Casts -/

/-- Whether Table 4-3 allows a cast. -/
def castOk (a b : Nat) : Bool :=
  a == b || (intFmt a && (intFmt b || fltFmt b)) || (fltFmt a && (intFmt b || fltFmt b)) ||
    (a == 6 && b == 11) || (a == 11 && b == 6)

/-- What a cast counts (R158). -/
inductive CastNote
  | none
  | saturated
  | nanToInt
deriving DecidableEq, Repr

/-- The cast of Table 4-3 of one element, and what it counts. -/
def cast (a b round v : Nat) : Nat × CastNote :=
  let flag := fun (x : Nat × Bool) => (x.1, if x.2 then CastNote.saturated else CastNote.none)
  if a = b then (v, .none)
  else if a = 11 then (v, .none)
  else if b = 11 then (if v < 2 ^ 36 then (v, .none) else (2 ^ 36 - 1, .saturated))
  else if intFmt a ∧ intFmt b then flag (satInt b (toInt a v))
  else if intFmt a then flag (encodeFlt b round (decide (toInt a v < 0)) (toInt a v).natAbs 0)
  else if intFmt b then
    (if isNan a v then (0, .nanToInt)
     else if isInf a v then
       flag (unsgn (elemBits b) (if fSign a v then intMin b else intMax b), true)
     else
       let (m, e) := fMag a v
       let n : Int := roundTo m e 0 round
       flag (satInt b (if fSign a v then -n else n)))
  else if isNan a v then
    let fr := if fracBits a ≤ fracBits b then fFrac a v * 2 ^ (fracBits b - fracBits a)
              else fFrac a v / 2 ^ (fracBits a - fracBits b)
    (quiet b (mkFlt b (fSign a v) (2 ^ expBits b - 1) fr), .none)
  else if isInf a v then (fInf b (fSign a v), .none)
  else
    let (m, e) := fMag a v
    flag (encodeFlt b round (fSign a v) m e)

/-! ### Additions of the atomic stage -/

/-- Whether SCATTER_ADD accepts a destination format (R172). -/
def addFmt (f : Nat) : Bool := f == 4 || f == 5 || f == 6 || f == 7 || fltFmt f || f == 11

/-- The IEEE 754 sum of a destination and a source element (R175). -/
def addFlt (f round d a : Nat) : Nat :=
  if isNan f d then quiet f d
  else if isNan f a then quiet f a
  else if isInf f d then (if isInf f a && fSign f d != fSign f a then fNan f else d)
  else if isInf f a then a
  else
    let (m1, e1) := fMag f d
    let (m2, e2) := fMag f a
    let e := min e1 e2
    let x : Int := (m1 * 2 ^ (e1 - e).toNat : Nat)
    let y : Int := (m2 * 2 ^ (e2 - e).toNat : Nat)
    let s := (if fSign f d then -x else x) + (if fSign f a then -y else y)
    if s = 0 then mkFlt f (fSign f d && fSign f a) 0 0
    else (encodeFlt f round (decide (s < 0)) s.natAbs e).1

/-- A residue brought below its prime, and whether it was replaced (R54). -/
def canon (q x : Nat) : Nat × Nat := if q ≤ x then (x - q, 1) else (x, 0)

/-- add_mod of R173, and the residues replaced. -/
def addMod (q d a : Nat) : Nat × Nat :=
  let (d, i) := canon q d
  let (a, j) := canon q a
  (if q ≤ d + a then d + a - q else d + a, i + j)

/-- The sum of a destination and a source element in a format, and the residues replaced (R173 to R175). -/
def addElem (f round q d a : Nat) : Nat × Nat :=
  if f = 11 then addMod q d a
  else if fltFmt f then (addFlt f round d a, 0)
  else ((d + a) % 2 ^ elemBits f, 0)

/-- The sum of a unit at the atomic stage: the elements of `new` whose bytes are enabled are added to those of `old`. -/
def addUnit (f round q : Nat) (old new : Bytes) (enables : List Bool) : Bytes × Nat :=
  let sums := (List.range (epu f)).map (fun i =>
    let on := if f = 11 then true else enables.getD (i * (elemBits f / 8)) false
    if on then addElem f round q (elemAt f old i) (elemAt f new i) else (elemAt f old i, 0))
  (packUnit f (sums.map (·.1)), (sums.map (·.2)).sum)

end Sys2Proof.Machine
end

