-- ==== Sys2Proof/Machine/Operands.lean ====
section
/-! DEFINITION. The operand forms of the descriptors: the fields of Tables 3-2 to 3-23, parameter references (R117), the
fetch-time checks of R129, the checks at begin of R130, the shape-and-stride model (R63 to R71), the stages of Table 4-1, and
the Galois and bit-reversal maps (R187, R188, R190). -/

namespace Sys2Proof.Machine

/-! ### Fields of entries -/

/-- Entry `i` of a chain. -/
def ent (es : List Bytes) (i : Nat) : Bytes := es.getD i []

/-- The opcode of a chain. -/
def opcodeOf (es : List Bytes) : Nat := leAt (ent es 0) 0 1

/-- The header word of an entry. -/
def headOf (e : Bytes) : Nat := leAt e 0 8

/-- Fields of a header (Table 3-3). -/
def hPref (h : Nat) : Nat := nfld h 63 48
def hTag (h : Nat) : Nat := nfld h 47 32
def hRelease (h : Nat) : Bool := nbit h 17
def hPredEn (h : Nat) : Bool := nbit h 16
def hPhase (h : Nat) : Nat := nfld h 15 15
def hDepMark (h : Nat) : Bool := nbit h 14
def hLen (h : Nat) : Nat := nfld h 13 12
def hPos (h : Nat) : Nat := nfld h 11 10
def hLast (h : Nat) : Bool := nbit h 9
def hFirst (h : Nat) : Bool := nbit h 8

/-- Wait word `w` and signal word `k` of a FIRST entry (Table 3-4). -/
def waitWord (e : Bytes) (w : Nat) : Nat := leAt e (16 + 8 * w) 8
def sigWord (e : Bytes) (k : Nat) : Nat := leAt e (48 + 8 * k) 8

/-- Fields of a SIG word (Table 3-7). -/
def sgRemote (w : Nat) : Bool := nbit w 54
def sgRelease (w : Nat) : Bool := nbit w 53
def sgDim (w : Nat) : Nat := nfld w 52 50
def sgTiming (w : Nat) : Nat := nfld w 49 48
def sgAmount (w : Nat) : Nat := nfld w 47 16
def sgEn (w : Nat) : Bool := nbit w 15
def sgOp (w : Nat) : Nat := nfld w 14 12
def sgBuoy (w : Nat) : Nat := nfld w 11 0

/-- Entries that an opcode takes (Table 3-1). -/
def entriesOf (op : Nat) : Nat :=
  if op = 8 then 4 else if 2 ≤ op ∧ op ≤ 9 then 3 else if op = 1 then 2 else 1

/-- The opcodes that move data. -/
def isData (op : Nat) : Bool := 1 ≤ op && op ≤ 9

/-- A descriptor that runs as a stream: a data opcode, or a SIGNAL with REMOTE_EN (R101, R102). -/
def isStream (es : List Bytes) : Bool :=
  isData (opcodeOf es) || (opcodeOf es == 0x0A && nbit (leAt (ent es 0) 64 4) 31)

/-! ### Fetch-time checks -/

/-- Whether bytes `i` to `j - 1` of an entry are zero. -/
def zeroBytes (e : Bytes) (i j : Nat) : Bool := leAt e i (j - i) == 0

/-- The byte offset, entry and width of the field of each PREF bit (Table 3-17), where the opcode uses it. -/
def prefField (op bit : Nat) : Option (Nat × Nat × Nat) :=
  if isData op then
    (if bit = 0 then some (0, 64, 8) else if bit = 1 then some (0, 72, 8)
     else if 2 ≤ bit ∧ bit ≤ 6 then some (0, 80 + 4 * (bit - 2), 4)
     else if 7 ≤ bit ∧ bit ≤ 11 then some (0, 100 + 4 * (bit - 7), 4)
     else if bit = 12 ∧ 2 ≤ op ∧ (op ≤ 4 ∨ op = 7) then some (2, 24, 8)
     else if bit = 12 ∧ op = 8 then some (3, 24, 8)
     else if bit = 12 ∧ op = 9 then some (2, 24, 8)
     else if bit = 13 ∧ 2 ≤ op ∧ op ≤ 4 then some (2, 16, 4)
     else none)
  else if op = 0x0E then (if bit = 14 then some (0, 64, 8) else if bit = 15 then some (0, 76, 4) else none)
  else none

/-- Failures that the fetch finds (R84, R116, R129), as 128 × chain position + byte offset. REMOTE 1 in a SIG word whose EN is 0 is ignored by
R84, under REMOTE_EN too, where R102 speaks of either SIG word (DESIGN CHOICE, log entry 113). -/
def fetchFails (es : List Bytes) : List Nat :=
  let op := opcodeOf es
  let e0 := ent es 0
  let h := headOf e0
  let bad := fun (c : Bool) (k : Nat) => if c then [k] else []
  if 0x10 ≤ op then [0]
  else if es.length ≠ entriesOf op then [0]
  else
    bad (nfld h 31 18 != 0 || (hRelease h && op != 0x0C)) 0 ++
    (List.range 16).flatMap (fun i =>
      if (hPref h).testBit i then
        (match prefField op i with
         | none => [0]
         | some (p, o, _) => bad (nfld (leAt (ent es p) o 1) 7 6 != 0) (128 * p + o))
      else []) ++
    (List.range (es.length - 1)).flatMap (fun i =>
      let e := ent es (i + 1)
      let x := headOf e
      bad (hPref x != 0 || hTag x != 0 || nfld x 31 16 != 0 || hDepMark x) (128 * (i + 1)) ++
        bad (!zeroBytes e 8 16) (128 * (i + 1) + 8)) ++
    bad (nbit (leAt e0 8 8) 15 || (hPredEn h && 3 < nfld (leAt e0 8 8) 14 12)) 8 ++
    (List.range 4).flatMap (fun w =>
      let x := waitWord e0 w
      bad (nfld x 63 48 != 0 || (nbit x 15 && 4 < nfld x 14 12)) (16 + 8 * w)) ++
    (List.range 2).flatMap (fun k =>
      let x := sigWord e0 k
      bad (nfld x 63 55 != 0 || (sgEn x && (1 < sgOp x || 1 < sgTiming x || (sgTiming x == 1 && 4 < sgDim x) ||
        (sgTiming x == 0 && sgDim x != 0) || (sgRemote x && !isData op)))) (48 + 8 * k)) ++
    (if isData op then
      let e1 := ent es 1
      bad (nfld (leAt e0 120 8) 63 58 != 0) 120 ++
      (List.range 5).flatMap (fun k => bad (leAt e1 (16 + 8 * k + 7) 1 != 0) (128 + 16 + 8 * k) ++
        bad (leAt e1 (56 + 8 * k + 7) 1 != 0) (128 + 56 + 8 * k)) ++
      bad (nfld (leAt e1 116 4) 31 25 != 0) (128 + 116) ++
      bad (let f := nfld (leAt e0 120 8) 7 4
           fmtOk f && elemBits f < 64 && leAt e1 120 8 / 2 ^ elemBits f != 0) (128 + 120)
     else []) ++
    (if 2 ≤ op ∧ op ≤ 4 then
      bad (!zeroBytes (ent es 2) 22 24) (256 + 22) ++ bad (!zeroBytes (ent es 2) 32 128) (256 + 32)
     else if 5 ≤ op ∧ op ≤ 8 then
      let e2 := ent es 2
      bad (op != 5 && !zeroBytes e2 16 20) (256 + 16) ++ bad (4 ≤ leAt e2 20 1) (256 + 20) ++
        bad (op != 7 && !zeroBytes e2 21 22) (256 + 21) ++ bad (op != 7 && !zeroBytes e2 22 24) (256 + 22) ++
        bad (op != 7 && !zeroBytes e2 24 32) (256 + 24)
     else []) ++
    (if op = 8 ∨ op = 9 then
      let p := if op = 8 then 3 else 2
      let e := ent es p
      bad (8 ≤ leAt e 17 1 || (op == 8 && nbit (leAt e 17 1) 1)) (128 * p + 17) ++
        bad (op == 9 && !zeroBytes e 18 19) (128 * p + 18) ++ bad (!zeroBytes e 19 24) (128 * p + 19) ++
        bad (op == 9 && !zeroBytes e 32 40) (128 * p + 32) ++ bad (op == 9 && !zeroBytes e 40 48) (128 * p + 40) ++
        bad (!zeroBytes e 48 128) (128 * p + 48)
     else if op = 0x0A then
      bad (nfld (leAt e0 64 4) 30 20 != 0) 64 ++ bad (!zeroBytes e0 68 128) 68
     else if op = 0x0D then
      bad (!zeroBytes e0 67 72) 67 ++
        (List.range 7).flatMap (fun i => bad (leAt e0 65 1 ≤ i && !zeroBytes e0 (72 + 8 * i) (80 + 8 * i)) (72 + 8 * i))
     else if op = 0x0E then
      (List.range 4).flatMap (fun j =>
        bad (nbit (leAt e0 (80 + 12 * j) 1) 6 || !zeroBytes e0 (81 + 12 * j) (84 + 12 * j)) (80 + 12 * j))
     else if op = 0 ∨ op = 0x0B ∨ op = 0x0C ∨ op = 0x0F then bad (!zeroBytes e0 64 128) 64
     else [])

/-- The least of a list of numbers. -/
def least : List Nat → Option Nat
  | [] => none
  | a :: r => some (match least r with
    | none => a
    | some b => min a b)

/-- Word 1 of a record that reports a field (Table 3-25) from 128 × chain position + byte offset. -/
def fieldWord (k : Nat) : Word := BitVec.ofNat 64 (k / 128 * 256 + k % 128)

/-- The status and word 1 of the fetch-time checks of a chain: MALFORMED at the lowest failing field, or 0. -/
def fetchStatus (es : List Bytes) : Nat × Word :=
  match least (fetchFails es) with
  | none => (0, 0)
  | some k => (0x10, fieldWord k)

/-! ### References and geometry -/

/-- The value of a referenced field of `w` bits (R117). -/
def resolveRef (param : Nat → Word) (field w : Nat) : Nat :=
  ((param (field % 64)).toNat + unsgn w (sgn (w - 8) (field / 256))) % 2 ^ w

/-- The value of a field that may be a reference: its PREF bit, entry, byte offset and width in bytes. -/
def fieldVal (es : List Bytes) (param : Nat → Word) (bit pos off n : Nat) : Nat :=
  let raw := leAt (ent es pos) off n
  if (hPref (headOf (ent es 0))).testBit bit then resolveRef param raw (8 * n) else raw

/-- Five exponents of 5 bits from bit `lo` of a number. -/
def exps (x lo : Nat) : List Nat := (List.range 5).map (fun k => x / 2 ^ (lo + 5 * k) % 32)

/-- The geometry of a data descriptor with every reference resolved (Tables 3-11 to 3-16, R104, R118). -/
def mkGeo (es : List Bytes) (param : Nat → Word) : Geo :=
  let op := opcodeOf es
  let e0 := ent es 0
  let e1 := ent es 1
  let ctrl := leAt e0 120 8
  let fv := fieldVal es param
  let n := (List.range 5).map (fun k => fv (2 + k) 0 (80 + 4 * k) 4)
  let c := (List.range 5).map (fun k => fv (7 + k) 0 (100 + 4 * k) 4)
  let perm := (List.range 5).map (fun d => nfld ctrl (10 + 3 * d) (8 + 3 * d))
  let idx := 2 ≤ op ∧ op ≤ 4
  let ring := 5 ≤ op ∧ op ≤ 8
  let e2 := ent es 2
  let lp := if op = 8 then 3 else 2
  let el := ent es lp
  let lift := op = 8 ∨ op = 9
  { op := op,
    src := { fmt := nfld ctrl 3 0, base := fv 0 0 64 8, n := n, e := exps ctrl 32,
             s := (List.range 5).map (fun k => leAt e1 (16 + 8 * k) 8) },
    dst := { fmt := nfld ctrl 7 4, base := fv 1 0 72 8, n := perm.map (fun k => c.getD k 0), e := exps (leAt e1 116 4) 0,
             s := (List.range 5).map (fun k => leAt e1 (56 + 8 * k) 8) },
    win := c, start := (List.range 5).map (fun k => sgn 32 (leAt e1 (96 + 4 * k) 4)), perm := perm,
    bcast := nfld ctrl 27 23, pad := nfld ctrl 29 28, padValue := leAt e1 120 8, round := nfld ctrl 31 30,
    toPort := nbit ctrl 57,
    idxCount := if idx then fv 13 2 16 4 else 0, idxDim := if idx then leAt e2 20 1 else 0,
    idxPolicy := if idx then leAt e2 21 1 else 0, idxBase := if idx then fv 12 2 24 8 else 0,
    galois := if ring then leAt e2 16 4 else 0, evalDomain := decide ring && nbit (leAt e2 20 1) 0,
    bitrev := decide ring && nbit (leAt e2 20 1) 1, domainTag := if ring then leAt e2 21 1 else 0,
    polyBase := if ring then leAt e2 22 2 else 0, seedBase := if op = 7 then fv 12 2 24 8 else 0,
    limbMap := if ring then (List.range 96).map (fun i => leAt e2 (32 + i) 1) else [],
    liftUnit := if lift then leAt el 16 1 else 0, liftCtrl := if lift then leAt el 17 1 else 0,
    kDelta := if lift then sgn 8 (leAt el 18 1) else 0, auxBase := if lift then fv 12 lp 24 8 else 0,
    mDelta := if lift then leAt el 32 8 else 0, outlierDst := if lift then leAt el 40 8 else 0 }

/-! ### The shape-and-stride model -/

/-- Inner-block size along a dimension (Table 2-4). -/
def Operand.blk (o : Operand) (k : Nat) : Nat := if o.e.getD k 31 = 31 then o.n.getD k 0 else 2 ^ (o.e.getD k 0)

/-- Whether an operand has a zero size. -/
def Operand.empty (o : Operand) : Bool := o.n.any (· == 0)

/-- The highest byte of an operand (R70). -/
def Operand.top (o : Operand) : Nat :=
  let blocks := ((List.range 5).map (fun k => (o.n.getD k 0 - 1) / max (o.blk k) 1 * o.s.getD k 0)).sum
  let span := ((List.range 5).map o.blk).foldl (· * ·) 1
  o.base + blocks + (if byteFmt o.fmt then span * (elemBits o.fmt / 8) else span / epu o.fmt * unitBytes o.fmt) - 1

/-- Whether the inner blocks of an operand may share bytes (R71): taken by rising stride, some stride is less than the span of what
lies below it. -/
def Operand.mayShare (o : Operand) : Bool :=
  let inner := ((List.range 5).map o.blk).foldl (· * ·) 1
  let span := if byteFmt o.fmt then inner * (elemBits o.fmt / 8) else inner / epu o.fmt * unitBytes o.fmt
  let outer := ((List.range 5).filter (fun k => o.blk k < o.n.getD k 0)).map (fun k => (o.s.getD k 0, (o.n.getD k 0 - 1) / max (o.blk k) 1))
  let (ok, _) := (sortBy (fun a b => a.1 ≤ b.1) outer).foldl (fun acc x => (acc.1 && acc.2 ≤ x.1, acc.2 + x.1 * x.2)) (true, span)
  !ok

/-- Element `i` of an operand: the address of its access unit and its position in the unit (R66). -/
def Operand.locate (o : Operand) (i : List Nat) : Nat × Nat :=
  let step := fun (acc : Nat × Nat × Nat) (k : Nat) =>
    let b := max (o.blk k) 1
    let x := i.getD k 0
    (acc.1 + (if o.e.getD k 31 = 31 then 0 else x / b * o.s.getD k 0), acc.2.1 + x % b * acc.2.2, acc.2.2 * b)
  let (outer, lin, _) := (List.range 5).foldl step (0, 0, 1)
  (o.base + outer + lin / epu o.fmt * unitBytes o.fmt, lin % epu o.fmt)

/-- The elements of an operand. -/
def Operand.total (o : Operand) : Nat := o.n.foldl (· * ·) 1

/-- The index of linear position `l` in destination index order, dimension 0 fastest. -/
def unlin (n : List Nat) (l : Nat) : List Nat :=
  match n with
  | [] => []
  | a :: r => l % max a 1 :: unlin r (l / max a 1)

/-- The linear position of an index. -/
def lin (n i : List Nat) : Nat :=
  match n, i with
  | a :: r, x :: y => x + a * lin r y
  | _, _ => 0

/-- The present elements of the access unit that holds the element at an index, as pairs of position in the unit and index.
They lie in the inner block of the element (R66), and an index at or beyond the size is absent. -/
def Operand.unitElems (o : Operand) (i : List Nat) : List (Nat × List Nat) :=
  let bs := (List.range 5).map (fun k => max (o.blk k) 1)
  let org := (List.range 5).map (fun k => i.getD k 0 / bs.getD k 1 * bs.getD k 1)
  let off := (List.range 5).map (fun k => i.getD k 0 % bs.getD k 1)
  let l0 := lin bs off / epu o.fmt * epu o.fmt
  let size := bs.foldl (· * ·) 1
  (List.range (min (epu o.fmt) (size - l0))).filterMap (fun p =>
    let w := unlin bs (l0 + p)
    let j := (List.range 5).map (fun k => org.getD k 0 + w.getD k 0)
    if (List.range 5).all (fun k => j.getD k 0 < o.n.getD k 0) then some (p, j) else none)

/-- Whether an element is the first of its access unit in destination index order. Tiles and lift blocks lie along dimension
0 and are wholly present (R59). -/
def Operand.isHead (o : Operand) (l : Nat) : Bool :=
  let i := unlin o.n l
  if byteFmt o.fmt then
    (match o.unitElems i with
     | [] => false
     | (_, j) :: _ => j == i)
  else i.getD 0 0 % epu o.fmt == 0

/-- The first head at or after a linear position, or the total when none is left. -/
def Operand.nextHead (o : Operand) (l : Nat) : Nat :=
  (searchUp o.isHead (o.total - l) l).getD o.total

/-! ### Ring maps -/

/-- The low `n` bits of a number reversed (R76). -/
def bitrev : Nat → Nat → Nat
  | 0, _ => 0
  | n + 1, j => j % 2 * 2 ^ n + bitrev n (j / 2)

/-- The inverse of an odd number modulo 2^m, m at most 24, by Newton's step. -/
def oddInv (m k : Nat) : Nat :=
  let md := 2 ^ m
  let st := fun x => x * (2 * md + 2 - k * x % md) % md
  st (st (st (st (k % md))))

/-- The source slot that AUTOMORPH sends to a destination slot before bit reversal, and whether its residue is negated (R187,
R188), for Galois element k at degree 2^logn. -/
def galoisSrc (logn k : Nat) (eval : Bool) (t : Nat) : Nat × Bool :=
  let n := 2 ^ logn
  if eval then
    let e := (2 * bitrev logn t + 1) * k % (2 * n)
    (bitrev logn ((e - 1) / 2), false)
  else
    let i := t * oddInv (logn + 1) k % (2 * n)
    if i < n then (i, false) else (i - n, true)

/-- The window slot from which the ring stages of an opcode take destination slot `j`, and whether it is negated: stages 6c
and 6d (R186, R190, R191). -/
def ringSlot (g : Geo) (logn j : Nat) : Nat × Bool :=
  let t := if g.bitrev then bitrev logn j else j
  if g.op = 5 then galoisSrc logn g.galois g.evalDomain t else (t, false)

/-! ### Stages 1 to 4 -/

/-- The window position of a destination index (stage 1). -/
def Geo.window (g : Geo) (d : List Nat) : List Nat :=
  (List.range 5).map (fun w =>
    ((List.range 5).filterMap (fun k => if g.perm.getD k 9 = w then some (d.getD k 0) else none)).headD 0)

/-- What stage 3 makes of an index of the list (R161): a row, a pad position, or out of range. -/
inductive IdxRes
  | row (i : Nat)
  | pad
  | bad
deriving DecidableEq, Repr

/-- The resolution of a gather index against the source size (R161). -/
def gatherIdx (policy n : Nat) (i : Int) : IdxRes :=
  let j := if policy = 1 ∧ i < 0 then i + n else i
  if 0 ≤ j ∧ j < n then .row j.toNat else if policy = 2 then .pad else .bad

/-- The highest destination byte that row `i` of a scatter covers (R170). -/
def Geo.rowTop (g : Geo) (i : Nat) : Nat :=
  let o := { g.dst with n := g.dst.n.set g.idxDim 1 }
  o.top + i * g.dst.s.getD g.idxDim 0

/-- The resolution of a scatter index (R170). -/
def Geo.scatterIdx (g : Geo) (i : Int) : IdxRes :=
  if 0 ≤ i ∧ g.rowTop i.toNat < 2 ^ 56 then .row i.toNat else if g.idxPolicy = 2 then .pad else .bad

/-- The resolution of an index of a GATHER, SCATTER or SCATTER_ADD. -/
def Geo.resolveIdx (g : Geo) (i : Int) : IdxRes :=
  if g.op = 2 then gatherIdx g.idxPolicy (g.src.n.getD g.idxDim 0) i else g.scatterIdx i

/-- The window position from which the ring stages take a destination index, and whether the residue is negated (stages 1, 6c and
6d). -/
def Geo.ringWin (g : Geo) (logn : Nat) (d : List Nat) : List Nat × Bool :=
  if 5 ≤ g.op ∧ g.op ≤ 8 ∧ (g.op = 5 ∨ g.bitrev) then
    let (slot, neg) := ringSlot g logn (d.getD 0 0)
    (g.window (d.set 0 slot), neg)
  else (g.window d, false)

/-- The source position of a window position, or none for a pad position (R134, R144, R182, R220): `idx` gives the raw index at a
position of the index list. -/
def Geo.winSource (g : Geo) (idx : Nat → Int) (w : List Nat) : Option (List Nat) :=
  let p := (List.range 5).map (fun k =>
    let o := g.start.getD k 0
    if g.op = 7 ∧ k = 4 then (0 : Int)
    else if g.bcast.testBit k then o
    else if g.op = 2 ∧ k = g.idxDim then
      (match g.resolveIdx (idx (w.getD k 0)) with
       | .row i => (i : Int)
       | _ => -1)
    else o + w.getD k 0)
  if (List.range 5).all (fun k => 0 ≤ p.getD k 0 ∧ p.getD k 0 < g.src.n.getD k 0) then some (p.map Int.toNat) else none

/-- The source position of a destination index and whether it is negated, or none for a pad position. -/
def Geo.source (g : Geo) (logn : Nat) (idx : Nat → Int) (d : List Nat) : Option (List Nat × Bool) :=
  let (w, neg) := g.ringWin logn d
  (g.winSource idx w).map (fun p => (p, neg))

/-- The destination index after stage 7: the row of a scatter, or none for a position whose index PAD leaves out (R170). -/
def Geo.target (g : Geo) (idx : Nat → Int) (d : List Nat) : Option (List Nat) :=
  if g.op = 3 ∨ g.op = 4 then
    (match g.resolveIdx (idx (d.getD g.idxDim 0)) with
     | .row i => some (d.set g.idxDim i)
     | _ => none)
  else some d

/-- The half of an EXPAND position: 0 stored, 1 expanded (R220). -/
def Geo.half (g : Geo) (d : List Nat) : Nat := ((g.start.getD 4 0) + ((g.window d).getD 4 0 : Nat)).toNat

/-- Whether EXPAND has the tile form (Table 6-6). -/
def Geo.tileForm (g : Geo) : Bool := g.src.n.getD 0 0 == 128

/-- The window dimension of limbs: 2 in the tile form of EXPAND, otherwise 1. -/
def Geo.limbDim (g : Geo) : Nat := if g.op = 7 && g.tileForm then 2 else 1

/-- The limb of a destination index: its window limb. -/
def Geo.limbOf (g : Geo) (d : List Nat) : Nat := (g.window d).getD g.limbDim 0

/-- Whether the stream is a whole-limb stream (R194, R195). -/
def Geo.wholeLimb (g : Geo) : Bool := g.op == 5 || ((g.op == 6 || g.op == 7 || g.op == 8) && g.bitrev)

/-- A LIMB_XPOSE with BITREV 0 is a band stream (R192). -/
def Geo.band (g : Geo) : Bool := g.op == 6 && !g.bitrev

/-- A descriptor whose PERM takes destination dimension 0 from another window dimension (R147). -/
def Geo.permStream (g : Geo) : Bool := isData g.op && g.op ≤ 4 && g.perm.getD 0 0 != 0

/-- The interleave width of an EXPAND (R225). -/
def Geo.width (g : Geo) : Nat :=
  if !g.tileForm then 1
  else
    let at' := fun w => (firstIdx (· == w) g.perm 0).getD 0
    let f := fun w => if at' w < at' 1 then g.win.getD w 0 else 1
    f 2 * f 3

/-! ### Checks at begin -/

/-- What the checks need of the state: the ring configuration in force (log2 N and primes), the presence of units, the cores of
a cluster and the bulk limit, the committed codebook, and the class of the queue. -/
structure Env where
  ring : Option (Nat × Nat)
  hasExp : Bool
  lifts : List Nat
  cores : Nat
  bulkCores : Nat
  bulk : Bool
  codebook : Bool
deriving DecidableEq, Repr

/-- Failures with MALFORMED that every data opcode shares (R47, R58 to R71, R84, R105, R106, R108). -/
def malformedCommon (g : Geo) : List Nat :=
  let bad := fun (c : Bool) (k : Nat) => if c then [k] else []
  let empty := g.dst.empty
  bad (!fmtOk g.src.fmt || !fmtOk g.dst.fmt || 2 ≤ g.round || g.pad == 3 ||
    g.src.e.any (fun e => 25 ≤ e && e ≤ 30) || !(List.range 5).all (fun k => g.perm.contains k)) 120 ++
  bad (g.dst.e.any (fun e => 25 ≤ e && e ≤ 30)) (128 + 116) ++
  (if g.pad = 0 ∧ empty = false then
    (List.range 5).flatMap (fun k =>
      if (g.op = 2 ∧ k = g.idxDim) ∨ (g.op = 7 ∧ k = 4) then []
      else
        let o := g.start.getD k 0
        let n : Int := (g.src.n.getD k 0 : Nat)
        let c : Int := if g.bcast.testBit k then 1 else (g.win.getD k 0 : Nat)
        bad (decide (o < 0 ∨ n ≤ o)) (128 + 96 + 4 * k) ++ bad (decide (0 ≤ o ∧ o < n ∧ n < o + c)) (100 + 4 * k))
   else []) ++
  (if g.toPort then
    bad (2 ^ 8 ≤ g.dst.base) 72 ++ bad (g.dst.e.any (· != 31)) (128 + 116) ++
      (List.range 5).flatMap (fun k => bad (g.dst.s.getD k 0 != 0) (128 + 56 + 8 * k))
   else
    bad (!empty && 2 ^ 56 ≤ g.dst.top) 72 ++
      (List.range 5).flatMap (fun k =>
        bad (g.dst.e.getD k 31 != 31 && g.dst.s.getD k 0 == 0 && g.dst.blk k < g.dst.n.getD k 0) (128 + 56 + 8 * k))) ++
  bad (!g.src.empty && 2 ^ 56 ≤ g.src.top) 64

/-- Failures with MALFORMED of MOVE, GATHER, SCATTER and SCATTER_ADD (R111, R141, R145, R148, R151, R160, R169, R172, R173,
R289). -/
def malformedMove (g : Geo) : List Nat :=
  let bad := fun (c : Bool) (k : Nat) => if c then [k] else []
  let tiled := fun f => f == 11 || f == 12
  bad (!castOk g.src.fmt g.dst.fmt || (g.dst.fmt == 12 && g.pad == 1) ||
    ((tiled g.src.fmt || tiled g.dst.fmt) && g.perm.getD 0 0 != 0)) 120 ++
  (if g.op = 1 then []
   else
    (if 4 < g.idxDim then [256 + 20]
     else bad (g.idxCount != g.win.getD g.idxDim 0) (256 + 16) ++ bad (g.start.getD g.idxDim 0 != 0) (128 + 96 + 4 * g.idxDim)) ++
    bad (2 < g.idxPolicy) (256 + 21) ++ bad (g.bcast.testBit g.idxDim) 120 ++
    bad (g.idxBase.testBit 63 && g.idxPolicy != 2) (256 + 21) ++
    bad (g.idxBase.testBit 63 && (16 ≤ nfld g.idxBase 13 6 || g.idxBase % 2 ^ 6 != 0 || nfld g.idxBase 62 14 != 0)) (256 + 24) ++
    (if g.op = 2 then bad (g.idxDim == 0 && tiled g.src.fmt) (256 + 20)
     else
      bad (g.idxDim == 0) (256 + 20) ++ bad (g.perm.getD g.idxDim 9 != g.idxDim || g.toPort) 120 ++
      bad (g.dst.e.getD g.idxDim 0 != 0) (128 + 116) ++ bad (g.idxPolicy == 1) (256 + 21) ++
      (if g.op = 4 then
        bad (!addFmt g.dst.fmt) 120 ++ bad (g.dst.fmt == 11 && g.idxDim == 1) (256 + 20)
       else [])))

/-- LIMB_MAP entries that break R113: bit 7 set, or non-zero at or beyond the extent. -/
def malformedMap (g : Geo) (extent : Nat) : List Nat :=
  (List.range 96).flatMap (fun i =>
    let v := g.limbMap.getD i 0
    if 128 ≤ v || (extent ≤ i && v != 0) then [256 + 32 + i] else [])

/-- Failures with MALFORMED of the ring, expand and lift opcodes (Tables 5-1, 6-7, 7-4 and 7-8, R113, R115, R191). The row of Table 7-4 on
OUTLIER_DST with DST_PORT 1 is held for a LIFT with OUTLIERS 1 (DEDUCED, log entry 115). -/
def malformedRing (g : Geo) (e : Env) : List Nat :=
  let bad := fun (c : Bool) (k : Nat) => if c then [k] else []
  let c := fun k => g.win.getD k 0
  let o := fun k => g.start.getD k 0
  let n := e.ring.map (fun r => 2 ^ r.1)
  let isN := fun x => n.all (· == x)
  let lp := if g.op = 8 then 3 else 2
  let unit := bad (0x10 ≤ g.liftUnit && g.liftUnit ≤ 0xFE) (128 * lp + 16)
  if g.op = 5 ∨ g.op = 6 then
    bad (g.src.fmt != 11 || g.dst.fmt != 11 || g.perm.getD 0 9 != 0 || g.perm.getD 1 9 != 1 || g.bcast % 4 != 0 ||
      g.round != 0) 120 ++
    bad (!isN (g.src.n.getD 0 0)) 80 ++ bad (c 1 < 1 || 96 < c 1) 104 ++
    (if g.op = 5 then
      bad (o 0 != 0) (128 + 96) ++ bad (!isN (c 0)) 100 ++
        bad (g.galois % 2 == 0 || n.any (fun x => 2 * x ≤ g.galois)) (256 + 16)
     else
      bad (o 0 % 128 != 0) (128 + 96) ++ bad (c 0 % 128 != 0) 100 ++ bad (g.bitrev && !isN (c 0)) (256 + 20)) ++
    malformedMap g (c 1)
  else if g.op = 7 then
    let f := g.src.n.getD 0 0
    let limb := g.limbDim
    bad (g.src.fmt != 11 || g.dst.fmt != 11 || g.perm.getD 0 9 != 0 || g.bcast != 0 || g.pad != 0 || g.round != 0 ||
      (g.toPort && e.cores < g.width)) 120 ++
    bad (!(f == 128 || isN f)) 80 ++ bad (g.tileForm && !isN (128 * g.src.n.getD 1 0)) 84 ++ bad (g.src.n.getD 4 0 != 1) 96 ++
    bad (o 0 != 0) (128 + 96) ++ bad (c 0 != f) 100 ++
    bad (g.tileForm && o 1 != 0) (128 + 100) ++ bad (g.tileForm && !isN (128 * c 1)) 104 ++
    bad (c limb < 1 || 96 < c limb) (100 + 4 * limb) ++
    bad (o 4 != 0 && o 4 != 1) (128 + 112) ++ bad (c 4 < 1 || 2 < c 4 || decide (2 < o 4 + (c 4 : Nat))) 116 ++
    bad ((if g.tileForm then 64 < c 3 else 64 < c 2 * c 3)) (if g.tileForm then 112 else 108) ++
    bad (!g.evalDomain || (g.bitrev && g.tileForm)) (256 + 20) ++
    bad (g.domainTag != 0x4B && g.domainTag != 0x43 && g.domainTag != 0x50) (256 + 21) ++ malformedMap g (c limb)
  else if g.op = 8 then
    let outl := nbit g.liftCtrl 2
    bad (g.src.fmt != 12 || g.dst.fmt != 11 || g.perm.getD 0 9 != 0 || g.bcast % 4 != 2 || g.round != 0) 120 ++
    bad (g.src.n.getD 1 0 != 1) 84 ++ bad (o 1 != 0) (128 + 100) ++ bad (c 1 < 1 || 96 < c 1) 104 ++
    bad (g.bitrev && !isN (c 0)) 100 ++ unit ++ malformedMap g (c 1) ++
    bad (!outl && g.auxBase != 0) (384 + 24) ++
    bad ((!outl && g.outlierDst != 0) ||
      (outl && g.toPort && (2 ^ 8 ≤ g.outlierDst || g.outlierDst % 256 == g.dst.base % 256))) (384 + 40)
  else
    bad ((g.src.fmt != 9 && g.src.fmt != 10) || g.dst.fmt != 12 || g.toPort || g.perm.getD 0 9 != 0 || g.bcast % 2 != 0 ||
      g.pad == 1 || g.round != 0) 120 ++
    bad (o 0 % 2048 != 0) (128 + 96) ++ bad (c 0 % 2048 != 0) 100 ++ unit ++
    bad (nbit g.liftCtrl 2) (256 + 17) ++ bad (!nbit g.liftCtrl 1 && g.auxBase != 0) (256 + 24)

/-- Failures with ABSENT_UNIT (R115, R538). An EXPAND without a cluster is reported at byte 0 of the FIRST entry, which no field names
(DESIGN CHOICE, log entry 114). -/
def absentFails (g : Geo) (e : Env) : List Nat :=
  if g.op = 7 then (if e.hasExp then [] else [0])
  else if g.op = 8 ∨ g.op = 9 then
    (if (if g.liftUnit = 0xFF then e.lifts.isEmpty else !e.lifts.contains g.liftUnit) then
      [if g.op = 8 then 384 + 16 else 256 + 16] else [])
  else []

/-- Failures with ALIGNMENT of one operand (R58, R59): keys of base, exponents, size along dimension 0 and strides. An outer stride is used
where its dimension reaches past its inner block (log entry 54). -/
def alignOperand (o : Operand) (kBase kExp kSize kStride : Nat) (mem : Bool) : List Nat :=
  let bad := fun (c : Bool) (k : Nat) => if c then [k] else []
  let u := unitBytes o.fmt
  let m := if o.fmt = 11 then 128 else if o.fmt = 12 then 2048 else 1
  (if mem then
    bad (o.base % u != 0) kBase ++
      (List.range 5).flatMap (fun k => bad (o.e.getD k 31 != 31 && o.blk k < o.n.getD k 0 && o.s.getD k 0 % u != 0) (kStride + 8 * k))
   else []) ++
  bad (o.blk 0 % m != 0) kExp ++ bad (o.n.getD 0 0 % m != 0) kSize

/-- Failures with ALIGNMENT (R60, R107, R159, R216, R249, R252, R259). -/
def alignFails (g : Geo) : List Nat :=
  let bad := fun (c : Bool) (k : Nat) => if c then [k] else []
  let m := if g.src.fmt = 11 then 128 else if g.src.fmt = 12 then 2048 else 1
  alignOperand g.src 64 120 80 (128 + 16) true ++
  alignOperand g.dst 72 (128 + 116) 100 (128 + 56) (!g.toPort) ++
  bad (g.start.getD 0 0 % (m : Nat) != 0) (128 + 96) ++ bad (g.win.getD 0 0 % m != 0) 100 ++
  bad (2 ≤ g.op && g.op ≤ 4 && !g.idxBase.testBit 63 && g.idxBase % 64 != 0) (256 + 24) ++
  bad (g.op == 7 && g.seedBase % 64 != 0) (256 + 24) ++
  bad (g.op == 8 && nbit g.liftCtrl 2 && g.auxBase % 64 != 0) (384 + 24) ++
  bad (g.op == 9 && nbit g.liftCtrl 1 && g.auxBase % 64 != 0) (256 + 24) ++
  bad (g.op == 8 && nbit g.liftCtrl 2 && !g.toPort && g.outlierDst % 64 != 0) (384 + 40)

/-- Failures with STATE_CONFLICT (R113, R115, R173, R227). W bears on an EXPAND to the compute port alone (R225). A missing ring
configuration is reported at byte 0 of the FIRST entry, which no field names (DESIGN CHOICE, log entry 114). -/
def conflictFails (g : Geo) (e : Env) : List Nat :=
  let bad := fun (c : Bool) (k : Nat) => if c then [k] else []
  let primes := (e.ring.map (·.2)).getD 0
  (if 5 ≤ g.op ∧ g.op ≤ 8 then
    bad e.ring.isNone 0 ++
    (List.range (min (g.win.getD g.limbDim 0) 96)).flatMap (fun i => bad (primes ≤ g.limbMap.getD i 0) (256 + 32 + i))
   else []) ++
  bad (g.op == 7 && g.toPort && e.bulk && e.bulkCores < g.width) 120 ++
  bad ((g.op == 8 || g.op == 9) && nbit g.liftCtrl 0 && !e.codebook) (if g.op = 8 then 384 + 17 else 256 + 17) ++
  bad (g.op == 4 && g.dst.fmt == 11 && (e.ring.isNone || primes < g.dst.n.getD 1 0)) (100 + 4 * g.perm.getD 1 0)

/-- The status and word 1 of the checks of R130 for a data descriptor, 0 when all pass: the first of MALFORMED, ABSENT_UNIT,
ALIGNMENT and STATE_CONFLICT, at the lowest failing field. `extra` holds the SIG words that R94 refuses. -/
def beginStatus (g : Geo) (e : Env) (extra : List Nat) : Nat × Word :=
  let mal := extra ++ malformedCommon g ++ (if g.op ≤ 4 then malformedMove g else malformedRing g e) ++
    (if g.bcast.testBit 0 && (g.src.fmt == 11 || g.src.fmt == 12) then [120] else [])
  match least mal with
  | some k => (0x10, fieldWord k)
  | none =>
    match least (absentFails g e) with
    | some k => (0x12, fieldWord k)
    | none =>
      match least (alignFails g) with
      | some k => (0x11, fieldWord k)
      | none =>
        match least (conflictFails g e) with
        | some k => (0x13, fieldWord k)
        | none => (0, 0)

/-- The status of the checks of PARAM_SET (R120) and REPLAY (R125) at begin. -/
def beginControl (es : List Bytes) (param : Nat → Word) : Nat × Word :=
  let e0 := ent es 0
  if opcodeOf es = 0x0D then
    (let f := leAt e0 64 1
     let c := leAt e0 65 1
     if 64 ≤ f ∨ 64 < f + c then (0x10, fieldWord 64)
     else if c = 0 ∨ 7 < c then (0x10, fieldWord 65)
     else if 1 < leAt e0 66 1 then (0x10, fieldWord 66) else (0, 0))
  else if opcodeOf es = 0x0E then
    (let base := fieldVal es param 14 0 64 8
     let n := leAt e0 72 4
     if n = 0 ∨ 4096 < n then (0x10, fieldWord 72)
     else if fieldVal es param 15 0 76 4 = 0 then (0x10, fieldWord 76)
     else if base % 128 ≠ 0 then (0x11, fieldWord 64) else (0, 0))
  else (0, 0)

end Sys2Proof.Machine
end

