-- ==== Sys2Proof/Machine/Registers.lean ====
section
/-! DEFINITION. Writes of registers that only change fields (R598, R605, R607), with authority, locks and the busy commit (R512,
R513, R517), the double-banked memories (R521), and the commands of the staged commit (R516, R517, R605). -/

namespace Sys2Proof.Machine

/-- The bits that a write covers (R597). -/
def partMask : Part → Word
  | .whole => ~~~0
  | .lo => 0xFFFFFFFF
  | .hi => 0xFFFFFFFF00000000

/-- The value of a write at its place in the register. A 32-bit write carries its value in bits [31:0]. -/
def partVal : Part → Word → Word
  | .hi, v => v <<< 32
  | _, v => v

/-- Whether a register lies in a lock range of the light list (R513). -/
def State.lockedReg (s : State) (off : Nat) : Bool := s.kp.locks.any (fun r => r.1 ≤ off && off < r.1 + r.2)

/-- Sets the shadow value of a staged register. -/
def State.setShadow (s : State) (k : Nat) (v : Word) : State :=
  { s with cfg := { s.cfg with shadow := rput s.grade s.cfg.shadow k v } }

/-- The RW and W1C fields of a write (R598, R607). -/
def State.writePlain (s : State) (k : Nat) (r : RegRow) (m v : Word) : State :=
  let x := merge (s.reg k) v (r.rw &&& m)
  s.setReg k (x &&& ~~~(v &&& m &&& r.w1c))

/-- The ST fields of a write: refused in a locked range or while a commit runs, otherwise they change the covered half of the
shadow copy (R512, R513, R517, R598). -/
def State.writeStaged (s : State) (p : Port) (off k : Nat) (r : RegRow) (m v : Word) : State :=
  if r.st &&& m = 0 then s
  else if s.lockedReg off then s.refuseWrite (originOf p) 1 off
  else if s.commit.phase ≠ .idle then s.refuseWrite (originOf p) 3 off
  else s.setShadow k (merge (s.shadow k) v (r.st &&& m))

/-- A write that only changes fields of the register at an offset. It has no effect where no register is assigned, its unit
is absent or its selector is out of range (R528, R595, R602). -/
def State.writeFields (s : State) (p : Port) (off0 : Nat) (part : Part) (v0 : Word) : State :=
  let off := normOff off0
  match regRow off with
  | none => s
  | some r =>
    if s.absentReg off then s
    else match s.keyOf p off with
      | none => s
      | some k =>
        let v := partVal part v0
        (s.writePlain k r (partMask part) v).writeStaged p off k r (partMask part) v

/-! ### Double-banked memories -/

/-- One word written to a bank of a double-banked memory; a rewritten word is no longer damaged. -/
def State.putImage (s : State) (mem bank i : Nat) (v : Word) : State :=
  let im := s.image mem
  let k := 2 ^ 20 * bank + i
  let words := if v = 0 then tdel im.words k else tput im.words k v
  { s with images := tput s.images mem { im with words := words, damaged := im.damaged.filter (· != k) } }

/-- A write of CF_IMG_DATA (R512, R521, R599): it goes to word ADDR of bank BANK and advances ADDR, unless a compute port makes
it, a commit runs, or the bank is active. -/
def State.imgData (s : State) (p : Port) (part : Part) (v : Word) : State :=
  match p with
  | .compute _ => s.refuseWrite (originOf p) 4 Reg.cfImgData
  | _ =>
    let mem := s.regFld Reg.cfImgSel 7 0
    let bank := s.regFld Reg.cfImgSel 8 8
    if part ≠ .whole ∨ s.isImage mem = false then s
    else if s.commit.phase ≠ .idle then s.refuseWrite (originOf p) 3 Reg.cfImgData
    else if bank = (s.image mem).active then s.refuseWrite (originOf p) 2 Reg.cfImgData
    else
      let n := imageBytes mem / 8
      let i := s.regFld Reg.cfImgAddr 18 3 % n
      (s.putImage mem bank i v).setFld Reg.cfImgAddr 18 3 ((i + 1) % n)

/-! ### Commands -/

/-- CHECK (R516): CF_CTRL with OP 1 tests the shadow set and reports the first failure. -/
def execCheck (p : Port) (s : State) : Host.Outcome State Fault Refusal :=
  whenNormal (fun s => s.cfCtrlGate p (fun s => s.checkOp (originOf p) false)) s

/-- APPLY (R517): CF_CTRL with OP 2 runs CHECK and starts the commit when it passes. -/
def execApply (p : Port) (s : State) : Host.Outcome State Fault Refusal :=
  whenNormal (fun s => s.cfCtrlGate p (fun s => s.checkOp (originOf p) true)) s

/-- DISCARD (R605): CF_CTRL with OP 3 makes every shadow value equal to its active value. -/
def execDiscard (p : Port) (s : State) : Host.Outcome State Fault Refusal :=
  whenNormal (fun s => s.cfCtrlGate p State.discardShadow) s

/-- ISLAND_RETIRE_REPORT (R517): an island with no descriptor of the old epoch drops its old set and reports. -/
def execIslandRetireReport (island : Nat) (s : State) : Host.Outcome State Fault Refusal :=
  whenNormal (fun s => s.retireReport island) s

/-- CF_IMG_DATA_WRITE (R521). -/
def execCfImgDataWrite (p : Port) (part : Part) (v : Word) (s : State) : Host.Outcome State Fault Refusal :=
  whenNormal (fun s => s.imgData p part v) s

end Sys2Proof.Machine
end

