-- ==== Sys2Proof/Machine/Translate.lean ====
section
/-! DEFINITION. The commands of the translation unit: invalidation (R365 to R369), tables (R354) and access counters (R371); and
the step of a walk when a granule returns (R362). -/

namespace Sys2Proof.Machine

/-- A write of AT_INV (R365, R366, R599): refused while sixteen invalidations are pending, otherwise counted and accepted. -/
def State.atInv (s : State) (part : Part) (v : Word) : State :=
  if part ≠ .whole then s
  else if 16 ≤ s.xl.invs.length then s.evAt 2
  else
    (s.bump Reg.atInvStat 31 0).invalidate (if bit v 63 then none else some (fld v 11 0))

/-- AT_INV (R365). -/
def execAtInv (p : Port) (part : Part) (v : Word) (s : State) : Host.Outcome State Fault Refusal :=
  whenNormal (fun s => if fromCompute p then s else s.atInv part v) s

/-- The oldest pending invalidation completes once nothing issued under its tag before it is outstanding (R366, R368). -/
def State.invDone (s : State) : State :=
  match s.xl.invs with
  | [] => s
  | i :: rest =>
    if i.waits.any s.isOut then s
    else ({ s with xl := { s.xl with invs := rest } }).bump Reg.atInvStat 63 32

/-- INVALIDATION_COMPLETE (R366). -/
def execInvalidationComplete (s : State) : Host.Outcome State Fault Refusal := whenNormal State.invDone s

/-- A write of AT_TABLE (R354, R599): the table of the tag that AT_SEL selects, for walks that begin from now on. -/
def State.atTable (s : State) (p : Port) (part : Part) (v : Word) : State :=
  if part ≠ .whole then s else s.writeFields p Reg.atTable part v

/-- AT_TABLE_WRITE (R354). -/
def execAtTableWrite (p : Port) (part : Part) (v : Word) (s : State) : Host.Outcome State Fault Refusal :=
  whenNormal (fun s => if fromCompute p then s else s.atTable p part v) s

/-- Every access counter halved (R371); EPOCH_US 0 disables it. -/
def State.halveCounters (s : State) : State :=
  if fld (s.act Reg.atHotCfg) 15 0 = 0 then s
  else
    (s.regs.filter (fun p => p.1 % 2 ^ 24 = Reg.atCntVal)).foldl
      (fun s p => s.setReg p.1 (putFld p.2 31 0 (fld p.2 31 0 / 2))) s

/-- AT_EPOCH_HALVING (R371). -/
def execAtEpochHalving (s : State) : Host.Outcome State Fault Refusal := whenNormal State.halveCounters s

/-- A granule of a walk has returned (R362): a data error ends the walk (row 1 of Table 10-3), a bad granule with TABLE, and
otherwise the walk ends or reads its next granule. A cancelled walk ends without a result (R366). -/
def State.walkStep (s : State) (w : Walk) (g : Bytes) (err : Bool) : State :=
  if w.cancelled then s.dropWalk w.id
  else if err then s.endWalk w .data
  else match s.bisect w g with
    | .inl .table => (s.evAt 1).endWalk w .table
    | .inl r => s.endWalk w r
    | .inr w' => s.walkRead w'

end Sys2Proof.Machine
end

