-- ==== Sys2Proof/Machine/Qm.lean ====
section
/-! DEFINITION. The queue manager: its accesses to rings, index blocks, records and recorded groups (R310, R359), doorbells
(R317), index blocks (R318 to R322), the fetching and framing of entries (R316, R320 to R323), errors (R339), CONSUMER and
IDLE (R312, R327). -/

namespace Sys2Proof.Machine

/-! ### Indices and queues -/

/-- An index some entries on, modulo 2^32 (R311). -/
def idxAdd (a n : Nat) : Nat := (a + n) % 2 ^ 32

/-- The distance from one index forward to another, modulo 2^32 (R311). -/
def idxDist (a b : Nat) : Nat := (b + 2 ^ 32 - a) % 2 ^ 32

/-- The lap of an index (R311). -/
def lapOf (x : Queue) (i : Nat) : Nat := i / 2 ^ x.log2 % 2

/-- The address of the ring slot of an index (R311). -/
def slotVa (x : Queue) (i : Nat) : Nat := x.ring + 128 * (i % 2 ^ x.log2)

/-- Sets a queue. -/
def State.setQueue (s : State) (q : Nat) (x : Queue) : State := { s with queues := tput s.queues q x }

/-- Changes a queue, if it is there. -/
def State.onQueue (s : State) (q : Nat) (f : Queue → Queue) : State := { s with queues := tmod s.queues q f }

/-- Whether a queue is in the latency-critical class; queue 0 is. -/
def State.isLc (s : State) (q : Nat) : Bool := !(s.queue q).bulk

/-- Entries of a queue are fetched only up to the accepted producer index: on L and XL, and for the admin queue (R320, R324). -/
def State.boundedQ (s : State) (q : Nat) : Bool := s.bounded || q == 0

/-! ### Event flashes and errors -/

/-- An event flash of a queue whose EVENT_FQ is enabled (R342, Table 9-6). -/
def State.queueFlash (s : State) (q event detail index addr : Nat) : State :=
  let x := s.queue q
  if x.eventEn then
    s.flash x.eventFq (word (event + 2 ^ 8 * detail + 2 ^ 16 * q + 2 ^ 32 * index), word (addr % 2 ^ 56))
  else s

/-- A tenant queue enters ERROR: reason, status and index latched, QM_EVENT.QUEUE_ERROR, and the event flash. A queue that is in
ERROR already keeps what it latched first (R339). -/
def State.enterError (s : State) (q reason index status : Nat) : State :=
  let x := s.queue q
  if x.state = .enabled ∨ x.state = .disabled then
    ((s.setQueue q { x with state := .error, errReason := reason, errStatus := status, errIndex := index }).evQm
      0).queueFlash q 2 reason index 0
  else s

/-! ### Accesses -/

/-- Who waits for an access of the queue manager. -/
def qmOwner (q : Nat) : QmUse → Owner
  | .idxRead => .idx q
  | .entRead i => .ent q i
  | .replayEnt did => .replayEnt did
  | .rcd did pos => .rcd did pos
  | .interim did => .interim did
  | .consWrite => .cons q
  | .abortRcd i => .abortRcd q i

/-- Whether an access of the queue manager is a read. -/
def qmReads : QmUse → Bool
  | .idxRead | .entRead _ | .replayEnt _ => true
  | _ => false

/-- The fault object of an access of the queue manager (R360): a ring or index block, a completion or CONSUMER write, or the
source of a REPLAY. -/
def qmObj : QmUse → Nat
  | .idxRead | .entRead _ => 6
  | .replayEnt _ => 0
  | _ => 7

/-- A completion record: word 0 (Table 3-24) and word 1, 16 bytes. -/
def recordBytes (tag phase pos status : Nat) (skipped : Bool) (entries : Nat) (word1 : Word) : Bytes :=
  leBytes 8 (2 ^ 48 * min entries 0xFFFF + 2 ^ 32 * tag + 2 ^ 16 * b2n skipped + 2 ^ 15 * phase + 2 ^ 8 * pos + status) ++
    leBytes 8 word1.toNat

/-- An admin command ends (R333): it leaves the list of commands, its completion record goes into its slot, and a command that
completes with DONE is recorded in the keeper's log. -/
def State.adminRecord (s : State) (c : AdminCmd) (status : Nat) (word1 : Word) : State :=
  let x := s.queue 0
  let h := headOf c.entry
  let data := recordBytes (hTag h) (hPhase h) 0 status false 0 word1
  let s := { s with admin := { s.admin with cmds := s.admin.cmds.filter (fun d => d.index != c.index) } }
  let s := if status = 0 then
      s.logRec 0x05 keeperOrigin 0xFFFF (leAt c.entry 16 2) 0 0 ((c.entry.drop 16).take 20)
    else s
  match s.routePa (slotVa x c.index) with
  | some dest => s.addReq (mkReq dest (slotVa x c.index) 16 .write (.rcd 0 c.index) ctlMaster 0 0xFFFF none true data
      (List.replicate 16 true))
  | none => s.raiseFatal 0x04 c.index

/-- The last read of the index block of a queue that is being disabled has ended (R610, Table 9-3): the queue is DISABLED unless
the read put it into ERROR, and the DISABLE_QUEUE completes with DONE. -/
def State.endLastRead (s : State) (q : Nat) : State :=
  let x := s.queue q
  if x.lastRead && !x.idxAgain then
    let s := s.setQueue q { x with lastRead := false, state := if x.state = .enabled then .disabled else x.state,
                                   idleEvent := q != 0 }
    if q = 0 then s
    else match s.admin.cmds with
      | c :: _ => if leAt c.entry 0 1 = 0x43 ∧ leAt c.entry 16 2 = q then s.adminRecord c 0 0 else s
      | [] => s
  else s

/-- A read of an index block that failed (R335, R359): fatal for the admin queue, RING_FAULT with pr for a tenant. -/
def State.idxLost (s : State) (q : Nat) : State :=
  let s := s.onQueue q (fun x => { x with idxOut := false })
  if q = 0 then s.raiseFatal 0x04 (s.queue 0).pr
  else (s.enterError q 3 (s.queue q).pr 0).endLastRead q

/-- A chain read ahead is given up without effect (R321): its entries are read again once they are covered. -/
def giveUpAhead (x : Queue) : Queue :=
  { x with next := idxAdd x.next (2 ^ 32 - x.part.length), part := [], spec := x.pr, halfEntry := none }

/-- Whether the accepted producer index covers an index. -/
def Queue.coversIdx (x : Queue) (i : Nat) : Bool := idxDist x.cons i < idxDist x.cons x.pr

/-- A read of a ring entry that failed (R321, R335, R339, R359). One that was issued ahead of the PRODUCER that covers its slot now is read
again. -/
def State.entLost (s : State) (q i : Nat) : State :=
  if q = 0 then s.raiseFatal 0x04 i
  else
    let stale := (s.queue q).entStale
    let s := s.onQueue q (fun x => { x with entOut := none, halfEntry := none, entStale := false })
    if stale then s
    else if (s.queue q).coversIdx i then s.enterError q 3 i 0 else s.onQueue q giveUpAhead

/-- An entry of a recorded group cannot be read (R613): the REPLAY halts there, or ends with a status and the entry's address. A
halted REPLAY first writes its interim record. -/
def State.replayLost (s : State) (did : Nat) (halts : Bool) (status va : Nat) : State :=
  s.onDesc did (fun d =>
    if halts then { d with replayOut := false, replayFault := some va, phase := .saving }
    else { d with replayOut := false, replayStatus := if d.replayStatus = 0 then status else d.replayStatus,
                  replayWord1 := if d.replayStatus = 0 then word va else d.replayWord1, replayEnded := true })

/-- Advances the consumer index over the indices whose final records are written (R313). -/
def advanceCons : Nat → Queue → Queue
  | 0, x => x
  | n + 1, x =>
    if x.final.contains x.cons then
      advanceCons n { x with cons := idxAdd x.cons 1, final := x.final.filter (· != x.cons) }
    else x

/-- After a completion the block may read ahead of the owned entries, on speculative grades and in ENABLED (R321). -/
def State.readAhead (s : State) (q : Nat) : State :=
  if s.boundedQ q then s
  else s.onQueue q (fun x =>
    if x.state = .enabled then
      { x with spec := idxAdd x.cons (min (idxDist x.cons x.pr + s.actFld Reg.qmFetchCfg 3 0) (2 ^ x.log2)) }
    else { x with spec := x.pr })

/-- Puts a queue at the end of the order in which fetches are served (R329). -/
def State.wantFetch (s : State) (q : Nat) : State :=
  if s.fetchOrder.contains q then s else { s with fetchOrder := s.fetchOrder ++ [q] }

/-- A descriptor of a queue has completed with a status (R330): an error under STOP puts the queue into ERROR. -/
def State.errorStop (s : State) (q first status : Nat) : State :=
  if (s.queue q).stopMode ∧ 1 < status then s.enterError q 5 first status else s

/-- The final record of a chain is written, or dropped (R313, R340): its indices are no longer owned, and an error under STOP puts the
queue into ERROR. -/
def State.chainDone (s : State) (q first len status : Nat) : State :=
  let s := s.onQueue q (fun x => { x with final := (List.range len).map (idxAdd first ·) ++ x.final })
  let s := s.onQueue q (fun x => advanceCons x.final.length x)
  ((s.errorStop q first status).readAhead q).wantFetch q

/-- A final record of a queue is written: it counts, one for each entry of its chain (R131, Table 9-20). -/
def State.countRecord (s : State) (q : Nat) : State := s.bump (rkey Reg.qmQcnt q) 63 32

/-- The bytes of the completion record of a descriptor at a chain position. -/
def Desc.record (d : Desc) (pos status : Nat) (entries : Nat) (word1 : Word) : Bytes :=
  let h := headOf (d.entries.headD [])
  recordBytes (hTag h) (hPhase h) pos status d.skipped entries word1

/-- The ENTRIES of the record of a descriptor: of a REPLAY alone (Table 3-24). -/
def Desc.entriesDone (d : Desc) : Nat := if opcodeOf d.entries = 0x0E then d.replayDone else 0

/-! ### Issue -/

/-- Takes a descriptor off the list. -/
def State.dropDesc (s : State) (did : Nat) : State := { s with descs := s.descs.filter (fun d => d.id != did) }

/-- The interim record of a halted stream or REPLAY is written, or dropped: the descriptor counts as halted, and STREAM_HALTED
goes out (R132, R342). One that has ended meanwhile stays ended (R476, R420). -/
def State.interimDone (s : State) (did : Nat) : State :=
  match s.desc did with
  | none => s
  | some d =>
    if d.phase ≠ .saving then s else
    let obj := (d.fault.map (·.obj)).getD 0
    let va := (d.fault.map (·.va)).getD (d.replayFault.getD 0)
    ((s.setDesc { d with phase := .halted }).queueFlash d.queue 1 obj d.first va)

/-- A record of a chain is written, or dropped: the next position follows, down to the FIRST entry, whose record is final
(R131). `ok` says that the record was written. -/
def State.recordDone (s : State) (did pos : Nat) (ok : Bool) : State :=
  match s.desc did with
  | none => s
  | some d =>
    let d := { d with recordLeft := d.recordLeft.filter (· != pos) }
    let s := if ok then s.countRecord d.queue else s
    if pos = 0 then (s.dropDesc did).chainDone d.queue d.first d.entries.length d.status
    else s.setDesc d

/-- An access of the queue manager under translation that fails, with the status a stream would get: what the queue or the
descriptor then does (R335, R339, R340, R345, R613). -/
def State.qmLost (s : State) (q : Nat) (use : QmUse) (va : Nat) (halts : Bool) (status : Nat) : State :=
  match use with
  | .idxRead => s.idxLost q
  | .entRead i => s.entLost q i
  | .replayEnt did => s.replayLost did halts status va
  | .rcd did pos =>
    if did = 0 then s.raiseFatal 0x04 pos
    else
      let i := ((s.desc did).map (fun d => idxAdd d.first pos)).getD 0
      (s.enterError q 4 i 0).recordDone did pos false
  | .interim did => (s.enterError q 4 (((s.desc did).map (·.first)).getD 0) 0).interimDone did
  | .consWrite => if q = 0 then s.raiseFatal 0x04 (s.queue 0).cons else s.enterError q 4 (s.queue q).cons 0
  | .abortRcd _ => s

/-- Issues an access of the queue manager: under translation for a tenant queue (R310, R359), at a physical address for the
admin queue. An access whose address is in no cache waits for a walk. -/
def State.qmSend (s : State) (r : QmReq) : State :=
  let kind := if qmReads r.use then Access.read else Access.write
  let q := r.queue
  if q = 0 then
    match s.routePa r.va with
    | some dest => s.addReq (mkReq dest r.va r.len kind (qmOwner q r.use) ctlMaster q 0xFFFF none true r.data r.enables)
    | none => s.qmLost q r.use r.va false 0x21
  else
    let ctx := s.ctxOf q
    let tag := s.tagOf ctx
    let need : Need := { read := qmReads r.use, write := !qmReads r.use, atomic := false, stream := false }
    match s.look none ((tget s.qmResults q).getD []) tag r.va r.len need with
    | .walk va => ({ s with qmParked := s.qmParked ++ [r] }).startWalk none q none (s.isLc q) tag va
    | .fault row => (s.latchFault row (qmObj r.use) q ctx r.va).qmLost q r.use r.va (s.faultHalts ctx row) (faultStatus row)
    | .ok parts ranges =>
      match parts, s.cacheParity none ctx r.va with
      | _, (s, true) => ({ s with qmParked := s.qmParked ++ [r] }).startWalk none q none (s.isLc q) tag r.va
      | p :: _, (s, false) =>
        (match s.routePa p.pa with
         | some dest =>
           (s.countAccess ranges r.va r.len).addReq
             (mkReq dest p.pa r.len kind (qmOwner q r.use) ctlMaster q ctx (some tag) (s.isLc q) r.data r.enables)
         | none => s)
      | [], _ => s

/-- A read of the queue manager. -/
def qmRead (q va len : Nat) (use : QmUse) : QmReq :=
  { queue := q, va := va, len := len, data := [], enables := [], use := use }

/-- A write of the queue manager, of every byte of a string. -/
def qmWrite (q va : Nat) (data : Bytes) (use : QmUse) : QmReq :=
  { queue := q, va := va, len := data.length, data := data, enables := List.replicate data.length true, use := use }

/-- Whether a parked access may be tried again: a walk has left a result for its queue, or no walk runs for its address. -/
def State.qmDue (s : State) (r : QmReq) : Bool :=
  (tget s.qmResults r.queue).isSome || !s.walking none r.queue (s.tagOf (s.ctxOf r.queue)) r.va

/-- Walks begin and parked accesses that a walk has answered are issued, a bounded number of times. -/
def State.settleQm : Nat → State → State
  | 0, s => s
  | n + 1, s =>
    let s := s.startWalkers
    let due := s.qmParked.filter s.qmDue
    if due.isEmpty then s
    else
      let s := { s with qmParked := s.qmParked.filter (fun r => !s.qmDue r) }
      let s := due.foldl State.qmSend s
      settleQm n { s with qmResults := s.qmResults.filter (fun p => !due.any (fun r => r.queue == p.1)) }

/-- Whether the saved-position record or the interim record of a stream is on its way. -/
def State.savingOut (s : State) (did : Nat) : Bool :=
  s.reqs.any (fun r => r.owner == .save did || r.owner == .interim did) || s.qmParked.any (fun r => r.use == .interim did)

/-- Issues the next record of each descriptor that writes its records: from the last entry to the FIRST (R131), and after an interim record
that is still on its way (R420). -/
def State.pumpRecords (s : State) : State :=
  (s.descs.filter (fun d => d.phase == .recording)).foldl (fun s d =>
    match d.recordLeft with
    | [] => s
    | pos :: _ =>
      if s.savingOut d.id || s.reqs.any (fun r => r.owner == .rcd d.id pos) || s.qmParked.any (fun r => r.use == .rcd d.id pos) then s
      else
        s.qmSend (qmWrite d.queue (slotVa (s.queue d.queue) (idxAdd d.first pos))
          (d.record pos d.status d.entriesDone d.word1) (.rcd d.id pos))) s

/-! ### Fetching -/

/-- Reads of index blocks and entries in flight, those that wait for a walk among them (R329). -/
def State.fetchFlight (s : State) : Nat :=
  (s.reqs.filter (fun r => match r.owner with
    | .idx _ | .ent _ _ => true
    | _ => false)).length +
  (s.qmParked.filter (fun r => match r.use with
    | .idxRead | .entRead _ => true
    | _ => false)).length

/-- Fetched entries of a queue that are not admitted (R320). -/
def State.unadmitted (s : State) (q : Nat) : Nat :=
  let x := s.queue q
  (x.chains.map (fun c => c.entries.length)).sum + x.part.length + (if q = 0 then s.admin.cmds.length else 0)

/-- Whether the next entry of a queue may be read now (R320, R321, Table 9-2). -/
def State.mayFetch (s : State) (q : Nat) : Bool :=
  let x := s.queue q
  let ahead := if s.boundedQ q then 0 else idxDist x.cons x.spec
  (x.state == .enabled || x.state == .disabled) && x.entOut.isNone && !x.markOpen && s.unadmitted q < 64 &&
    idxDist x.cons x.next < max (idxDist x.cons x.pr) ahead

/-- Issues the reads that a queue may issue: its index block after a doorbell, in ENABLED alone (Table 9-2, R340), and its next entry; on a
speculative grade the header half of it (R323). -/
def State.kick (s : State) (q : Nat) : State :=
  let x := s.queue q
  let s :=
    if x.idxAgain ∧ x.idxOut = false ∧ s.fetchFlight < 256 then
      if x.state = .enabled then
        (s.setQueue q { x with idxAgain := false, idxOut := true }).qmSend (qmRead q x.idx 64 .idxRead)
      else (s.setQueue q { x with idxAgain := false }).endLastRead q
    else s
  if s.mayFetch q && s.fetchFlight < 256 then
    let x := s.queue q
    (s.setQueue q { x with entOut := some x.next }).qmSend
      (qmRead q (slotVa x x.next) (if s.boundedQ q then 128 else 64) (.entRead x.next))
  else s

/-- A dependence mark opens again once it and every earlier descriptor of its queue have completed (R98). -/
def State.liftMark (s : State) (q : Nat) : State :=
  let x := s.queue q
  if x.markOpen && x.chains.isEmpty && (s.descsOf q).isEmpty then (s.setQueue q { x with markOpen := false }).wantFetch q
  else s

/-- Writes CONSUMER where it has advanced past the value written and no write of it is outstanding (R312). -/
def State.writeCons (s : State) (q : Nat) : State :=
  let x := s.queue q
  let out := s.reqs.any (fun r => r.owner == .cons q) || s.qmParked.any (fun r => r.queue == q && r.use == .consWrite)
  if x.consWritten = x.cons ∨ out ∨ x.state = .absent then s
  else (s.setQueue q { x with consWritten := x.cons }).qmSend (qmWrite q (x.idx + 32) (leBytes 4 x.cons) .consWrite)

/-- R327: the block owns no entry, leaving out in ERROR those that were never admitted; no stream holds a slot or is halted; no
read of the index block or the ring is outstanding; and CONSUMER is written (R312). -/
def State.idleNow (s : State) (q : Nat) : Bool :=
  let x := s.queue q
  (x.state == .error || x.owned == 0) && (s.descsOf q).isEmpty && !x.idxOut && !x.idxAgain && x.entOut.isNone &&
    (x.consWritten == x.cons) && !s.reqs.any (fun r => r.owner == .cons q) && !s.qmParked.any (fun r => r.queue == q)

/-- A queue becomes idle (Table 9-8, step 5): IDLE, then IDLE_SIG as one buoy operation, then QUEUE_IDLE after a DISABLE_QUEUE
(R610, R342). -/
def State.becomeIdle (s : State) (q : Nat) : State :=
  let x := s.queue q
  let s := s.setQueue q { x with idle := true, idleSig := none, idleEvent := false }
  let s := match x.idleSig with
    | some w =>
      (match s.physOf x.ctx (fld w 11 0) with
       | some b => (s.signalOp x.ctx (fld w 11 0) b (fld w 14 12 == 1) (fld w 47 16)).1
       | none => s)
    | none => s
  if x.idleEvent then s.queueFlash q 3 0 x.cons 0 else s

/-- IDLE follows R327; a queue that stays idle while it is disabled still owes its IDLE_SIG and QUEUE_IDLE. -/
def State.settleIdle (s : State) (q : Nat) : State :=
  let x := s.queue q
  if s.idleNow q then
    if (x.idle && x.idleSig.isNone && !x.idleEvent) || x.lastRead then s else s.becomeIdle q
  else s.setQueue q { x with idle := false }

/-- Fetch requests of the latency-critical class come first, then bulk, each in doorbell order (R329). -/
def State.fetchTurn (s : State) : List Nat := s.fetchOrder.filter s.isLc ++ s.fetchOrder.filter (fun q => !s.isLc q)

/-- A queue that has nothing to fetch leaves the fetch order. -/
def State.trimFetch (s : State) : State :=
  { s with fetchOrder := s.fetchOrder.filter (fun q =>
      let x := s.queue q
      x.idxAgain || x.entOut.isSome || idxDist x.cons x.next < max (idxDist x.cons x.pr) (idxDist x.cons x.spec)) }

/-- The records of an abort phase go out one after the other (R345): one whose translation faults is dropped, one whose address is in no
cache waits for its walk. -/
def State.abortPump : Nat → State → State
  | 0, s => s
  | n + 1, s =>
    let s := s.startWalkers
    match s.qmParked with
    | [] => s
    | r :: rest =>
      let out := s.reqs.any (fun q => match q.owner with
        | .abortRcd _ _ => true
        | _ => false)
      if out || !s.qmDue r then s
      else
        let t := ({ s with qmParked := rest } : State).qmSend r
        let t := { t with qmResults := t.qmResults.filter (fun p => p.1 != r.queue) }
        if t.qmParked.length = rest.length then abortPump n t
        else ({ t with qmParked := r :: rest } : State).startWalkers

/-- What the queue manager does of its own with its queues after any step that concerns it. It issues nothing once a fatal event is
detected or in an abort phase. Each pass over the records issues one for every descriptor, and a chain has at most four (R131). -/
def State.pumpQm (s : State) : State :=
  if s.issuing then
    let s := (State.settleQm 4 s.sweepClaims).pumpRecords.pumpRecords.pumpRecords.pumpRecords
    let qs := s.queues.map (·.1)
    let s := qs.foldl State.liftMark s
    let s := s.fetchTurn.foldl State.kick s
    let s := qs.foldl State.writeCons s
    let s := qs.foldl State.settleIdle s
    (State.settleQm 2 s).trimFetch
  else if s.rst.abort then State.abortPump (s.qmParked.length + 1) s
  else s

/-! ### Doorbells -/

/-- A doorbell of a queue (R317): accepted in ENABLED, for the admin queue while ENABLE is 1, and ignored and counted otherwise. The debug
port does not reach the aperture. -/
def State.doorbell (s : State) (q : Nat) : State :=
  if s.nQueues ≤ q then s.evQm 1
  else
    match (s.queue q).state with
    | .absent => s.evQm 1
    | .enabled =>
      if q = 0 ∧ (s.queue 0).lastRead = true then (s.evQm 1).bump (rkey Reg.qmQcnt q) 15 0
      else if q = 0 ∨ s.queues.any (fun p => p.1 == q) then
        ((s.bump (rkey Reg.qmQcnt q) 31 16).onQueue q (fun x => { x with idxAgain := true, idle := false })).wantFetch q
      else s
    | _ => (s.evQm 1).bump (rkey Reg.qmQcnt q) 15 0

/-! ### Index blocks -/

/-- accept_producer of R319: the new highest producer index, or none for a ring overrun. -/
def acceptProducer (p pr c k : Nat) : Option Nat := if idxDist pr p + idxDist c pr ≤ 2 ^ k then some p else none

/-- accept_producer_spec of R322. -/
def acceptProducerSpec (p pr c k : Nat) : Option Nat :=
  if 2 ^ k < idxDist c p then none else if idxDist c pr < idxDist c p then some p else some pr

/-- A producer index is accepted: what is being read ahead of the one accepted before is discarded and read again (R321). -/
def takeProducer (pr : Nat) (x : Queue) : Queue :=
  if pr = x.pr then { x with idle := false }
  else
    let old := fun i => x.coversIdx i
    let y := if x.part.isEmpty || old (idxAdd x.next (2 ^ 32 - x.part.length)) then x else giveUpAhead x
    { y with pr := pr, idle := false, entStale := x.entStale || x.entOut.any (fun i => !old i) }

/-- An index block read has returned (R319, R322): PRODUCER is accepted, in ENABLED alone (R340), or the read is a ring overrun (R335,
R339). -/
def State.idxReturn (s : State) (q : Nat) (data : Bytes) : State :=
  let x := s.queue q
  let s := s.setQueue q { x with idxOut := false }
  if x.state ≠ .enabled then s.endLastRead q
  else
    let p := leAt data 0 4
    match (if s.boundedQ q then acceptProducer p x.pr x.cons x.log2 else acceptProducerSpec p x.pr x.cons x.log2) with
    | some pr => ((((s.onQueue q (takeProducer pr)).endLastRead q).readAhead q).wantFetch q)
    | none => if q = 0 then s.raiseFatal 0x03 p else (s.enterError q 1 p 0).endLastRead q

/-! ### Entries -/

/-- The framing checks of R316 on an entry at position `part.length` of a chain whose FIRST entry has index f. -/
def framed (x : Queue) (f : Nat) (e : Bytes) : Bool :=
  let h := headOf e
  let h0 := headOf (x.part.headD e)
  hPhase h == 1 - lapOf x f && nfld h 7 0 == nfld h0 7 0 && hLen h == hLen h0 && hPos h == x.part.length &&
    hFirst h == (x.part.length == 0) && hLast h == (hPos h == hLen h)

/-- The body bytes that Table 9-4 names for an admin command, from byte to byte. -/
def adminNamed (code : Nat) : List (Nat × Nat) :=
  if code = 0x40 then [(16, 56)]
  else if code = 0x43 then [(16, 18), (24, 32)]
  else if code = 0x44 ∨ code = 0x46 ∨ code = 0x47 then [(16, 18), (28, 32)]
  else if code = 0x45 then [(16, 18), (21, 23), (25, 26)]
  else [(16, 18)]

/-- Whether an admin entry has a known code and every reserved byte zero (R332, R335). -/
def adminSound (e : Bytes) : Bool :=
  let h := headOf e
  let code := nfld h 7 0
  0x40 ≤ code && code ≤ 0x47 && nfld h 63 48 == 0 && nfld h 31 16 == 0 && nfld h 14 14 == 0 &&
    (List.range 120).all (fun i => (adminNamed code).any (fun r => r.1 ≤ i + 8 && i + 8 < r.2) || leAt e (i + 8) 1 == 0)

/-- The record index of a descriptor that has taken none (R298). -/
def noRecord : Nat := 64

/-- A descriptor with nothing known of it yet. -/
def Desc.blank : Desc where
  id := 0
  queue := 0
  first := 0
  entries := []
  order := 0
  parent := none
  iter := 0
  ent := 0
  phase := .waiting
  began := false
  waits := []
  predVal := 0
  sigs := []
  late := []
  epoch := 0
  resolved := []
  geo := mkGeo [] (fun _ => 0)
  mover := none
  recIdx := noRecord
  pos := 0
  rdPos := 0
  rdDone := 0
  ins := []
  recent := []
  runs := []
  stagedLimbs := 0
  placed := []
  idxScan := 0
  seeds := []
  wakes := []
  results := []
  wr := none
  rmwOut := false
  fault := none
  faultIsHalt := false
  faultCause := 0
  status := 0
  word1 := 0
  skipped := false
  noted := 0
  replaced := 0
  corrected := 0
  sigChip := none
  lines := []
  acks := []
  recordLeft := []
  chan := none
  idxDone := 0
  stagingKib := 0
  staged := false
  stagingWait := false
  holdLeft := false
  eccLimb := none
  cores := []
  coreWait := false
  liftSlot := none
  liftWait := false
  levels := []
  liftPos := 0
  outDone := false
  replayEnts := []
  replayPart := []
  replayIter := 0
  replayEnt := 0
  replayOut := false
  replayDone := 0
  replayStatus := 0
  replayWord1 := 0
  replayFault := none
  replayMark := false
  replayEnded := false
  replayFail := none
  begunAt := 0
  resumeStamp := 0
  slotWaited := false
  haltedAt := 0

/-- Adds a descriptor under a fresh identity. -/
def State.addDesc (s : State) (d : Desc) : State := ({ s with descs := s.descs ++ [{ d with id := s.ids, order := s.ids }] }).useId

/-- Whether a chain carries a dependence mark (R98). -/
def marked (es : List Bytes) : Bool := hDepMark (headOf (ent es 0)) || opcodeOf es == 0x0F

/-- A whole chain of a tenant queue has been fetched: one that fails the checks of R129 completes with MALFORMED at once, any
other waits for admission; a dependence mark closes the queue (R98). -/
def State.chainFetched (s : State) (q f : Nat) (es : List Bytes) : State :=
  let s := if marked es then s.onQueue q (fun x => { x with markOpen := true }) else s
  match fetchStatus es with
  | (0, _) =>
    (s.onQueue q (fun x => { x with chains := x.chains ++ [{ first := f, entries := es, stamp := s.ids, waited := false }] })).useId
  | (st, w) => s.addDesc { Desc.blank with queue := q, first := f, entries := es, phase := .finishing, status := st, word1 := w }

/-- An admin entry has been fetched (R332, R335). -/
def State.adminFetched (s : State) (i : Nat) (e : Bytes) : State :=
  if hLen (headOf e) ≠ 0 then s.raiseFatal 0x01 i
  else if adminSound e then
    { s with admin := { s.admin with cmds := s.admin.cmds ++ [{ index := i, entry := e, begun := false }] } }
  else s.raiseFatal 0x02 i

/-- A whole entry has been read (R316, R321, R322): it joins its chain, or fails framing. -/
def State.takeEntry (s : State) (q i : Nat) (e : Bytes) : State :=
  let s := if q = 0 then
      { s with admin := { s.admin with recent := (s.admin.recent ++ [(i, e)]).drop (s.admin.recent.length - 15) } }
    else s
  let x := s.queue q
  let f := idxAdd i (2 ^ 32 - x.part.length)
  if framed x f e then
    let es := x.part ++ [e]
    if hLast (headOf e) then
      let past := idxAdd i 1
      let pr := if idxDist x.cons x.pr < idxDist x.cons past then past else x.pr
      let s := s.setQueue q { x with part := [], next := past, pr := pr }
      if q = 0 then s.adminFetched i e else s.chainFetched q f es
    else if q = 0 then s.raiseFatal 0x01 i
    else s.setQueue q { x with part := es, next := idxAdd i 1 }
  else if q = 0 then s.raiseFatal 0x01 i
  else if x.coversIdx i then s.enterError q 2 i 0
  else s.setQueue q (giveUpAhead x)

/-- An entry read has returned, or its header half on a speculative grade, whose other half is then read (R323). A stale one is
discarded (R321). -/
def State.entReturn (s : State) (q i : Nat) (data : Bytes) : State :=
  let x := s.queue q
  if !(x.state == .enabled || x.state == .disabled) || x.entStale then
    s.setQueue q { x with entOut := none, halfEntry := none, entStale := false }
  else if s.boundedQ q then (s.setQueue q { x with entOut := none }).takeEntry q i data
  else
    match x.halfEntry with
    | none => (s.setQueue q { x with halfEntry := some data }).qmSend (qmRead q (slotVa x i + 64) 64 (.entRead i))
    | some h => (s.setQueue q { x with entOut := none, halfEntry := none }).takeEntry q i (h ++ data)

end Sys2Proof.Machine
end

