-- ==== Sys2Proof/Machine/Admission.lean ====
section
/-! DEFINITION. Admission of descriptors (R97, R376, R390), stream slots (R275 to R281), the registration of waits (R88), and the
reading of recorded groups (R123 to R126, R613); what the queue manager does of its own after a step, and the commands that return its
reads. -/

namespace Sys2Proof.Machine

/-! ### Order in a queue -/

/-- The place of a descriptor in its queue's order: by its FIRST entry, and among replayed ones by iteration and entry. A REPLAY
comes after what it replays (R123, R127). -/
def Desc.key (cons : Nat) (d : Desc) : Nat :=
  2 ^ 50 * idxDist cons d.first + (if d.parent.isNone then 2 ^ 50 - 1 else 2 ^ 13 * d.iter + d.ent)

/-- The descriptors of the same queue that come before one in queue order and are not complete. -/
def State.before (s : State) (d : Desc) : List Desc :=
  let c := (s.queue d.queue).cons
  s.descs.filter (fun e => e.queue == d.queue && e.id != d.id && e.key c < d.key c)

/-- A descriptor that has ended or is about to write its record. -/
def Desc.ended (d : Desc) : Bool := d.phase == .finishing || d.phase == .recording

/-! ### REPLAY -/

/-- The base, the entries and the iterations of a REPLAY that has begun (Table 3-23): its resolved references are kept as those of
PREF bits 14 and 15. -/
def Desc.groupBase (d : Desc) : Nat := d.resolved.getD 14 0
def Desc.groupRepeat (d : Desc) : Nat := d.resolved.getD 15 0
def Desc.groupEntries (d : Desc) : Nat := leAt (d.entries.headD []) 72 4

/-- A REPLAY that admits nothing further: every copy is admitted, or it has ended (R127, R128). -/
def Desc.replayAll (d : Desc) : Bool := d.ended || d.replayEnded || (d.began && d.groupRepeat ≤ d.replayIter)

/-- The REPLAY descriptors of a queue. -/
def State.replays (s : State) (q : Nat) : List Desc :=
  s.descs.filter (fun d => d.queue == q && d.parent.isNone && opcodeOf d.entries == 0x0E)

/-- A dependence mark inside a recorded group holds until every descriptor before it is complete (R98, R123). -/
def State.markHolds (s : State) (d : Desc) : Bool := d.replayMark && s.descs.any (fun e => e.queue == d.queue && e.id != d.id)

/-- The REPLAY of a queue whose copies are still being admitted. -/
def State.openReplay (s : State) (q : Nat) : Option Desc := (s.replays q).find? (fun d => !d.replayAll || s.markHolds d)

/-- Whether a replayed descriptor of a REPLAY has ended with an error: nothing more of the REPLAY is admitted (R128). -/
def State.childFailed (s : State) (did : Nat) : Bool := s.descs.any (fun e => e.parent == some did && e.ended && 1 < e.status)

/-- Whether a REPLAY goes on admitting now. -/
def State.replaying (s : State) (d : Desc) : Bool :=
  d.phase == .running && !d.replayAll && !s.markHolds d && !s.childFailed d.id

/-- Reads the next entry of a recorded group, if the REPLAY runs and admits (R613). -/
def State.replayRead (s : State) (did : Nat) : State :=
  match s.desc did with
  | none => s
  | some d =>
    let whole := hLast (headOf (d.replayPart.getLastD []))
    if s.replaying d && !d.replayOut && !whole && d.replayEnt < d.groupEntries then
      (s.setDesc { d with replayOut := true, replayMark := false }).qmSend
        (qmRead d.queue (d.groupBase + 128 * (d.replayEnt + d.replayPart.length)) 128 (.replayEnt did))
    else s

/-- The step slots of a REPLAY that are enabled: parameter and step (Table 3-23). -/
def replaySteps (e : Bytes) : List (Nat × Nat) :=
  (List.range 4).filterMap (fun j =>
    let b := leAt e (80 + 12 * j) 1
    if nbit b 7 then some (b % 64, leAt e (84 + 12 * j) 8) else none)

/-- The PARAM_SET with MODE ADD that R123 places after a copy for a step slot. -/
def stepEntry (p v : Nat) : Bytes :=
  leBytes 8 0x30D ++ zeros 56 ++ leBytes 1 p ++ leBytes 1 1 ++ leBytes 1 1 ++ zeros 5 ++ leBytes 8 v ++ zeros 48

/-- A replayed descriptor that R123 inserts after a copy; it is not counted (R127). -/
def Desc.isStep (d : Desc) (replay : Desc) : Bool := replay.groupEntries ≤ d.ent

/-- A replayed chain of some entries leaves the REPLAY, which goes on after them. -/
def State.replayAdvance (s : State) (did n : Nat) (mark : Bool) : State :=
  s.onDesc did (fun d => { d with replayPart := [], replayMark := mark, replayEnt := d.replayEnt + n, slotWaited := false })

/-- At the end of a copy its steps follow (R123), behind a mark on its last chain (R98), and the next copy begins. -/
def State.replayStep (s : State) (did : Nat) : State :=
  match s.desc did with
  | none => s
  | some d =>
    if !s.replaying d || d.replayEnt < d.groupEntries then s
    else
      let s := s.setDesc { d with replayEnt := 0, replayIter := d.replayIter + 1, replayMark := false }
      let steps := replaySteps (d.entries.headD [])
      (List.range steps.length).foldl (fun s j =>
        let (p, v) := steps.getD j (0, 0)
        s.addDesc { Desc.blank with queue := d.queue, first := d.first, entries := [stepEntry p v], phase := .ready,
                                    parent := some did, iter := d.replayIter, ent := d.groupEntries + j }) s

/-! ### What is admitted next -/

/-- The next descriptor of a queue that could be admitted: a fetched chain, or a replayed one. -/
structure Adm where
  queue : Nat
  first : Nat
  entries : List Bytes
  stamp : Nat
  parent : Option Nat
  iter : Nat
  ent : Nat
deriving DecidableEq, Repr

/-- The next descriptor in queue order (R97, R123, Table 9-2). Nothing is admitted past a REPLAY that has not admitted its
copies, or past a closed mark. -/
def State.nextAdm (s : State) (q : Nat) : Option Adm :=
  let x := s.queue q
  match s.openReplay q with
  | some d =>
    if s.replaying d && hLast (headOf (d.replayPart.getLastD [])) then
      some { queue := q, first := d.first, entries := d.replayPart, stamp := d.order, parent := some d.id,
             iter := d.replayIter, ent := d.replayEnt }
    else none
  | none =>
    match x.chains with
    | c :: _ =>
      if q ≠ 0 ∧ (x.state = .enabled ∨ x.state = .disabled) then
        some { queue := q, first := c.first, entries := c.entries, stamp := c.stamp, parent := none, iter := 0, ent := 0 }
      else none
    | [] => none

/-- Takes a descriptor that is admitted, or that ends at its admission, off its source. -/
def State.takeAdm (s : State) (a : Adm) : State :=
  match a.parent with
  | some did => (s.replayAdvance did a.entries.length (marked a.entries)).onQueue a.queue (fun x => { x with slotAsk := 0 })
  | none => s.onQueue a.queue (fun x => { x with chains := x.chains.drop 1, slotAsk := 0 })

/-! ### Resolution of identifiers -/

/-- The waits in force of a chain: condition, value and identifier, with the offset of the word. -/
def waitsIn (es : List Bytes) : List (Nat × Nat × Nat × Nat) :=
  (List.range 4).filterMap (fun w =>
    let x := waitWord (ent es 0) w
    if nbit x 15 then some (16 + 8 * w, nfld x 14 12, nfld x 47 16, nfld x 11 0) else none)

/-- Whether the signals of a chain all act on another chip: a SIGNAL with REMOTE_EN (R102). -/
def remoteSignal (es : List Bytes) : Bool := opcodeOf es == 0x0A && nbit (leAt (ent es 0) 64 4) 31

/-- The identifiers that a chain resolves at admission, with the offset of the word (R376). -/
def identsIn (es : List Bytes) : List (Nat × Nat) :=
  let e := ent es 0
  (if hPredEn (headOf e) then [(8, nfld (leAt e 8 8) 11 0)] else []) ++
    (waitsIn es).map (fun w => (w.1, w.2.2.2)) ++
    (List.range 2).filterMap (fun k =>
      let x := sigWord e k
      if sgEn x && !sgRemote x && !remoteSignal es then some (48 + 8 * k, sgBuoy x) else none)

/-- A descriptor that ends at its admission: STATE_CONFLICT for an unmapped identifier (R376), DATA_CHECK with address zero for
a wait or predicate on a poisoned buoy (R384). -/
def State.admitFail (s : State) (q : Nat) (es : List Bytes) : Option (Nat × Word) :=
  let ctx := s.ctxOf q
  match least ((identsIn es).filterMap (fun p => if (s.physOf ctx p.2).isNone then some p.1 else none)) with
  | some off => some (0x13, fieldWord off)
  | none =>
    if (identsIn es).any (fun p => p.1 < 48 && (s.physOf ctx p.2).any (fun b => (s.buoy b).poison)) then some (0x30, 0)
    else none

/-! ### Wait entries and slots -/

/-- The wait entries that a queue holds (R390). -/
def State.waitEntries (s : State) (q : Nat) : Nat :=
  (s.descs.filter (fun d => d.queue == q && d.phase == .waiting)).length

/-- Whether a queue may take one more wait entry (R390): its first always, and up to 8 while the shared remainder lasts. -/
def State.waitRoom (s : State) (q : Nat) : Bool :=
  let n := s.waitEntries q
  let shared := (s.queues.map (fun p => s.waitEntries p.1 - 1)).sum
  n == 0 || (n < 8 && shared < s.nQueues)

/-- The streams of a queue that count against its limit: those that hold a slot, and the halted ones (R279). -/
def State.streamCount (s : State) (q : Nat) : Nat :=
  (s.descs.filter (fun d => d.queue == q && isStream d.entries &&
    (d.mover.isSome || d.phase == .saving || d.phase == .halted || d.phase == .resuming))).length

/-- The lowest free record index of a queue (R298): the spec gives the range of the index and not which free one a stream takes (DESIGN
CHOICE, log entry 118). -/
def State.freeRecord (s : State) (q : Nat) : Nat :=
  (searchUp (fun r => !s.descs.any (fun d => d.queue == q && d.recIdx == r)) noRecord 0).getD noRecord

/-- Whether a queue is below its stream limit (R279), and a record of its save area is free: a stream occupies one until it completes
(R298). -/
def State.limitRoom (s : State) (q : Nat) : Bool :=
  s.streamCount q < (s.queue q).limit && s.freeRecord q < (s.queue q).limit

/-- Whether the bulk streams of a group may take one more slot (R280). -/
def State.bulkRoom (s : State) (g : Nat) : Bool :=
  let n := s.groupSlots g
  let held := ((s.groupMovers g).map (fun m => ((s.onMover m).filter (fun d => !s.isLc d.queue)).length)).sum
  held < n - min (s.actFld (Reg.mvCfg g) 5 0) (n - 1)

/-- Whether R280 lets a queue take a slot. -/
def State.classRoom (s : State) (q : Nat) : Bool := s.isLc q || s.bulkRoom (s.groupOf q)

/-- The present mover of a group with the fewest occupied slots, the lowest on a tie, if one has a slot free (R278). -/
def State.pickMover (s : State) (g : Nat) : Option Nat :=
  ((s.groupMovers g).foldl (fun best m =>
    let n := (s.onMover m).length
    match best with
    | some (_, k) => if n < k then some (m, n) else best
    | none => if n < 8 then some (m, n) else none) (none : Option (Nat × Nat))).map (·.1)

/-- The next descriptor of a queue when it is a request for a slot in the sense of R281: a stream that nothing but a free slot
holds back. -/
def State.slotRequest (s : State) (q : Nat) : Option Adm :=
  (s.nextAdm q).filter (fun a =>
    isStream a.entries && (s.admitFail q a.entries).isNone && ((waitsIn a.entries).isEmpty || s.waitRoom q) &&
      s.limitRoom q && s.classRoom q)

/-- The resumed streams of a group that request a slot (R281). -/
def State.resumeRequests (s : State) (g : Nat) : List Desc :=
  s.descs.filter (fun d => d.phase == .resuming && d.resumeStamp != 0 && s.groupOf d.queue == g && s.classRoom d.queue)

/-- The time of a request for a slot is that at which nothing but a free slot came to hold it back (R281): the next admissions of the queues
that are requests now, and were none before, take their places in the order of their fetching, and a resumed stream that R280 holds back
takes a later place. -/
def State.stampRequests (s : State) : State :=
  let asks := sortBy (fun (a b : Adm) => decide (a.stamp ≤ b.stamp)) (s.queues.filterMap (fun p => s.slotRequest p.1))
  let s := { s with queues := s.queues.map (fun (p : Nat × Queue) =>
    (p.1, if asks.any (fun a => a.queue == p.1) then p.2 else { p.2 with slotAsk := 0 })) }
  let s := asks.foldl (fun s a =>
    if (s.queue a.queue).slotAsk = 0 then (s.onQueue a.queue (fun x => { x with slotAsk := s.ids })).useId else s) s
  let late := s.descs.filter (fun d => d.phase == .resuming && d.resumeStamp != 0 && !s.classRoom d.queue)
  late.foldl (fun s d => (s.onDesc d.id (fun d => { d with resumeStamp := s.ids })).useId) s

/-- R281: a descriptor awaiting admission gets a slot after every resumed stream, after a latency-critical request if it is bulk,
and after the earlier requests of its class. -/
def State.slotTurn (s : State) (a : Adm) : Bool :=
  let g := s.groupOf a.queue
  (s.slotRequest a.queue).isSome && (s.resumeRequests g).isEmpty &&
    s.queues.all (fun p => p.1 == a.queue || s.groupOf p.1 != g ||
      (s.slotRequest p.1).all (fun b =>
        (s.isLc a.queue && !s.isLc p.1) || (s.isLc a.queue == s.isLc p.1 && (s.queue a.queue).slotAsk < (s.queue b.queue).slotAsk)))

/-! ### Admission -/

/-- A descriptor as it stands right after its admission. -/
def State.freshDesc (s : State) (a : Adm) (mover : Option Nat) : Desc :=
  let ctx := s.ctxOf a.queue
  let phys := fun i => (s.physOf ctx i).getD 0
  let waits := (waitsIn a.entries).map (fun (_, c, v, i) =>
    { cond := c, value := v, phys := phys i, ident := i, met := false, registered := c != 4 : WaitSt })
  let sigs := (List.range 2).map (fun k =>
    let x := sigWord (ent a.entries 0) k
    if sgEn x then some { word := word x, phys := phys (sgBuoy x), slices := 0 : SigSt } else none)
  { Desc.blank with queue := a.queue, first := a.first, entries := a.entries, parent := a.parent, iter := a.iter,
                    ent := a.ent, phase := if waits.isEmpty then .ready else .waiting, waits := waits, sigs := sigs,
                    mover := mover, recIdx := if mover.isSome then s.freeRecord a.queue else noRecord }

/-- The waits of a descriptor are registered and tested against their buoys (R88), and its claims as far as R89 allows. -/
def State.registerWaits (s : State) (did : Nat) : State :=
  match s.desc did with
  | none => s
  | some d =>
    let t := (List.range d.waits.length).foldl (fun s w =>
      match d.waits[w]? with
      | some x => if x.cond ≠ 4 ∧ condHolds x.cond (s.buoy x.phys).value x.value then s.meetWait did w else s
      | none => s) (s.registerClaim did)
    s.settled t

/-- Admits a descriptor (Table 3-9, step 2), which wakes a reported group (R413). -/
def State.enter (s : State) (a : Adm) (mover : Option Nat) : State :=
  let did := (s.takeAdm a).ids
  let d := s.freshDesc a mover
  (((s.takeAdm a).addDesc d).wakeGroup (s.groupOf a.queue)).registerWaits did

/-- An admission that waits for a slot counts once in SLOT_WAITS (Table 8-7). -/
def State.slotWait (s : State) (a : Adm) : State :=
  let count := fun (s : State) => s.bump (Reg.mvCnt (s.groupOf a.queue)) 31 16
  match a.parent with
  | some did =>
    (match s.desc did with
     | some d => if d.slotWaited then s else count (s.setDesc { d with slotWaited := true })
     | none => s)
  | none =>
    (match (s.queue a.queue).chains with
     | c :: r => if c.waited then s else count (s.onQueue a.queue (fun x => { x with chains := { c with waited := true } :: r }))
     | [] => s)

/-- A REPLAY that admits nothing further and whose replayed descriptors are all complete ends, with the status of R127. -/
def State.closeReplay (s : State) (did : Nat) : State :=
  s.onDesc did (fun d =>
    if d.phase == .running && d.replayAll && !d.replayOut && !s.descs.any (fun e => e.parent == some did) then
      { d with phase := .finishing, status := d.replayStatus, word1 := d.replayWord1 }
    else d)

/-- The REPLAY descriptors go on: one that is done ends, any other takes its steps and reads its next entry where it may. -/
def State.pumpReplays (s : State) : State :=
  if s.issuing then
    (s.descs.filter (fun d => d.parent.isNone && opcodeOf d.entries == 0x0E)).foldl
      (fun s d => ((s.replayStep d.id).closeReplay d.id).replayRead d.id) s
  else s

/-! ### After a step -/

/-- Whether something waits for a posted write to reach host memory (R417): the end, the halt or a release of its stream, a FENCE with
RELEASE 1 behind it, an invalidation, or, for a write of the queue manager or of another chip, its own record or acknowledgement. -/
def State.postedAwaited (s : State) (r : MemReq) : Bool :=
  s.xl.invs.any (fun i => i.waits.contains r.id || i.waits.contains r.unit) ||
    (match s.desc r.owner.stream with
     | none => true
     | some d => d.phase != .running || !d.late.isEmpty ||
         s.descs.any (fun f => opcodeOf f.entries == 0x0C && f.began && f.phase == .running &&
           hRelease (headOf (f.entries.headD [])) && (s.before f).any (fun e => e.id == d.id)))

/-- The flush reads of the tier 2 ports (R417, R579): one zero-length read where something waits for a posted write that no flush read
issued later covers. -/
def State.pumpFlush (s : State) : State :=
  (s.xpOf 1).foldl (fun s e =>
    if s.reqs.any (fun r => r.posted && r.dest == .ext e && s.postedAwaited r &&
        !s.reqs.any (fun f => f.owner == .flush e && r.id < f.id)) then
      s.addReq (mkReq (.ext e) tier2Base 0 .read (.flush e) ctlMaster 0 0xFFFF none true [] [])
    else s) s

/-- What the queue manager and the ports do of their own after any step that concerns them. -/
def State.pump (s : State) : State := s.pumpQm.stampRequests.pumpFlush


/-- ADMIT (R97): the next descriptor of a queue. A data descriptor of a group that is retired takes no slot; it ends when it
begins (R538). -/
def State.admitNext (s : State) (q : Nat) : State :=
  match s.nextAdm q with
  | none => s
  | some a =>
    match s.admitFail q a.entries with
    | some (st, w) =>
      (s.takeAdm a).addDesc { Desc.blank with queue := q, first := a.first, entries := a.entries, parent := a.parent,
                                              iter := a.iter, ent := a.ent, phase := .finishing, status := st, word1 := w }
    | none =>
      if !((waitsIn a.entries).isEmpty || s.waitRoom q) then s
      else if isStream a.entries && s.hasGroup (s.groupOf q) then
        (match s.slotTurn a, s.pickMover (s.groupOf q) with
         | true, some m => s.enter a (some m)
         | _, _ => s.slotWait a)
      else s.enter a none

/-- The queue binding that an admission reads is control state (R534): an injected error counts, and an uncorrectable one is mended
from the second copy. -/
def State.controlEcc (s : State) (q : Nat) : State :=
  match s.inject 7 0 (some (s.ctxOf q)) with
  | (s, .clean) => s
  | (s, .corrected) => s.countEcc 7 0 false
  | (s, .uncorrectable) => s.countEcc 7 0 true

/-- ADMIT (R97). -/
def execAdmit (q : Nat) (s : State) : Host.Outcome State Fault Refusal :=
  whenIssuing (fun s => ((((s.controlEcc q).stampRequests).admitNext q).pumpReplays).pump) s

/-! ### Recorded entries -/

/-- The framing of a recorded entry inside its group (R126): PHASE is ignored, the rest of the chain shape holds, no chain runs
past the group, and no REPLAY is in it. -/
def recordedOk (d : Desc) (e : Bytes) : Bool :=
  let h := headOf e
  let h0 := headOf (d.replayPart.headD e)
  let at' := d.replayEnt + d.replayPart.length
  nfld h 7 0 == nfld h0 7 0 && hLen h == hLen h0 && hPos h == d.replayPart.length &&
    hFirst h == (d.replayPart.length == 0) && hLast h == (hPos h == hLen h) && nfld h 7 0 != 0x0E &&
    (hLast h || at' + 1 < d.groupEntries)

/-- A replayed descriptor that ends at its reading. -/
def replayedEnd (d : Desc) (es : List Bytes) (st : Nat) (w : Word) : Desc :=
  { Desc.blank with queue := d.queue, first := d.first, entries := es, parent := some d.id, iter := d.replayIter,
                    ent := d.replayEnt, phase := .finishing, status := st, word1 := w }

/-- A recorded entry has been read (R124, R126, R129): it joins its chain; a whole chain is admitted when it may be. -/
def State.replayTake (s : State) (d : Desc) (e : Bytes) : State :=
  let s := s.setDesc { d with replayOut := false }
  let es := d.replayPart ++ [e]
  if recordedOk d e then
    let s := s.onDesc d.id (fun d => { d with replayPart := es })
    if hLast (headOf e) then
      match fetchStatus es with
      | (0, _) => s.admitNext d.queue
      | (st, w) => (s.replayAdvance d.id es.length (marked es)).addDesc (replayedEnd d es st w)
    else s
  else
    (s.onDesc d.id (fun d => { d with replayPart := [], replayEnded := true })).addDesc
      (replayedEnd d es 0x10 (fieldWord (128 * d.replayPart.length)))

/-- REPLAY_ENTRY_READ_RESPONSE (R613). -/
def execReplayEntryReadResponse (did : Nat) (data : Bytes) (err : Bool) (s : State) : Host.Outcome State Fault Refusal :=
  whenIssuing (fun s =>
    match s.reqs.find? (fun r => r.owner == .replayEnt did && r.answerable), s.desc did with
    | some r, some d =>
      let s := (s.passOn r).dropReq r.id
      let va := d.groupBase + 128 * (d.replayEnt + d.replayPart.length)
      ((if r.failed err then s.replayLost did false 0x30 va else s.replayTake d (r.result data)).pumpReplays).pump
    | _, _ => s) s

/-! ### What returns to the queue manager -/

/-- DOORBELL (R317). -/
def execDoorbell (p : Port) (q : Nat) (s : State) : Host.Outcome State Fault Refusal :=
  match p with
  | .debug => answer s s
  | _ => whenNormal (fun s =>
      if s.issuing then (s.doorbell q).pump
      else if s.rst.abort then s
      else s.doorbell q) s

/-- INDEX_BLOCK_READ_RESPONSE (R319). -/
def execIndexBlockReadResponse (q : Nat) (data : Bytes) (err : Bool) (s : State) : Host.Outcome State Fault Refusal :=
  whenIssuing (fun s =>
    match s.reqs.find? (fun r => r.owner == .idx q && r.answerable) with
    | none => s
    | some r =>
      let s := (s.passOn r).dropReq r.id
      (if r.failed err then s.idxLost q else s.idxReturn q (r.result data)).pump) s

/-- ENTRY_READ_RESPONSE (R316). -/
def execEntryReadResponse (q : Nat) (data : Bytes) (err : Bool) (s : State) : Host.Outcome State Fault Refusal :=
  whenIssuing (fun s =>
    match (s.queue q).entOut with
    | none => s
    | some i =>
      match s.reqs.find? (fun r => r.owner == .ent q i && r.answerable) with
      | none => s
      | some r =>
        let s := (s.passOn r).dropReq r.id
        ((if r.failed err then s.entLost q i else s.entReturn q i (r.result data)).wantFetch q).pump) s

/-- WALK_GRANULE_READ (R362): a granule of a walk has been read; what waited for the walk goes on. -/
def execWalkGranuleRead (w : Nat) (data : Bytes) (err : Bool) (s : State) : Host.Outcome State Fault Refusal :=
  whenServing (fun s =>
    match s.reqs.find? (fun r => r.owner == .walk w && r.answerable), s.xl.walks.find? (fun x => x.id == w) with
    | some r, some x => ((((s.passOn r).dropReq r.id).walkStep x (r.result data) (r.failed err)).startWalkers).pump
    | _, _ => s) s

end Sys2Proof.Machine
end

