-- ==== Sys2Proof/Machine/Begin.lean ====
section
/-! DEFINITION. The begin of execution (Table 3-9, step 4): references (R118, R119), checks (R130), REMOTE lookups (R94), the
predicate (R90), and the control descriptors NOP, SIGNAL, WAIT, FENCE, PARAM_SET, REPLAY and MARK (R98 to R102, R119 to R128). -/

namespace Sys2Proof.Machine

/-! ### When a descriptor may begin -/

/-- Whether a descriptor holds a reference (R116). -/
def Desc.hasRefs (d : Desc) : Bool := hPref (headOf (d.entries.headD [])) != 0

/-- A descriptor may begin when its waits are met, no earlier WAIT of its queue is unmet, and, if it holds a reference, every
earlier PARAM_SET has taken effect (Table 3-9, step 4; R99, R119). -/
def State.mayBegin (s : State) (d : Desc) : Bool :=
  d.phase == .ready && !d.began &&
    !(s.before d).any (fun e => opcodeOf e.entries == 0x0B && e.phase == .waiting) &&
    (!d.hasRefs || !(s.before d).any (fun e => opcodeOf e.entries == 0x0D && !e.ended))

/-- A parameter register of a queue. -/
def State.param (s : State) (q p : Nat) : Word := (tget (s.queue q).params p).getD 0

/-- The predicate of a descriptor that begins (R90, R384): none when its buoy is poisoned, otherwise whether it holds. -/
def State.predicate (s : State) (d : Desc) : Option Bool :=
  if !d.predEn then some false
  else
    let w := leAt (d.entries.headD []) 8 8
    match s.physOf (s.ctxOf d.queue) d.predIdent with
    | none => some false
    | some b =>
      if (s.buoy b).poison then none
      else
        let v := if d.waits.isEmpty then (s.buoy b).value else d.predVal
        some (condHolds (nfld w 14 12) v (nfld w 47 16))

/-- The descriptor has begun: its commit epoch and its place in the orders of R196. -/
def State.begun (s : State) (d : Desc) : Desc := { d with began := true, epoch := s.commit.epoch, begunAt := s.ids }

/-- A control descriptor begins (R101): the checks of R130 come first, a retired group standing for ABSENT_UNIT among them (R538; its word 1
is 0, DESIGN CHOICE, log entry 114), a predicate that holds skips it, a poisoned predicate ends it with DATA_CHECK, and otherwise it
runs. -/
def State.beginControl (s : State) (did op : Nat) (run : State → Desc → State) : State :=
  match s.desc did with
  | none => s
  | some d =>
    if !(opcodeOf d.entries == op && s.mayBegin d) then s
    else
      let (st, w) := Sys2Proof.Machine.beginControl d.entries (s.param d.queue)
      if st = 0x10 then s.setDesc (endWith d st w)
      else if !s.hasGroup (s.groupOf d.queue) then s.setDesc (endWith d 0x12 0)
      else if st ≠ 0 then s.setDesc (endWith d st w)
      else match s.predicate d with
        | none => s.setDesc (endWith d 0x30 0)
        | some true => (s.setDesc { s.begun d with phase := .finishing, skipped := true }).useId
        | some false => run s.useId (s.begun d)

/-- A descriptor that has nothing to do but complete. -/
def State.runNothing (s : State) (d : Desc) : State := s.setDesc { d with phase := .finishing }

/-! ### Control descriptors -/

/-- Whether a descriptor moves data, itself or through what it replays. -/
def Desc.writesData (d : Desc) : Bool := isData (opcodeOf d.entries) || opcodeOf d.entries == 0x0E

/-- Whether a stream has writes or line items that have not reached coherence. -/
def State.writesOut (s : State) (did : Nat) : Bool :=
  s.reqs.any (fun r => match r.owner with
    | .dst d _ _ _ => d == did
    | .rmw d _ => d == did
    | _ => false) ||
  s.fab.out.any (fun p => p.2.did == did && !(p.2.items.isEmpty && p.2.waiting.isEmpty)) ||
  s.cps.any (fun p => p.2.dlv.any (fun x => x.1 == did))

/-- The condition of a FENCE (R100): every earlier descriptor has issued all its writes, and under RELEASE they have all reached
coherence. -/
def State.fenceMet (s : State) (d : Desc) : Bool :=
  (s.before d).all (fun e => !e.writesData ||
    (e.ended && (!hRelease (headOf (d.entries.headD [])) || !s.writesOut e.id)))

/-- A FENCE that has begun completes once its condition holds. One with RELEASE 1 behind a remote write that was lost performs no release
(R440): it ends with LINK_LOST (DESIGN CHOICE, log entry 123). -/
def State.runFence (s : State) (d : Desc) : State :=
  if !s.fenceMet d then s.setDesc { d with phase := .running }
  else if hRelease (headOf (d.entries.headD [])) && (s.queue d.queue).lost then s.setDesc (endWith d 0x31 0)
  else s.setDesc { d with phase := .finishing }

/-- FENCE: it begins, or, having begun, completes. -/
def State.fence (s : State) (did : Nat) : State :=
  match s.desc did with
  | none => s
  | some d =>
    if d.began && d.phase == .running && opcodeOf d.entries == 0x0C then s.runFence d
    else s.beginControl did 0x0C State.runFence

/-- The parameter registers after a PARAM_SET (Table 3-18). -/
def setParams (e : Bytes) (f : RegFile) : RegFile :=
  (List.range (leAt e 65 1)).foldl (fun f i =>
    let k := leAt e 64 1 + i
    let v := wordAt e (9 + i)
    let new := if leAt e 66 1 = 1 then (tget f k).getD 0 + v else v
    if new = 0 then tdel f k else tput f k new) f

/-- Whether every earlier descriptor of a queue has begun (R119). A REPLAY stands for its copies. -/
def State.allBegun (s : State) (d : Desc) : Bool :=
  (s.before d).all (fun e => e.ended || (e.began && (opcodeOf e.entries != 0x0E || e.replayAll)))

/-- PARAM_SET takes effect once every earlier descriptor has begun (R119). -/
def State.paramSet (s : State) (did : Nat) : State :=
  match s.desc did with
  | none => s
  | some d =>
    if s.allBegun d then
      s.beginControl did 0x0D (fun s d =>
        (s.onQueue d.queue (fun x => { x with params := setParams (d.entries.headD []) x.params })).runNothing d)
    else s

/-- REPLAY begins (R123): its references are resolved and its first entry is read. -/
def State.runReplay (s : State) (d : Desc) : State :=
  let p := s.param d.queue
  let r := (List.replicate 14 0) ++ [fieldVal d.entries p 14 0 64 8, fieldVal d.entries p 15 0 76 4]
  (s.setDesc { d with phase := .running, resolved := r }).pumpReplays

/-- NOP (R101). -/
def execNop (did : Nat) (s : State) : Host.Outcome State Fault Refusal :=
  whenIssuing (fun s => s.beginControl did 0x00 State.runNothing) s

/-- SIGNAL (R102): its signals are performed at completion, here or on the chip that it names. -/
def execSignal (did : Nat) (s : State) : Host.Outcome State Fault Refusal :=
  whenIssuing (fun s => s.beginControl did 0x0A State.runNothing) s

/-- WAIT (R99). -/
def execWait (did : Nat) (s : State) : Host.Outcome State Fault Refusal :=
  whenIssuing (fun s => s.beginControl did 0x0B State.runNothing) s

/-- FENCE (R100). -/
def execFence (did : Nat) (s : State) : Host.Outcome State Fault Refusal := whenIssuing (fun s => s.fence did) s

/-- PARAM_SET (R119). -/
def execParamSet (did : Nat) (s : State) : Host.Outcome State Fault Refusal := whenIssuing (fun s => s.paramSet did) s

/-- REPLAY (R123). -/
def execReplay (did : Nat) (s : State) : Host.Outcome State Fault Refusal :=
  whenIssuing (fun s => (s.beginControl did 0x0E State.runReplay).pump) s

/-- MARK (R98). -/
def execMark (did : Nat) (s : State) : Host.Outcome State Fault Refusal :=
  whenIssuing (fun s => s.beginControl did 0x0F State.runNothing) s

/-! ### Data descriptors -/

/-- A fault of Table 10-3 on a unit of a stream (R294, R356, R357, R360): it is latched, and the stream is about to halt or ends
with the row's status and the unit's address. -/
def State.streamFault (s : State) (d : Desc) (u : FUnit) (row : Nat) : State :=
  let ctx := s.ctxOf d.queue
  let s := s.latchFault row u.obj d.queue ctx u.va
  if s.faultHalts ctx row then
    s.setDesc { d with phase := .faulted, fault := some u, faultIsHalt := true, faultCause := row }
  else s.setDesc (endWith d (faultStatus row) (word u.va))

/-- What the checks of R130 need of the state, for a descriptor that begins now. -/
def State.envOf (s : State) (d : Desc) (g : Geo) : Env :=
  let ctx := s.ctxOf d.queue
  let grp := s.groupOf d.queue
  let ring := s.cfgAt s.commit.epoch (rkey Reg.cfCtxRing ctx)
  { ring := if bit ring 15 then some (fld ring 11 8, fld ring 7 0) else none,
    hasExp := s.hasExp grp, lifts := (List.range 16).filter s.hasLift, cores := s.coresPer,
    bulkCores := fld (s.cfgAt s.commit.epoch (Reg.exCfg grp)) 12 8, bulk := !s.isLc d.queue,
    codebook := nbit g.liftCtrl 0 && bit (s.cfgAt s.commit.epoch (rkey Reg.lfCbCtrl ctx)) 0 }

/-- The bell grid (Table 7-1). -/
def bellGrid : List Int :=
  [-16384, -11311, -8512, -6393, -4603, -2984, -1473, 0, 1288, 2604, 3987, 5471, 7139, 9121, 11748, 16384]

/-- The levels that a LIFT or CONDITION takes when it begins (R239). -/
def State.levelsOf (s : State) (ctx : Nat) (g : Geo) : List Int :=
  if nbit g.liftCtrl 0 then
    (List.range 16).map (fun i =>
      sgn 16 (nfld (s.cfgAt s.commit.epoch (rkey (Reg.lfCbLevel (i / 4)) ctx)).toNat (16 * (i % 4) + 15) (16 * (i % 4))))
  else bellGrid

/-- The permissions a destination unit of an opcode needs (R350). -/
def dstNeed (op : Nat) : Need := { read := false, write := true, atomic := op == 4, stream := true }

/-- The permissions a read of a stream needs (R350). -/
def srcNeed : Need := { read := true, write := false, atomic := false, stream := true }

/-- Fault units that are read or written (R293). -/
def Desc.dstUnit (d : Desc) (va : Nat) : FUnit := { obj := 1, va := va, len := unitBytes d.geo.dst.fmt }

/-- The SIG words in force with REMOTE 1, as offsets in the FIRST entry. -/
def remoteSigs (es : List Bytes) : List Nat :=
  (List.range 2).filterMap (fun k =>
    let x := sigWord (ent es 0) k
    if sgEn x && sgRemote x then some (48 + 8 * k) else none)

/-- The lookup of the first destination unit that a REMOTE signal asks for (R94), or none where no signal asks. An empty destination has no
first unit: the unit at DST_BASE is looked up for it (DESIGN CHOICE, log entry 119). -/
def State.remoteLook (s : State) (d : Desc) (g : Geo) : Option Look :=
  if (remoteSigs d.entries).isEmpty || g.toPort then none
  else some (s.look d.mover d.results (s.tagOf (s.ctxOf d.queue)) g.dst.base (unitBytes g.dst.fmt) (dstNeed g.op))

/-- The SIG words that R94 refuses: their destination is local. -/
def localSigs (es : List Bytes) (g : Geo) : Option Look → List Nat
  | some (.ok (p :: _) _) => if p.chip.isNone then remoteSigs es else []
  | none => if g.toPort then remoteSigs es else []
  | _ => []

/-- The resolved values of RESOLVED (Table 8-2): slot b holds the field of PREF bit b. -/
def resolvedOf (es : List Bytes) (param : Nat → Word) : List Nat :=
  (List.range 16).map (fun b =>
    if (hPref (headOf (ent es 0))).testBit b then
      (match prefField (opcodeOf es) b with
       | some (p, o, n) => fieldVal es param b p o n
       | none => 0)
    else 0)

/-- The lens staging that a stream takes when it begins, in KiB (R147, R192, R195). -/
def State.stagingOf (s : State) (g : Geo) (logn : Nat) : Nat :=
  if g.permStream then 128
  else if g.band then 18 * g.win.getD 1 0
  else if g.wholeLimb then
    let one := 9 * 2 ^ logn / 2 / 1024
    if s.lensKib < 2 * one then one else 2 * one
  else 0

/-- The first access unit of an operand is looked up for the wake of its bank pair (R287): a walk where no cache tells its range. -/
def State.askWake (s : State) (did va : Nat) : State :=
  match s.desc did with
  | none => s
  | some d =>
    let tag := s.tagOf (s.ctxOf d.queue)
    let done := fun (s : State) => s.onDesc did (fun d => { d with wakes := d.wakes.filter (· != va) })
    match s.known d.mover d.results tag va with
    | none => (s.startWalk (some did) d.queue d.mover (s.isLc d.queue) tag va).startWalkers
    | some (.found r) =>
      if !s.isRemote r && inWindow (r.pa va) then (done s).wakePair ((r.pa va - windowBase) / 0x400000) else done s
    | some _ => done s

/-- The wakes that a stream still has to ask for. -/
def State.askWakes (s : State) (did : Nat) : State :=
  (((s.desc did).map (·.wakes)).getD []).foldl (fun s va => s.askWake did va) s

/-- An address channel that no stream has used. -/
def Channel.blank : Channel where
  idx := []
  words := []
  credits := 16
  bound := none

/-- A compute port. -/
def State.cport (s : State) (g : Nat) : CPort := (tget s.cps g).getD { dlv := [], mid := none, chans := [], rsps := [], ahead := [] }

/-- Sets a compute port. -/
def State.setCport (s : State) (g : Nat) (x : CPort) : State := { s with cps := tput s.cps g x }

/-- An address channel of a compute port. -/
def CPort.chan (x : CPort) (c : Nat) : Channel := (tget x.chans c).getD Channel.blank

/-- Sets an address channel. -/
def State.setChan (s : State) (g c : Nat) (ch : Channel) : State :=
  let x := s.cport g
  s.setCport g { x with chans := tput x.chans c ch }

/-- Whether the index list comes from an address channel (R289). -/
def Geo.fed (g : Geo) : Bool := 2 ≤ g.op && g.op ≤ 4 && g.idxBase.testBit 63
def Geo.channel (g : Geo) : Nat := nfld g.idxBase 13 6

/-- A data descriptor whose checks have passed starts to move (Table 3-9, step 5): it binds its channel, asks for the staging,
the lift slot and the bank wakes that it needs. An empty destination moves nothing (R69). -/
def State.runData (s : State) (d : Desc) (g : Geo) : State :=
  let ctx := s.ctxOf d.queue
  let grp := s.groupOf d.queue
  let logn := fld (s.cfgAt s.commit.epoch (rkey Reg.cfCtxRing ctx)) 11 8
  let kib := s.stagingOf g logn
  let d := { s.begun d with geo := g, pos := 0, resolved := resolvedOf d.entries (s.param d.queue), phase := .running }
  let s := s.useId
  if g.dst.empty then s.setDesc { d with phase := .finishing }
  else
    let lift := g.op = 8 ∨ g.op = 9
    let d := { d with stagingKib := kib, stagingWait := kib != 0, liftWait := decide lift,
                      levels := if lift then s.levelsOf ctx g else [],
                      chan := if g.fed then some g.channel else none }
    let waits := (s.inGroup grp).any (·.stagingWait) || s.lensKib - s.stagedKib grp < kib
    let s := if g.permStream && waits then s.bump (Reg.mvReuseCnt grp) 63 48 else s
    let s := s.setDesc { d with wakes := (if g.src.empty then [] else [g.src.base]) ++ (if g.toPort then [] else [g.dst.base]) }
    let s := if g.fed then
        s.setChan grp g.channel { (s.cport grp).chan g.channel with bound := some d.id }
      else s
    s.askWakes d.id

/-- A data descriptor past its checks: a busy channel holds it (R291), its predicate may skip it (R90), and otherwise it runs. -/
def State.beginPass (s : State) (d : Desc) (g : Geo) : State :=
  match s.predicate d with
  | none => s.setDesc (endWith d 0x30 0)
  | some true => (s.setDesc { s.begun d with geo := g, phase := .finishing, skipped := true }).useId
  | some false =>
    if g.fed && ((s.cport (s.groupOf d.queue)).chan g.channel).bound.isSome then s
    else s.runData d g

/-- The code of a group's pattern memory (Table 15-23). -/
def patternMem (g : Nat) : Nat := 0x10 + g

/-- The movers of a group read their pattern memory for a data descriptor that begins (Table 16-2, index 9): an injected uncorrectable
error damages one word, which the spec does not name (a free value), and holds the stream until the repair of R535. -/
def State.patternEcc (s : State) (g ctx : Nat) : State :=
  match s.inject 9 (patternMem g) (some ctx) with
  | (s, .clean) => s
  | (s, .corrected) => s.countEcc 9 (patternMem g) false
  | (s, .uncorrectable) =>
    let im := s.image (patternMem g)
    let k := 2 ^ 20 * im.active + Config.openValue 9 s.free % (imageBytes (patternMem g) / 8)
    (({ s with images := tput s.images (patternMem g) { im with damaged := [k] } } : State).useFree).countEcc 9 (patternMem g) true

/-- Whether a group's pattern memory waits for its repair (R535). -/
def State.patternBad (s : State) (g : Nat) : Bool := !(s.image (patternMem g)).damaged.isEmpty

/-- A data descriptor of a retired group begins (R538): MALFORMED comes before ABSENT_UNIT (R130), whose word 1 is 0 (DESIGN CHOICE, log
entry 114). It holds no slot and makes no lookup for a REMOTE signal. -/
def State.beginAbsent (s : State) (d : Desc) (g : Geo) : State :=
  match beginStatus g (s.envOf d g) (localSigs d.entries g none) with
  | (0x10, w) => s.setDesc (endWith d 0x10 w)
  | _ => s.setDesc (endWith d 0x12 0)

/-- A data descriptor begins execution (R130, R94): checks first, then the fault of a REMOTE lookup, then predicate and run. One whose lookup
faults has not begun: where it halts, it is looked up again once it is resumed. -/
def State.beginData (s : State) (did op : Nat) : State :=
  match s.desc did with
  | none => s
  | some d =>
    if !(opcodeOf d.entries == op && s.mayBegin d) || s.patternBad (s.groupOf d.queue) then s
    else if !s.hasGroup (s.groupOf d.queue) then s.beginAbsent d (mkGeo d.entries (s.param d.queue))
    else
      let g := mkGeo d.entries (s.param d.queue)
      match s.remoteLook d g with
      | some (.walk va) =>
        (s.startWalk (some did) d.queue d.mover (s.isLc d.queue) (s.tagOf (s.ctxOf d.queue)) va).startWalkers
      | look =>
        match beginStatus g (s.envOf d g) (localSigs d.entries g look) with
        | (0, _) =>
          (match look with
           | some (.fault row) =>
             let d := { d with geo := g, results := [], resolved := resolvedOf d.entries (s.param d.queue) }
             s.streamFault d { obj := 1, va := g.dst.base, len := unitBytes g.dst.fmt } row
           | some (.ok (p :: _) _) => s.beginPass { d with sigChip := p.chip, results := [] } g
           | _ => s.beginPass d g)
        | (st, w) => s.setDesc (endWith d st w)

/-- A data descriptor whose turn it is reads its group's patterns and begins. -/
def State.beginStream (s : State) (did op : Nat) : State :=
  match s.desc did with
  | none => s
  | some d =>
    if !(opcodeOf d.entries == op && s.mayBegin d) || s.patternBad (s.groupOf d.queue) then s
    else (s.patternEcc (s.groupOf d.queue) (s.ctxOf d.queue)).beginData did op

/-- MOVE (R134). -/
def execMove (did : Nat) (s : State) : Host.Outcome State Fault Refusal := whenIssuing (fun s => s.beginStream did 0x01) s

/-- GATHER (R161). -/
def execGather (did : Nat) (s : State) : Host.Outcome State Fault Refusal := whenIssuing (fun s => s.beginStream did 0x02) s

/-- SCATTER (R169). -/
def execScatter (did : Nat) (s : State) : Host.Outcome State Fault Refusal := whenIssuing (fun s => s.beginStream did 0x03) s

/-- SCATTER_ADD (R172). -/
def execScatterAdd (did : Nat) (s : State) : Host.Outcome State Fault Refusal :=
  whenIssuing (fun s => s.beginStream did 0x04) s

/-- AUTOMORPH (R187). -/
def execAutomorph (did : Nat) (s : State) : Host.Outcome State Fault Refusal :=
  whenIssuing (fun s => s.beginStream did 0x05) s

/-- LIMB_XPOSE (R192). -/
def execLimbXpose (did : Nat) (s : State) : Host.Outcome State Fault Refusal :=
  whenIssuing (fun s => s.beginStream did 0x06) s

/-- EXPAND (R219). -/
def execExpand (did : Nat) (s : State) : Host.Outcome State Fault Refusal := whenIssuing (fun s => s.beginStream did 0x07) s

/-- LIFT (R244). -/
def execLift (did : Nat) (s : State) : Host.Outcome State Fault Refusal := whenIssuing (fun s => s.beginStream did 0x08) s

/-- CONDITION (R260). -/
def execCondition (did : Nat) (s : State) : Host.Outcome State Fault Refusal :=
  whenIssuing (fun s => s.beginStream did 0x09) s

end Sys2Proof.Machine
end

