-- ==== Sys2Proof/Machine/Lines.lean ====
section
/-! DEFINITION. Link-block tags (Table 13-2), routes (R458, R459), and the sending side of leading lines (R463, R464, R469). -/

namespace Sys2Proof.Machine

/-! ### Tags -/

/-- The fields of a link-block tag (Table 13-2). `addr` is word 3 [37:0]. -/
structure Tag where
  linkSeq : Nat
  ack : Nat
  kind : Nat
  credit : Nat
  granules : Nat
  opens : Bool
  lc : Bool
  src : Nat
  dst : Nat
  hops : Nat
  line : Nat
  seq : Nat
  amount : Nat
  addr : Nat
  ctx : Nat
  fmt : Nat
  prime : Nat
  round : Nat
deriving DecidableEq, Repr

/-- A tag of a kind with every other field zero. -/
def Tag.ofKind (k : Nat) : Tag where
  linkSeq := 0
  ack := 0
  kind := k
  credit := 0
  granules := 0
  opens := false
  lc := false
  src := 0
  dst := 0
  hops := 0
  line := 0
  seq := 0
  amount := 0
  addr := 0
  ctx := 0
  fmt := 0
  prime := 0
  round := 0

/-- Words 0 to 3 of a tag, 32 bytes. -/
def Tag.body (t : Tag) : Bytes :=
  leBytes 8 (t.linkSeq + 2 ^ 16 * t.ack + 2 ^ 32 * t.kind + 2 ^ 40 * t.credit + 2 ^ 48 * t.granules + 2 ^ 54 * b2n t.opens +
    2 ^ 55 * b2n t.lc) ++
  leBytes 8 (t.src + 2 ^ 20 * t.dst + 2 ^ 40 * t.hops + 2 ^ 52 * t.line) ++
  leBytes 8 (t.seq + 2 ^ 32 * t.amount) ++
  leBytes 8 (t.addr + 2 ^ 38 * t.ctx + 2 ^ 48 * t.fmt + 2 ^ 52 * t.prime + 2 ^ 59 * t.round)

/-- The CRC of a block (R448). -/
def blockCrc (body payload : Bytes) : Nat := crc32c (body ++ payload)

/-- A block: the tag with its CRC in word 4, and the payload. -/
def Tag.block (t : Tag) (payload : Bytes) : LinkBlock :=
  { tag := BitVec.ofNat 320 (leNat (t.body ++ leBytes 8 (blockCrc t.body payload))), payload := payload }

/-- The fields of a received tag. -/
def tagFields (b : LinkBlock) : Tag :=
  let n := b.tag.toNat
  let w0 := nfld n 63 0
  let w1 := nfld n 127 64
  let w2 := nfld n 191 128
  let w3 := nfld n 255 192
  { linkSeq := nfld w0 15 0, ack := nfld w0 31 16, kind := nfld w0 39 32, credit := nfld w0 47 40, granules := nfld w0 53 48,
    opens := nbit w0 54, lc := nbit w0 55, src := nfld w1 19 0, dst := nfld w1 39 20, hops := nfld w1 51 40,
    line := nfld w1 63 52, seq := nfld w2 31 0, amount := nfld w2 63 32, addr := nfld w3 37 0, ctx := nfld w3 47 38,
    fmt := nfld w3 51 48, prime := nfld w3 58 52, round := nfld w3 60 59 }

/-- A block with the same payload under another tag. -/
def withTag (b : LinkBlock) (f : Tag → Tag) : LinkBlock := (f (tagFields b)).block b.payload

/-! ### Routes -/

/-- The route entry for a chip (R458): its offset and value. -/
def State.routeEntry (s : State) (d : Nat) : Nat × Word :=
  let off := if d / 1024 = s.fab.chipId / 1024 then Reg.fbRouteLocal (d % 1024) else Reg.fbRouteRegion (d / 1024)
  (off, s.act off)

/-- The links that carry traffic to a chip (R458, R459): none where the entry is not valid; otherwise the UP links of the primary
set, or of the alternate set, and whether that is the alternate. -/
def State.routeTo (s : State) (d : Nat) : Option (List Nat × Bool) :=
  let (_, v) := s.routeEntry d
  if !bit v 63 then none
  else
    let p := s.upLinks (fld v 5 0)
    if p.isEmpty && bit v 62 then
      let a := s.upLinks (fld v 13 8)
      some (a, !a.isEmpty)
    else some (p, false)

/-- The link with the most free credits, the lowest index on a tie (R464): those that it holds beyond what the blocks in its queue will
take. None while no link of the set has one. -/
def State.bestLink (s : State) (ls : List Nat) : Option Nat :=
  (ls.foldl (fun best l =>
    let c := (s.link l).credits - ((s.link l).queue.filter (fun i => lineKind (blockKind i.block))).length
    match best with
    | some (_, k) => if k < c then some (l, c) else best
    | none => if 0 < c then some (l, c) else none) (none : Option (Nat × Nat))).map (·.1)

/-- The link for a block: one that takes no credit waits for none (R449). -/
def State.linkFor (s : State) (ls : List Nat) (b : LinkBlock) : Option Nat :=
  (s.bestLink ls).orElse (fun _ => if lineKind (blockKind b) then none else ls.head?)

/-- Puts a block into the queue of a link; its sequence, acknowledgement and credits are filled in when it is sent. -/
def State.linkPush (s : State) (l : Nat) (it : LinkItem) : State :=
  let x := s.link l
  s.setLink l { x with queue := x.queue ++ [it] }

/-- A tag without a payload that a link sends on its own account. -/
def ownItem (t : Tag) (payload : Bytes) : LinkItem :=
  { block := t.block payload, sends := 0, line := none, came := none, bytes := 40 + payload.length, qid := 0x10000, lc := true }

/-! ### Outbound lines -/

/-- Replaces an outbound line. -/
def State.setLine (s : State) (n : Nat) (x : OutLine) : State := { s with fab := { s.fab with out := tput s.fab.out n x } }

/-- Whether a stream has a line to a chip or can take one (R463): it holds at most 16, and a line number is free. -/
def State.lineRoom (s : State) (d : Desc) (chip : Nat) : Bool :=
  (tget d.lines chip).isSome || (d.lines.length < 16 && (searchUp (fun n => (tget s.fab.out n).isNone) 4096 0).isSome)

/-- The wait of a stream for a line to a chip counts once in FB_LINES.OUT_WAITS (R463). -/
def State.noteWait (s : State) (did chip : Nat) : State :=
  if s.fab.outWaits.contains (did, chip) then s
  else ({ s with fab := { s.fab with outWaits := s.fab.outWaits ++ [(did, chip)] } }).bump Reg.fbLines 63 48

/-- The line of a stream to a chip, opened if it has none: none while it can take none, which counts (R463). -/
def State.lineFor (s : State) (did chip : Nat) : State × Option Nat :=
  match s.desc did with
  | none => (s, none)
  | some d =>
    match tget d.lines chip with
    | some n => (s, some n)
    | none =>
      match (if d.lines.length < 16 then searchUp (fun n => (tget s.fab.out n).isNone) 4096 0 else none) with
      | none => (s.noteWait did chip, none)
      | some n =>
        let x : OutLine := { did := did, chip := chip, next := 0, items := [], waiting := [], growing := false, opened := false,
                             alt := false, busy := false }
        let s := { s with fab := { s.fab with outWaits := s.fab.outWaits.filter (· != (did, chip)) } }
        ((s.setLine n x).setDesc { d with lines := tput d.lines chip n }, some n)

/-- A stream of a line ends (R457, R461, R476): with a status and an address. What it was sending has no line any more. -/
def State.endStream (s : State) (did status va : Nat) : State :=
  s.onDesc did (fun d => if d.ended && d.status != 0 then { d with wr := none } else { endWith d status (word va) with acks := [], wr := none })

/-- A line goes without a CLOSE: its number is free, its stream holds it no longer, and no link sends a block of it that it has not sent
yet. -/
def State.dropLine (s : State) (n : Nat) : State :=
  match tget s.fab.out n with
  | none => s
  | some x =>
    let cut := fun (y : Link) => { y with queue := y.queue.filter (fun i => i.line != some n),
                                          replay := y.replay.map (fun i => if i.line = some n then { i with line := none } else i) }
    let fab := { s.fab with out := tdel s.fab.out n, links := s.fab.links.map (fun p => (p.1, cut p.2)),
                            transit := s.fab.transit.filter (fun i => i.line != some n) }
    ({ s with fab := fab } : State).onDesc x.did (fun d => { d with lines := d.lines.filter (fun p => p.2 != n) })

/-- A line is lost (R452, R457, R461, R476, R479): its stream ends with a status and an address, and what it carried unacknowledged never
reaches coherence (R440). -/
def State.loseLine (s : State) (n status va : Nat) : State :=
  match tget s.fab.out n with
  | none => s
  | some x =>
    let wrote := (x.items ++ x.waiting).any (fun i => !i.units.isEmpty)
    let q := ((s.desc x.did).map (·.queue)).getD 0
    let s := if wrote then { s with queues := tmod s.queues q (fun y => { y with lost := true }) } else s
    (s.endStream x.did status va).dropLine n

/-- A line as its route stands: on a change between the primary and the alternate set everything unacknowledged is sent again
(R475). The block sent again is the one that was sent (DESIGN CHOICE, log entry 124: the source is not read again). -/
def lineOnRoute (x : OutLine) (alt : Bool) : OutLine :=
  if alt = x.alt then x else { x with alt := alt, waiting := x.items ++ x.waiting, items := [] }

/-- Whether a chip is this chip: its blocks are delivered locally (R458). -/
def State.isSelf (s : State) (chip : Nat) : Bool := s.fab.idValid && chip == s.fab.chipId

/-- Gives a block of this chip for itself to its own endpoint (R458). -/
def State.loopBlock (s : State) (b : LinkBlock) : State := { s with fab := { s.fab with loop := s.fab.loop ++ [b] } }

/-- The items of a line that may go out: all that wait but the last where it may still grow (R446). -/
def OutLine.due (x : OutLine) : List OutItem := if x.growing then x.waiting.dropLast else x.waiting

/-- The waiting items of a line to this chip go to its own endpoint, within 1024 unacknowledged (R458, R469). -/
def State.loopLine (s : State) (n : Nat) (x : OutLine) : State :=
  if x.busy then s
  else
    let out := x.due.take (1024 - x.items.length)
    let sent := out.map (fun i => { i with sends := i.sends + 1 })
    let s := s.setLine n { x with waiting := x.waiting.drop out.length, items := x.items ++ sent }
    out.foldl (fun s i => s.loopBlock i.block) s

/-- Gives the next waiting items of a line to the links of its route, within 1024 unacknowledged (R459, R464, R469). A line
whose route is not valid ends its stream with LINK_LOST (R461). -/
def State.pumpLine (n : Nat) : Nat → State → State
  | 0, s => s
  | fuel + 1, s =>
    match tget s.fab.out n with
    | none => s
    | some x0 =>
      if s.isSelf x0.chip then s.loopLine n x0
      else match s.routeTo x0.chip with
      | none => if x0.waiting.isEmpty then s else s.loseLine n 0x31 ((((x0.items ++ x0.waiting).head?).map (·.va)).getD 0)
      | some (ls, alt) =>
        if ls.isEmpty then (if x0.waiting.isEmpty then s else s.evFb 3)
        else
          let x := lineOnRoute x0 alt
          let s := s.setLine n x
          match x.due with
          | [] => s
          | it :: _ =>
            if x.busy || 1024 ≤ x.items.length then s
            else match s.bestLink ls with
              | none => s
              | some l =>
                let q := ((s.desc x.did).map (·.queue)).getD 0
                let s := s.setLine n { x with waiting := x.waiting.drop 1, items := x.items ++ [it] }
                pumpLine n fuel (s.linkPush l { block := it.block, sends := 0, line := some n, came := none,
                                                bytes := 40 + it.block.payload.length, qid := q, lc := s.isLc q })

/-- The data granules of a line block and their byte enables. -/
def blockData (b : LinkBlock) : Bytes × List Bool :=
  if blockKind b = 2 then
    (b.payload.drop 64, (List.range (b.payload.length - 64)).map (fun i => (b.payload.getD (i / 8) 0).getLsbD (i % 8)))
  else (b.payload, List.replicate b.payload.length true)

/-- The payload of a DATA_MASKED block: the mask granule and the data granules (R446). -/
def maskedPayload (data : Bytes) (en : List Bool) : Bytes :=
  fitTo 64 ((List.range (data.length / 8)).map (fun i =>
    BitVec.ofNat 8 (maskOf 8 (fun b => en.getD (8 * i + b) false)))) ++ data

/-- The payload of a line block of a kind. -/
def linePayload (kind : Nat) (data : Bytes) (en : List Bool) : Bytes := if kind = 2 then maskedPayload data en else data

/-- The data granules that a block of a kind carries at most (Table 13-3). -/
def kindRoom (kind : Nat) : Nat := if kind = 2 then 8 else 36

/-- A block that may still grow, made longer by data of the same kind that follow it on the destination chip (R446): none at a break in
address contiguity, a change of kind, a limb boundary of an ADD, or where it would pass its room. -/
def growBlock (b : LinkBlock) (t : Tag) (data : Bytes) (en : List Bool) : Option LinkBlock :=
  let o := tagFields b
  let (d0, e0) := blockData b
  let d := d0 ++ data
  if o.kind = t.kind ∧ o.ctx = t.ctx ∧ o.fmt = t.fmt ∧ o.prime = t.prime ∧ o.round = t.round ∧ t.addr = o.addr + d0.length / 64 ∧
      d.length ≤ 64 * kindRoom t.kind then
    let p := linePayload t.kind d (e0 ++ en)
    some ({ o with granules := p.length / 64 }.block p)
  else none

/-- No further data of its stream is ready for a line: its last block grows no more, and goes out (R446). -/
def State.sealLine (s : State) (n : Nat) : State :=
  match tget s.fab.out n with
  | none => s
  | some x => if x.growing then State.pumpLine n 1025 (s.setLine n { x with growing := false }) else s

/-- The lines of a stream are sealed. -/
def State.sealLines (s : State) (did : Nat) : State :=
  ((((s.desc did).map (·.lines)).getD []).map (·.2)).foldl State.sealLine s

/-- Adds an item to a line (R464): it takes the next LINE_SEQ, and the first carries OPEN (R463). Data that continue the last block join it
(R446). -/
def State.lineItem (s : State) (n : Nat) (t : Tag) (data : Bytes) (en : List Bool) (va : Nat) (tag : Option Nat) (unit : List Nat) :
    State :=
  match tget s.fab.out n with
  | none => s
  | some x =>
    let d := s.desc x.did
    let q := (d.map (·.queue)).getD 0
    let t := { t with ctx := s.ctxOf q }
    let last := if x.growing then x.waiting.getLast? else none
    match last.bind (fun i => if i.tag = tag then (growBlock i.block t data en).map (fun b => (i, b)) else none) with
    | some (i, b) =>
      let full := (blockData b).1.length = 64 * kindRoom t.kind
      let s := s.setLine n { x with waiting := x.waiting.dropLast ++ [{ i with block := b, units := i.units ++ unit }],
                                    growing := !full }
      State.pumpLine n 1025 s
    | none =>
      let p := linePayload t.kind data en
      let t := { t with opens := !x.opened, lc := s.isLc q, src := s.fab.chipId, dst := x.chip, hops := 1, line := n,
                        seq := x.next, granules := p.length / 64 }
      let it : OutItem := { seq := x.next, block := t.block p, sends := 0, va := va, tag := tag, id := s.ids, units := unit }
      let s := (s.setLine n { x with next := (x.next + 1) % 2 ^ 32, waiting := x.waiting ++ [it], opened := true,
                                     growing := !data.isEmpty && data.length < 64 * kindRoom t.kind }).useId
      State.pumpLine n 1025 s

/-! ### Blocks that wait for a link -/

/-- A link owes one more credit to its other side (R449). -/
def State.owe (s : State) (l : Option Nat) : State :=
  match l with
  | some l => s.setLink l { s.link l with owed := (s.link l).owed + 1 }
  | none => s

/-- The queue as which transit traffic takes part in the arbitration of a link (R473). -/
def transitQueue : Nat := 0x20000

/-- A block that waits for a link takes one (R458, R459, R464): a transit block without a route is dropped with NO_ROUTE and without
its credit, one of a line of this chip ends its stream (R461). Of a set without a free link the block goes on waiting. -/
def State.sendWaiting (s : State) (it : LinkItem) : State :=
  let d := (tagFields it.block).dst
  if s.isSelf d then (s.loopBlock it.block).owe it.came
  else match s.routeTo d with
  | none =>
    (match it.line with
     | some n => s.loseLine n 0x31 ((((tget s.fab.out n).bind (fun x => (x.items ++ x.waiting).head?)).map (·.va)).getD 0)
     | none => if it.qid = transitQueue then s.evFb 6 else s)
  | some (ls, _) =>
    match s.linkFor ls it.block with
    | none => { s with fab := { s.fab with transit := s.fab.transit ++ [it] } }
    | some l => (s.linkPush l { it with came := none }).owe it.came

/-- Every block that waits for a link tries again. -/
def State.pumpTransit (s : State) : State :=
  s.fab.transit.foldl State.sendWaiting { s with fab := { s.fab with transit := [] } }

/-- A new block that this chip sends or forwards: ROUTE_EMPTY shows when its sets hold no UP link (R459). -/
def State.sendBlock (s : State) (it : LinkItem) : State :=
  let d := (tagFields it.block).dst
  let s := match s.routeTo d with
    | some ([], _) => if s.isSelf d then s else s.evFb 3
    | _ => s
  s.sendWaiting it

/-- What waits for a link goes on: blocks of their own first (R474), then the items of the lines. -/
def State.settleFabric (s : State) : State :=
  let s := s.pumpTransit
  (s.fab.out.filter (fun p => !(p.2.items.isEmpty && p.2.waiting.isEmpty))).foldl (fun s p => State.pumpLine p.1 1025 s) s

end Sys2Proof.Machine
end

