-- ==== Sys2Proof/Machine/Completion.lean ====
section
/-! DEFINITION. Signals of descriptors (R91 to R96, R386), completion and its records (R131, R133), and the end of a replayed
descriptor (R127, R128). -/

namespace Sys2Proof.Machine

/-! ### Signals -/

/-- The slices of a destination along a dimension: the product of the sizes from it to dimension 4 (R92). -/
def sliceCount (n : List Nat) (dim : Nat) : Nat := (n.drop dim).foldl (· * ·) 1

/-- The elements of one slice: the product of the sizes below the dimension (R92). -/
def sliceSize (n : List Nat) (dim : Nat) : Nat := (n.take dim).foldl (· * ·) 1

/-- The chip on which a signal acts: the first destination unit's for a signal with REMOTE (R471), the body's for a SIGNAL with
REMOTE_EN (R102), none for a local signal. -/
def Desc.sigChipOf (d : Desc) (w : Word) : Option Nat :=
  if remoteSignal d.entries then some (leAt (d.entries.headD []) 64 4 % 2 ^ 20)
  else if sgRemote w.toNat then d.sigChip else none

/-- The end of a descriptor whose signal was refused on this chip (R96, R384). -/
def sigRefused (d : Desc) (ident : Nat) : BuoyRes → Desc
  | .underflow => endWith d 0x22 (word ident)
  | .poisoned => endWith d 0x30 0
  | .ok => d

/-- Whether a descriptor may still perform signals: it has not ended with an error (R95). -/
def State.mayStillSignal (s : State) (did : Nat) : Bool := (s.desc did).any (fun d => d.status == 0)

/-- A signal as an item on the leading line to its chip (R94, R102, R386). A total that does not fit AMOUNT is sent as the
largest amount for an add, and refused as an underflow for a subtract (R91). Answers false where the stream must wait for a line (R463). -/
def State.remoteSig (s : State) (d : Desc) (chip : Nat) (w : Word) (amt : Nat) : State × Bool :=
  if s.fab.idValid = false then (s.setDesc (endWith d 0x31 (word d.geo.dst.base)), true)
  else if 0xFFFFFFFF < amt ∧ fld w 14 12 = 1 then (s.setDesc (endWith d 0x22 (word (fld w 11 0))), true)
  else
    match s.lineFor d.id chip with
    | (s, none) => (s, false)
    | (s, some n) =>
      let seq := ((tget s.fab.out n).map (·.next)).getD 0
      let t := { Tag.ofKind 4 with amount := min amt 0xFFFFFFFF, addr := fld w 14 0 }
      let s := s.onDesc d.id (fun d => { d with acks := d.acks ++ [{ line := n, seq := seq, isSignal := true }] })
      (s.lineItem n t [] [] d.geo.dst.base none [], true)

/-- One operation of signal `k` of a descriptor, of a given amount: a local one is performed now, a remote one is sent. Answers false where
it must wait for a line. -/
def State.signal (s : State) (did k amt : Nat) : State × Bool :=
  match s.desc did with
  | none => (s, true)
  | some d =>
    match (d.sigs.getD k none) with
    | none => (s, true)
    | some g =>
      match d.sigChipOf g.word with
      | some chip => s.remoteSig d chip g.word amt
      | none =>
        let (s, r) := s.signalOp (s.ctxOf d.queue) (fld g.word 11 0) g.phys (fld g.word 14 12 == 1) amt
        (s.onDesc did (fun d => sigRefused d (fld g.word 11 0) r), true)

/-- Whether what was issued before an identity has reached coherence: writes and additions of the stream, its slots at the
compute port, and, for a local signal, its line items. -/
def State.coherentTo (s : State) (did upTo : Nat) (links : Bool) : Bool :=
  !s.reqs.any (fun r => r.id < upTo && (match r.owner with
    | .dst d _ _ _ => d == did
    | .rmw d _ => d == did
    | _ => false)) &&
  !s.cps.any (fun p => p.2.dlv.any (fun x => x.1 == did && x.2.id < upTo)) &&
  !(links && s.fab.out.any (fun p => p.2.did == did && (p.2.items ++ p.2.waiting).any (fun i => i.id < upTo)))

/-- Performs, in order, the slice signals that waited for coherence and no longer do (R93, R296, R422). -/
def State.runLate (did : Nat) : Nat → State → State
  | 0, s => s
  | fuel + 1, s =>
    match s.desc did with
    | none => s
    | some d =>
      match d.late with
      | [] => s
      | l :: rest =>
        let local' := ((d.sigs.getD l.sig none).map (fun g => (d.sigChipOf g.word).isNone)).getD true
        if s.coherentTo did l.upTo local' && d.status == 0 then
          match (s.setDesc { d with late := rest }).signal did l.sig l.amount with
          | (t, true) => runLate did fuel t
          | (t, false) => t.onDesc did (fun d => { d with late := l :: d.late })
        else s

/-- The late signals of every stream that may perform some. -/
def State.runAllLate (s : State) : State :=
  (s.descs.filter (fun d => !d.late.isEmpty)).foldl (fun s d => State.runLate d.id d.late.length s) s

/-- One slice of signal `k` is complete (R92, R93): the signal is performed now, or, as a release or behind slots that are still
to be delivered, once what was issued before it is coherent, or once its stream has a line. -/
def State.sliceDone (s : State) (did k : Nat) : State :=
  match s.desc did with
  | none => s
  | some d =>
    match d.sigs.getD k none with
    | none => s
    | some g =>
      let s := s.setDesc { d with sigs := d.sigs.set k (some { g with slices := g.slices + 1 }) }
      let amt := sgAmount g.word.toNat
      let hold := fun (s : State) (upTo : Nat) => s.onDesc did (fun d => { d with late := d.late ++ [{ sig := k, amount := amt, upTo := upTo }] })
      if sgRelease g.word.toNat || d.geo.toPort || !d.late.isEmpty then State.runLate did 64 (hold s s.ids).useId
      else match s.signal did k amt with
        | (t, true) => t
        | (t, false) => hold t 0

/-- Signals the slices of signal `k` that are complete and not signalled yet. -/
def State.sliceLoop (did k target : Nat) : Nat → State → State
  | 0, s => s
  | fuel + 1, s =>
    match (s.desc did).bind (fun d => d.sigs.getD k none) with
    | none => s
    | some g => if g.slices < target ∧ s.mayStillSignal did then sliceLoop did k target fuel (s.sliceDone did k) else s

/-- The slices that are complete once every element before a linear destination position is written (R92, R296). -/
def State.sliceSignals (s : State) (did done : Nat) : State :=
  [0, 1].foldl (fun s k =>
    match s.desc did with
    | none => s
    | some d =>
      match d.sigs.getD k none with
      | none => s
      | some g =>
        if sgTiming g.word.toNat = 1 then
          let target := done / max (sliceSize d.geo.dst.n (sgDim g.word.toNat)) 1
          State.sliceLoop did k target (target - g.slices) s
        else s) s

/-! ### Completion -/

/-- The amount of a signal at completion, or none for one that slices have performed (R91, R92). A descriptor that moved nothing
performs the total of its slices once. -/
def Desc.finalAmount (d : Desc) (g : SigSt) : Option Nat :=
  let w := g.word.toNat
  let moved := isData (opcodeOf d.entries) && !d.skipped && !d.geo.dst.empty
  if sgTiming w = 0 then some (sgAmount w)
  else if moved then none
  else if isData (opcodeOf d.entries) then some (sgAmount w * sliceCount d.geo.dst.n (sgDim w))
  else some (sgAmount w)

/-- Performs the signals in force at completion, in order; the first that is refused ends the descriptor (R95, R96). A performed
signal is taken off, whatever its TIMING: it is performed once (R91). -/
def State.finalSignals (s : State) (did : Nat) : State :=
  [0, 1].foldl (fun s k =>
    match s.desc did with
    | none => s
    | some d =>
      match d.sigs.getD k none with
      | none => s
      | some g =>
        if d.status ≠ 0 then s
        else match d.finalAmount g with
          | none => s.setDesc { d with sigs := d.sigs.set k none }
          | some amt =>
            match s.signal did k amt with
            | (t, true) => t.onDesc did (fun d => { d with sigs := d.sigs.set k none })
            | (t, false) => t) s

/-- Whether an earlier FENCE of the queue is not complete (R100). -/
def State.fenced (s : State) (d : Desc) : Bool :=
  (s.before d).any (fun e => opcodeOf e.entries == 0x0C && e.phase != .recording)

/-- A stream's line closes once all its items are acknowledged (R470): CLOSE goes out as its last item and the number is free (DESIGN
CHOICE: as soon as CLOSE is on its way). -/
def State.closeLine (s : State) (n : Nat) : State :=
  match tget s.fab.out n with
  | none => s
  | some x =>
    let q := ((s.desc x.did).map (·.queue)).getD 0
    let t := { Tag.ofKind 9 with lc := s.isLc q, src := s.fab.chipId, dst := x.chip, hops := 1, line := n, seq := x.next,
                                 ctx := s.ctxOf q }
    let s := s.dropLine n
    if x.opened then
      s.sendBlock { block := t.block [], sends := 0, line := none, came := none, bytes := 40, qid := q, lc := s.isLc q }
    else s

/-- The lines of a stream end with it: closed when nothing is outstanding on them. -/
def State.closeLines (s : State) (d : Desc) : State := (d.lines.map (·.2)).foldl State.closeLine s

/-- A descriptor gives up its slot, staging, cores, lift slot and channel (R277, R291, R301). -/
def giveUp (d : Desc) : Desc :=
  { d with mover := none, staged := false, stagingWait := false, cores := [], coreWait := false, liftSlot := none,
           liftWait := false, ins := [], results := [], chan := none }

/-- An address channel is free again (R291). -/
def State.freeChan (s : State) (d : Desc) : State :=
  match d.chan with
  | none => s
  | some c =>
    let g := s.groupOf d.queue
    s.setChan g c { (s.cport g).chan c with bound := none }

/-- The final status and word 1 (Table 3-25, R133). -/
def Desc.finalStatus (d : Desc) : Nat × Word :=
  if d.status ≠ 0 then (d.status, d.word1)
  else if d.noted = 0 ∧ d.replaced = 0 ∧ d.corrected = 0 then (0, 0)
  else (1, word (min d.noted 0xFFFFFFFF + 2 ^ 32 * min d.replaced 0xFFFF + 2 ^ 48 * min d.corrected 0xFFFF))

/-- A replayed descriptor ends (R127, R128): it writes no record; the REPLAY counts it, takes its counts and keeps the error of the
first in replay order; an error under STOP puts the queue into ERROR (R330). -/
def State.childDone (s : State) (d : Desc) (parent : Nat) : State :=
  let s := (s.dropDesc d.id).errorStop d.queue d.first d.status
  let key := 2 ^ 13 * d.iter + d.ent
  (s.onDesc parent (fun p =>
    let p := if d.isStep p then p else { p with replayDone := p.replayDone + 1 }
    let p := { p with noted := p.noted + d.noted, replaced := p.replaced + d.replaced, corrected := p.corrected + d.corrected }
    if d.status ≤ 1 then p
    else
      let first := p.replayFail.all (fun k => key < k)
      { p with replayEnded := true, replayFail := if first then some key else p.replayFail,
               replayStatus := if first then d.status else p.replayStatus,
               replayWord1 := if first then d.word1 else p.replayWord1 })).readAhead d.queue

/-- The descriptor has performed its signals and nothing of it is outstanding: it gives up what it holds and writes its records
(R131), or ends as part of its REPLAY. -/
def State.record (s : State) (did : Nat) : State :=
  match s.desc did with
  | none => s
  | some d =>
    let s := (s.closeLines d).freeChan d
    let (st, w) := d.finalStatus
    let d := { giveUp d with lines := [], status := st, word1 := w, late := [] }
    match d.parent with
    | some p => s.childDone d p
    | none =>
      s.setDesc { d with phase := .recording, recordLeft := (List.range d.entries.length).reverse }

/-- DESCRIPTOR_COMPLETE (R131): once a unit begun is out in full, every write has reached coherence and no FENCE holds it, the descriptor performs its final
signals, and when those are performed on every chip it writes its completion record. -/
def State.completeDesc (s : State) (did : Nat) : State :=
  match s.desc did with
  | none => s
  | some d =>
    if d.phase ≠ .finishing then s
    else if d.wr.isSome ∨ s.writesOut did = true then s.sealLines did
    else if d.status = 0 ∧ s.fenced d then s
    else
      let s := State.runLate did d.late.length s
      match s.desc did with
      | none => s
      | some d =>
        if d.status = 0 ∧ d.late ≠ [] then s
        else
          let s := (s.finalSignals did).sealLines did
          match s.desc did with
          | none => s
          | some d =>
            let open' := d.sigs.any Option.isSome && d.status == 0
            if open' || !d.acks.isEmpty || s.writesOut did then s else s.record did

end Sys2Proof.Machine
end

