-- ==== Sys2Proof/Machine/Produce.lean ====
section
/-! DEFINITION. What a stream writes: the order of emission, the source units that a destination unit needs, and the bytes that
each opcode gives it (Tables 4-1, 5-2, 6-9, 7-5 and 7-9), with the arithmetic of LIFT (R245) and CONDITION (R261 to R265). -/

namespace Sys2Proof.Machine

/-! ### The order of emission -/

/-- Destination dimensions in the order in which their units go out, the fastest first: destination index order, except that an
EXPAND in the tile form to memory goes limb by limb (R223 leaves its order open). -/
def Geo.emitDims (g : Geo) : List Nat :=
  if g.op = 7 && g.tileForm && !g.toPort then
    let t := (firstIdx (· == 1) g.perm 0).getD 1
    [0, t] ++ [1, 2, 3, 4].filter (· != t)
  else [0, 1, 2, 3, 4]

/-- Whether an operand keeps the tiles that hold the same slots of every limb together: coefficient-major order (R79). -/
def Operand.coefMajor (o : Operand) : Bool :=
  (o.locate [0, 1, 0, 0, 0]).1 == (o.locate [0, 0, 0, 0, 0]).1 + unitBytes o.fmt &&
    (o.locate [epu o.fmt, 0, 0, 0, 0]).1 != (o.locate [0, 0, 0, 0, 0]).1 + unitBytes o.fmt

/-- The tile of a band stream at a place (R192): bands of 16 tiles, and in each band the tiles of every limb, limb by limb, or, for an
operand in coefficient-major order (`cm`), limb after limb for each tile, so that contiguous tiles follow one another (R193). `t` is the
tiles of a limb and `l` the limbs. -/
def bandTile (cm : Bool) (t l e : Nat) : Nat :=
  let set' := e / max (t * l) 1
  let r := e % max (t * l) 1
  let b := r / max (16 * l) 1
  let w := max (min 16 (t - 16 * b)) 1
  let r' := r - 16 * l * b
  let (limb, tile) := if cm then (r' % max l 1, r' / max l 1) else (r' / w, r' % w)
  set' * (l * t) + limb * t + 16 * b + tile

/-- The linear destination position at a place of the order in which a band stream reads or writes its tiles. -/
def Geo.bandAt (g : Geo) (cm : Bool) (e : Nat) : Nat :=
  128 * bandTile cm (g.dst.n.getD 0 0 / 128) (g.dst.n.getD 1 0) (e / 128) + e % 128

/-- The linear destination position at a place of the order of emission. -/
def Geo.linAt (g : Geo) (e : Nat) : Nat :=
  if g.band then g.bandAt g.dst.coefMajor e
  else if g.emitDims = [0, 1, 2, 3, 4] then e
  else
    let ds := g.emitDims
    let x := unlin (ds.map (fun k => g.dst.n.getD k 0)) e
    lin g.dst.n ((List.range 5).map (fun k => x.getD ((firstIdx (· == k) ds 0).getD 0) 0))

/-- Whether units go out in destination index order. -/
def Geo.inOrder (g : Geo) : Bool := !g.band && g.emitDims == [0, 1, 2, 3, 4]

/-- The first place of the order of emission, at or after one, that is the head of a unit. -/
def Geo.headFrom (g : Geo) (e : Nat) : Nat :=
  if g.inOrder then g.dst.nextHead e else min (ceilDiv e (epu g.dst.fmt) * epu g.dst.fmt) g.dst.total

/-- The destination index at a place of the order of emission. -/
def Geo.indexAt (g : Geo) (e : Nat) : List Nat := unlin g.dst.n (g.linAt e)

/-- The destination index whose needs are planned at a place: a band stream reads in the order of its source (R193). -/
def Geo.readAt (g : Geo) (e : Nat) : List Nat :=
  if g.band then unlin g.dst.n (g.bandAt g.src.coefMajor e) else g.indexAt e

/-- The place in the order of emission of a linear destination position (units are tiles where the orders differ). -/
def Geo.placeOf (g : Geo) (l : Nat) : Nat :=
  if g.inOrder then l
  else
    let u := epu g.dst.fmt
    u * (searchUp (fun t => g.linAt (u * t) == l / u * u) (ceilDiv g.dst.total u) 0).getD 0 + l % u

/-- The linear destination position before which everything is written once the units before a place are. -/
def Geo.writtenTo (g : Geo) (e : Nat) : Nat :=
  if g.inOrder then e
  else
    let u := epu g.dst.fmt
    u * (searchUp (fun t => decide (e ≤ g.placeOf (u * t))) (g.dst.total / u) 0).getD (g.dst.total / u)

/-! ### Units that have been read -/

/-- The bytes of a unit that has arrived in full. -/
def InUnit.bytes (u : InUnit) : Option Bytes :=
  if u.issued = u.unit.len ∧ (u.parts.map (fun p => p.2.length)).sum = u.unit.len then
    some (u.parts.foldl (fun b p => overlay b p.1 p.2) (zeros u.unit.len))
  else none

/-- A unit of a stream by object and address. -/
def Desc.inUnit (d : Desc) (obj va : Nat) : Option InUnit := d.ins.find? (fun u => u.unit.obj == obj && u.unit.va == va)

/-- The bytes of a unit of a stream, if they have arrived. -/
def Desc.inBytes (d : Desc) (obj va : Nat) : Option Bytes := (d.inUnit obj va).bind InUnit.bytes

/-- log2 N of the ring of a descriptor. -/
def State.lognOf (s : State) (d : Desc) : Nat := fld (s.cfgAt d.epoch (rkey Reg.cfCtxRing (s.ctxOf d.queue))) 11 8

/-- A prime of the table of a descriptor's context. -/
def State.primeAt (s : State) (d : Desc) (i : Nat) : Nat := fld (s.cfgAt d.epoch (rkey Reg.cfPrimeQ (s.ctxOf d.queue) i)) 35 0

/-! ### Indices -/

/-- The position in the index list that a destination index uses (Table 4-1, stages 3 and 7). -/
def Geo.idxPos (g : Geo) (d : List Nat) : Nat := if g.op = 2 then (g.window d).getD g.idxDim 0 else d.getD g.idxDim 0

/-- The unit of the index list that holds a position. -/
def Geo.idxUnit (g : Geo) (j : Nat) : FUnit := { obj := 2, va := g.idxBase + 64 * (j / 16), len := 64 }

/-- The index at a position: from the channel, counted from the first that is not released (R290, R292), or from the list. -/
def State.idxAt (s : State) (d : Desc) (j : Nat) : Option Int :=
  if d.geo.fed then
    (if j < d.idxDone then some 0 else ((s.cport (s.groupOf d.queue)).chan d.geo.channel).idx[j - d.idxDone]?)
  else
    (d.inBytes 2 (d.geo.idxUnit j).va).map (fun b => sgn 32 (leAt b (4 * (j % 16)) 4))

/-- The opcodes that take an index list. -/
def Geo.indexed (g : Geo) : Bool := 2 ≤ g.op && g.op ≤ 4

/-- The indices as the stages take them; a position whose index has not arrived is not asked for. -/
def State.idxFun (s : State) (d : Desc) (j : Nat) : Int := (s.idxAt d j).getD 0

/-! ### What a unit needs -/

/-- A geometry without its ring reordering: the order in which a limb is staged. -/
def Geo.flat (g : Geo) : Geo := { g with galois := 1, bitrev := false }

/-- Elements that stand for a destination unit: one, where tile or lift block maps to one source unit, else each. -/
def Geo.sample (g : Geo) (i : List Nat) : List (List Nat) :=
  if !byteFmt g.src.fmt && !byteFmt g.dst.fmt then [i] else (g.dst.unitElems i).map (·.2)

/-- The fault unit of the source that holds an element. -/
def Geo.srcUnit (g : Geo) (p : List Nat) : FUnit := { obj := 0, va := (g.src.locate p).1, len := unitBytes g.src.fmt }

/-- The index list granules that a destination unit needs. -/
def Geo.idxNeeds (g : Geo) (i : List Nat) : List FUnit :=
  if g.indexed && !g.fed then (((g.dst.unitElems i).map (fun e => g.idxUnit (g.idxPos e.2))).eraseDups) else []

/-- The source row of a window position along dimensions 2 to 4, if it lies in the source (R249, R251). -/
def Geo.rowOf (g : Geo) (w : List Nat) : Option Nat :=
  let p := fun k => if g.bcast.testBit k then g.start.getD k 0 else g.start.getD k 0 + w.getD k 0
  if [2, 3, 4].all (fun k => 0 ≤ p k ∧ p k < g.src.n.getD k 0) then
    some ((p 2).toNat + g.src.n.getD 2 0 * ((p 3).toNat + g.src.n.getD 3 0 * (p 4).toNat))
  else none

/-- Whether a LIFT carries outliers. -/
def Geo.outlier (g : Geo) : Bool := g.op == 8 && nbit g.liftCtrl 2

/-- The side record or given-scale granule that a destination unit needs (R249, R264): the record of a row is read before the row's first
tile (R250). -/
def Geo.sideNeeds (g : Geo) (i : List Nat) : List FUnit :=
  if g.outlier then
    if i.getD 0 0 != 0 then []
    else (match g.rowOf (g.window i) with
     | some r => [{ obj := 4, va := g.auxBase + 64 * r, len := 64 }]
     | none => [])
  else if g.op = 9 ∧ nbit g.liftCtrl 1 then [{ obj := 4, va := g.auxBase + 64 * (lin g.dst.n i / 2048), len := 64 }]
  else []

/-- Whether a destination index takes an expanded residue (R220). -/
def Geo.expanded (g : Geo) (i : List Nat) : Bool := g.op == 7 && g.half i == 1

/-- The source units that a destination unit needs, before the ring reordering. -/
def State.srcNeeds (s : State) (d : Desc) (i : List Nat) : List FUnit :=
  let g := d.geo.flat
  if g.expanded i then []
  else ((g.sample i).filterMap (fun e => (g.source (s.lognOf d) (s.idxFun d) e).map (fun p => g.srcUnit p.1))).eraseDups

/-- The source unit and the position of the index list of each element of a GATHER that stands for a destination unit. -/
def State.gathers (s : State) (d : Desc) (i : List Nat) : List (Nat × Nat) :=
  if d.geo.op = 2 then
    (d.geo.sample i).filterMap (fun e =>
      (d.geo.source (s.lognOf d) (s.idxFun d) e).map (fun p => ((d.geo.srcUnit p.1).va, d.geo.idxPos e)))
  else []

/-- The positions of the index list at which a destination unit reads a source unit. -/
def State.positions (s : State) (d : Desc) (i : List Nat) (va : Nat) : List Nat :=
  (((s.gathers d i).filter (fun x => x.1 == va)).map (·.2)).eraseDups

/-- Whether two positions of the index list carry the same resolved index, both known. -/
def State.sameRow (s : State) (d : Desc) (j k : Nat) : Bool :=
  match s.idxAt d j, s.idxAt d k with
  | some a, some b =>
    (match d.geo.resolveIdx a, d.geo.resolveIdx b with
     | .row x, .row y => x == y
     | _, _ => false)
  | _, _ => false

/-- Whether the row that a position of the index list selects spans at most sixteen access units: those that the window positions at that
index cover (R166). -/
def State.rowFits (s : State) (d : Desc) (j : Nat) : Bool :=
  let g := d.geo
  let step := fun k => if k = 0 && !byteFmt g.src.fmt then epu g.src.fmt else 1
  let ext := (List.range 5).map (fun k => if k = g.idxDim || g.bcast.testBit k then 1 else ceilDiv (g.win.getD k 0) (step k))
  let n := ext.foldl (· * ·) 1
  n ≤ 16 * 64 &&
    ((List.range n).filterMap (fun l =>
      let x := unlin ext l
      (g.winSource (s.idxFun d) ((List.range 5).map (fun k => if k = g.idxDim then j else step k * x.getD k 0))).map
        (fun p => (g.srcUnit p).va))).eraseDups.length ≤ 16

/-- The last position at which a destination unit reads a source unit for a run of repeats of one index whose row is held (R166). -/
def State.runAt (s : State) (d : Desc) (i : List Nat) (va : Nat) : Option Nat :=
  ((s.positions d i va).filter (fun j => (s.sameRow d j (j + 1) || (j != 0 && s.sameRow d (j - 1) j)) && s.rowFits d j)).foldl
    (fun a j => some (max (a.getD 0) j)) none

/-- Whether the indices of a destination unit have all arrived. -/
def State.idxReady (s : State) (d : Desc) (i : List Nat) : Bool :=
  !d.geo.indexed || (d.geo.dst.unitElems i).all (fun e => (s.idxAt d (d.geo.idxPos e.2)).isSome)

/-- The units planned for a destination unit: its index granules, and, once they are there, what else it needs. -/
def State.planUnits (s : State) (d : Desc) (i : List Nat) : List FUnit :=
  d.geo.idxNeeds i ++ (if s.idxReady d i then d.geo.sideNeeds i ++ s.srcNeeds d i else [])

/-! ### Elements -/

/-- What an element of a destination unit is: a pad position, a residue of a zero sub-block (R247), or a value. -/
inductive El
  | pad
  | zero
  | val (v : Nat)
deriving DecidableEq, Repr

/-- Nothing to count. -/
def Notes.zero : Notes where
  noted := 0
  replaced := 0
  sat := 0
  nan := 0
  unrep := 0
  cond := 0
  held := 0

/-- Sums of counts. -/
def Notes.add (a b : Notes) : Notes where
  noted := a.noted + b.noted
  replaced := a.replaced + b.replaced
  sat := a.sat + b.sat
  nan := a.nan + b.nan
  unrep := a.unrep + b.unrep
  cond := a.cond + b.cond
  held := max a.held b.held

/-- The counts of a cast (R158). -/
def castNotes : CastNote → Notes
  | .none => Notes.zero
  | .saturated => { Notes.zero with sat := 1 }
  | .nanToInt => { Notes.zero with nan := 1 }

/-- Stage 6b and the sign of stage 6c of a coefficient-domain AUTOMORPH (R187, R189). -/
def coefResidue (q v : Nat) (neg : Bool) : Nat × Nat :=
  let (x, r) := canon q v
  (if neg then (if x = 0 then 0 else q - x) else x, r)

/-- The record index, the window limb and the slot of an expanded window position (Table 6-8). -/
def Geo.expKey (g : Geo) (w : List Nat) : Nat × Nat × Nat :=
  let c := fun k => w.getD k 0
  if g.tileForm then (c 3, c 2, 128 * c 1 + c 0) else (c 2 + g.win.getD 2 0 * c 3, c 1, c 0)

/-- The core record of an expanded limb that holds a slot. -/
def Desc.coreOf (d : Desc) (r limb slot : Nat) : Option Core :=
  d.cores.find? (fun c => c.poly == r && c.limb == limb && 128 * c.tile ≤ slot && slot < 128 * c.tile + c.residues.length)

/-- An expanded residue, once a core has produced it. -/
def Desc.residue (d : Desc) (r limb slot : Nat) : Option Nat :=
  (d.coreOf r limb slot).map (fun c => c.residues.getD (slot - 128 * c.tile) 0)

/-- The integer of a code (R245): level, scale word fields, multiplier and shift, and whether it saturated. -/
def liftInt (v : Int) (m e md : Nat) (kd : Int) : Int × Bool :=
  let p := v * m * md
  let sh := 14 + (e : Int) + kd
  let r :=
    if sh ≤ 0 then p * 2 ^ (-sh).toNat
    else
      let w : Int := 2 ^ sh.toNat
      let f := p / w
      let rem := p - f * w
      if w < 2 * rem ∨ (2 * rem = w ∧ f % 2 = 1) then f + 1 else f
  if 0x7FFFFFFFFFFFFFFF < r then (0x7FFFFFFFFFFFFFFF, true)
  else if r < -0x8000000000000000 then (-0x8000000000000000, true) else (r, false)

/-- The fields of a scale word (Table 7-3), and whether it stands for zero (R241). -/
def swMant (w : Nat) : Nat := nfld w 15 0
def swExp (w : Nat) : Nat := nfld w 21 16
def swZero (w : Nat) : Bool := nbit w 22 || swMant w == 0

/-- A level of a descriptor. -/
def Desc.level (d : Desc) (c : Nat) : Int := d.levels.getD c 0

/-- A lifted residue (R245 to R247) of code `pos` of a lift block under a prime. -/
def Desc.lifted (d : Desc) (u : Bytes) (pos q : Nat) : El × Notes :=
  let w := scaleAt u (pos / 128)
  if swZero w then (.zero, Notes.zero)
  else
    let (r, sat) := liftInt (d.level (codeAt u (pos / 128) (pos % 128))) (swMant w) (swExp w) d.geo.mDelta d.geo.kDelta
    (.val (r % (max q 1 : Nat)).toNat, { Notes.zero with noted := b2n sat })

/-- The element at a destination index, and what it counts: stages 1 to 6 of Tables 4-1, 5-2, 6-9 and 7-5. -/
def State.elemVal (s : State) (d : Desc) (j : List Nat) : El × Notes :=
  let g := d.geo
  let (w, neg) := g.ringWin (s.lognOf d) j
  let limb := w.getD g.limbDim 0
  if g.expanded j then
    let (r, i, slot) := g.expKey w
    (.val ((d.residue r i slot).getD 0), Notes.zero)
  else match g.winSource (s.idxFun d) w with
    | none => (.pad, Notes.zero)
    | some p =>
      let (va, pos) := g.src.locate p
      let u := (d.inBytes 0 va).getD []
      if g.op = 8 then d.lifted u pos (s.primeAt d (g.limbMap.getD limb 0))
      else
        let v := elemAt g.src.fmt u pos
        if g.op ≤ 4 then
          let (x, n) := cast g.src.fmt g.dst.fmt g.round v
          (.val x, castNotes n)
        else if g.op = 5 ∧ g.evalDomain = false then
          let (x, r) := coefResidue (s.primeAt d (g.limbMap.getD limb 0)) v neg
          (.val x, { Notes.zero with replaced := r })
        else (.val v, Notes.zero)

/-! ### Conditioning -/

/-- A finite float as an integer multiple of 2^-149. -/
def fixed (f v : Nat) : Int :=
  let (m, e) := fMag f v
  let x : Int := (m * 2 ^ (e + 149).toNat : Nat)
  if fSign f v then -x else x

/-- A scale word's scale as a multiple of 2^-149 (R240). -/
def scaleFixed (w : Nat) : Int := (swMant w * 2 ^ (165 - swExp w) : Nat)

/-- encode of R261: the code of a finite element under a scale. -/
def encodeCode (lv : List Int) (x sc : Int) : Nat :=
  (List.range 16).foldl (fun best c =>
    let dist := fun (k : Nat) => (x * 16384 - lv.getD k 0 * sc).natAbs
    if dist c < dist best ∨ (dist c = dist best ∧ c % 2 = 0) then c else best) 0

/-- fit_scale of R263 for the target num / den, in multiples of 2^-149. -/
def fitScale (num den : Nat) : Nat :=
  let m := fun e => ceilDiv (num * 2 ^ e) (max den 1 * 2 ^ 165)
  match (List.range 64).reverse.find? (fun e => decide (m e ≤ 0xFFFF)) with
  | some e => 2 ^ 16 * e + m e
  | none => 0xFFFF

/-- The fitted scale word of a sub-block (R263) from its finite elements. -/
def fittedWord (lv : List Int) (xs : List Int) : Nat :=
  let p := xs.foldl (fun a x => max a x.toNat) 0
  let n := xs.foldl (fun a x => max a (-x).toNat) 0
  let l15 := (lv.getD 15 0).toNat
  let l0 := (-(lv.getD 0 0)).toNat
  if p = 0 ∧ n = 0 then 2 ^ 22
  else if n * l15 ≤ p * l0 then fitScale (p * 16384) l15 else fitScale (n * 16384) l0

/-- A given scale word as CONDITION writes it (R264). -/
def givenWord (w : Nat) : Nat :=
  2 ^ 16 * swExp w + 2 ^ 23 + (if swZero w then 2 ^ 22 else swMant w)

/-- A sub-block conditioned: its scale word, its 128 codes and the counts (R260 to R265). An element is none at a pad position. -/
def condSub (f : Nat) (lv : List Int) (given : Option Nat) (es : List (Option Nat)) : Nat × List Nat × Notes :=
  let odd := fun (v : Nat) => isNan f v || isInf f v
  let fin := es.filterMap (fun e => e.bind (fun v => if odd v then none else some (fixed f v)))
  let w := match given with
    | some w => givenWord w
    | none => fittedWord lv fin
  let zero := swZero w
  let sc := scaleFixed w
  let past := fun (x : Int) => decide (lv.getD 15 0 * sc < x * 16384 ∨ x * 16384 < lv.getD 0 0 * sc)
  let code := fun (e : Option Nat) => match e with
    | none => 7
    | some v =>
      if zero || isNan f v then 7
      else if isInf f v then (if fSign f v then 0 else 15) else encodeCode lv (fixed f v) sc
  let out := fin.filter (fun x => if zero then x != 0 else past x)
  let clipped := if given.isSome then out.length else 0
  let beyond := if given.isNone && !zero then out.length else 0
  let present := es.filterMap id
  (w, es.map code, { Notes.zero with noted := clipped, unrep := (present.filter odd).length + beyond, cond := present.length })

/-- Bytes from nibbles, the even ones low. -/
def nibbles : List Nat → Bytes
  | a :: b :: r => BitVec.ofNat 8 (a + 16 * b) :: nibbles r
  | [a] => [BitVec.ofNat 8 a]
  | [] => []

/-- The lift block that a CONDITION writes at a destination index, and its counts; none when all its positions are pad (R266). -/
def State.condBlock (s : State) (d : Desc) (i : List Nat) : Option (Bytes × Notes) :=
  let g := d.geo
  let at' := fun (k : Nat) =>
    let j := i.set 0 (i.getD 0 0 + k)
    (g.source (s.lognOf d) (fun _ => 0) j).map (fun p =>
      let (va, pos) := g.src.locate p.1
      elemAt g.src.fmt ((d.inBytes 0 va).getD []) pos)
  let es := (List.range 2048).map at'
  if es.all Option.isNone then none
  else
    let side := (d.inBytes 4 (g.auxBase + 64 * (lin g.dst.n i / 2048))).getD []
    let subs := (List.range 16).map (fun k =>
      condSub g.src.fmt d.levels (if nbit g.liftCtrl 1 then some (leAt side (4 * k) 4) else none) ((es.drop (128 * k)).take 128))
    let notes := subs.foldl (fun n x => n.add x.2.2) Notes.zero
    some ((subs.flatMap (fun x => leBytes 4 x.1)) ++ subs.flatMap (fun x => nibbles x.2.1), notes)

/-! ### Destination units -/

/-- A destination unit as produced: bytes, byte enables, whether it is a tile of zero sub-blocks (R247), and its counts. -/
structure Made where
  data : Bytes
  enables : List Bool
  zeroTile : Bool
  notes : Notes
deriving DecidableEq, Repr

/-- Whether PAD_VALUE stands at pad positions that are written (R139, R162). -/
def Geo.padOn (g : Geo) : Bool := g.pad != 2

/-- A whole unit with every byte enabled. -/
def wholeUnit (data : Bytes) (notes : Notes) : Made :=
  { data := data, enables := List.replicate data.length true, zeroTile := false, notes := notes }

/-- A lift block of pad that only an index can ask for (R162): codes of PAD_VALUE under scale words that the spec does not state
(free values). -/
def padBlock (free v : Nat) : Bytes :=
  (List.range 64).map (fun i => BitVec.ofNat 8 (Config.openValue 3 (64 * free + i))) ++
    List.replicate 1024 (BitVec.ofNat 8 (v % 16 * 17))

/-- The bytes of a unit from its elements; a byte of a port's unit that no element fills is a free value. -/
def unitOf (g : Geo) (free : Nat) (els : List (Nat × Option Nat)) : Bytes × List Bool :=
  let f := g.dst.fmt
  let get := fun p => ((els.find? (fun e => e.1 == p)).bind (·.2))
  let vals := (List.range (epu f)).map get
  let data := packUnit f (vals.map (fun v => v.getD 0))
  let en := (List.range (unitBytes f)).map (fun b => if f = 11 then true else (vals.getD (8 * b / elemBits f) none).isSome)
  if g.toPort then
    ((List.range data.length).map (fun b =>
      if en.getD b true then data.getD b 0 else BitVec.ofNat 8 (Config.openValue 4 (4096 * free + b))), en)
  else (data, en)

/-- The unit that a stream writes at a destination index, or none where it writes nothing there (R67, R139 to R142, R162, R170,
R247, R266, R611). -/
def State.make (s : State) (d : Desc) (i : List Nat) : Option Made :=
  let g := d.geo
  if g.op = 9 then (s.condBlock d i).map (fun x => wholeUnit x.1 x.2)
  else if (g.target (s.idxFun d) i).isNone then none
  else if g.dst.fmt = 12 then
    match g.source (s.lognOf d) (s.idxFun d) i with
    | some (p, _) => some (wholeUnit ((d.inBytes 0 (g.src.locate p).1).getD []) Notes.zero)
    | none => if g.padOn then some (wholeUnit (padBlock s.free g.padValue) Notes.zero) else none
  else
    let es := (g.dst.unitElems i).map (fun e => (e.1, s.elemVal d e.2))
    let notes := es.foldl (fun n e => n.add e.2.2) Notes.zero
    let els := es.map (fun e => e.2.1)
    if els.all (· == .pad) && !g.padOn then none
    else
      let mixed := g.dst.fmt == 11 || g.toPort
      let val := fun (e : El) => match e with
        | .val v => some v
        | .zero => some 0
        | .pad => if g.padOn then some g.padValue else if mixed then some (if g.op = 4 then 0 else g.padValue) else none
      let (data, en) := unitOf g s.free (es.map (fun e => (e.1, val e.2.1)))
      some { data := data, enables := en, zeroTile := els.all (· == .zero),
             notes := { notes with held := b2n (!els.all (· == .pad)) } }

/-- Whether everything that a destination unit is made of has arrived. -/
def State.unitReady (s : State) (d : Desc) (i : List Nat) : Bool :=
  s.idxReady d i && (s.planUnits d i).all (fun u => (d.inBytes u.obj u.va).isSome) &&
    (!d.geo.expanded i ||
      (let (r, l, slot) := d.geo.expKey (d.geo.window i)
       (d.residue r l slot).isSome && (d.residue r l (slot + 127)).isSome))

/-! ### Outlier records -/

/-- The window row index of Table 7-7. -/
def Geo.winRow (g : Geo) (w : List Nat) : Nat := w.getD 2 0 + g.win.getD 2 0 * (w.getD 3 0 + g.win.getD 3 0 * w.getD 4 0)

/-- The fault that a side record shows (R250): position and value for INDEX_RANGE. -/
def sideBad (n0 row : Nat) (b : Bytes) : Option (Nat × Nat) :=
  let count := leAt b 4 1
  if 8 < count then some (8 * row, count)
  else ((List.range count).find? (fun j => n0 ≤ leAt b (8 + 4 * j) 4)).map (fun j => (8 * row + j, leAt b (8 + 4 * j) 4))

/-- The entries of an outlier output record: destination positions and residues (R251). -/
def Desc.outEntries (d : Desc) (logn q : Nat) (b : Bytes) : List (Nat × Nat) :=
  let g := d.geo
  let w := leAt b 0 4
  if swZero w then []
  else (List.range (min (leAt b 4 1) 8)).filterMap (fun j =>
    let c : Int := (leAt b (8 + 4 * j) 4 : Nat)
    let o := g.start.getD 0 0
    if o ≤ c ∧ c < o + (g.win.getD 0 0 : Nat) then
      let p := (c - o).toNat
      let (r, _) := liftInt (sgn 16 (leAt b (40 + 2 * j) 2)) (swMant w) (swExp w) g.mDelta g.kDelta
      some (if g.bitrev then bitrev logn p else p, (r % (max q 1 : Nat)).toNat)
    else none)

/-- The outlier output record of a window position (Table 7-7), or none where R251 emits none. -/
def State.outRecord (s : State) (d : Desc) (i : List Nat) : Option Bytes :=
  let g := d.geo
  let w := g.window i
  let limb := w.getD 1 0
  let es := match g.rowOf w with
    | some r => some (d.outEntries (s.lognOf d) (s.primeAt d (g.limbMap.getD limb 0)) ((d.inBytes 4 (g.auxBase + 64 * r)).getD []))
    | none => if g.padOn then some [] else none
  es.map (fun es =>
    ((List.range 8).flatMap (fun j => leBytes 4 ((es.map (·.1)).getD j 0))) ++
      leBytes 36 ((List.range 8).foldr (fun j acc => (es.map (·.2)).getD j 0 + 2 ^ 36 * acc) 0) ++
      leBytes 1 es.length ++ leBytes 1 limb ++ zeros 2 ++ leBytes 4 (g.winRow w) ++ zeros 52)

/-- Where the outlier record of a window position goes in memory (R252). -/
def Geo.outVa (g : Geo) (w : List Nat) : Nat := g.outlierDst + 128 * (w.getD 1 0 + g.win.getD 1 0 * g.winRow w)

end Sys2Proof.Machine
end

