-- ==== Sys2Proof/Machine/Xof.lean ====
section
/-! DEFINITION. SHAKE128 over one block and the sampling of residues (R210 to R214): Keccak-f[1600] of FIPS 202 on 25 lanes. -/

namespace Sys2Proof.Machine

/-- The planes of a state of 25 lanes: plane y is the row of its lanes x = 0 to 4, lane x + 5y of the state. -/
def planesOf (lanes : List Word) : List (List Word) := (List.range 5).map (fun y => (lanes.drop (5 * y)).take 5)

/-- A row moved left by one place, cyclically: at x stands what stood at x + 1. -/
def rowLeft (r : List Word) : List Word := r.drop 1 ++ r.take 1

/-- A row moved right by one place, cyclically: at x stands what stood at x - 1. -/
def rowRight (r : List Word) : List Word := r.drop 4 ++ r.take 4

/-- Two rows added lane by lane. -/
def rowXor (r q : List Word) : List Word := List.zipWith (· ^^^ ·) r q

/-- theta: each lane takes up the parities of the column before its own and, turned by one bit, of the column after it. -/
def theta (ps : List (List Word)) : List (List Word) :=
  let parity := ps.foldl rowXor (List.replicate 5 0)
  ps.map (rowXor (rowXor (rowRight parity) ((rowLeft parity).map (·.rotateLeft 1))))

/-- The path (x, y), (y, 2x + 3y), and so on, of a number of steps. Steps rho and pi both follow it: rho gives the lane at step t of the path
from (1, 0) the offset (t + 1)(t + 2) / 2, and pi moves it one step on. -/
def path : Nat → Nat × Nat → List (Nat × Nat)
  | 0, p => [p]
  | n + 1, p => p :: path n (p.2, (2 * p.1 + 3 * p.2) % 5)

/-- rho and pi: the lane (0, 0) stays, and every other lane goes one step along the path, turned by the offset of its step. -/
def rhoPi (ps : List (List Word)) : List (List Word) :=
  let stops := path 24 (1, 0)
  let turned := (List.range 24).map (fun t =>
    let p := stops.getD t (0, 0)
    (((ps.getD p.2 []).getD p.1 0).rotateLeft ((t + 1) * (t + 2) / 2 % 64)))
  let moved := (stops.drop 1).zip turned
  (List.range 5).map (fun y => (List.range 5).map (fun x =>
    match moved.find? (fun m => m.1 == (x, y)) with
    | some m => m.2
    | none => (ps.headD []).headD 0))

/-- chi: in each row, a lane changes where the next lane is 0 and the one after it is 1. -/
def chi (ps : List (List Word)) : List (List Word) :=
  ps.map (fun r => rowXor r (List.zipWith (fun n m => ~~~n &&& m) (rowLeft r) (rowLeft (rowLeft r))))

/-- The shift register whose low bit makes the round constants: multiplication by x modulo x^8 + x^6 + x^5 + x^4 + 1. -/
def rcNext (r : Nat) : Nat := if r < 128 then 2 * r else (2 * r) ^^^ 0x171

/-- The constant of a round and the register after it: bit 2^j - 1 of the constant is the register's j-th output. -/
def rcWord (r : Nat) : Nat × Nat :=
  (List.range 7).foldl (fun (acc : Nat × Nat) j => (acc.1 + acc.2 % 2 * 2 ^ (2 ^ j - 1), rcNext acc.2)) (0, r)

/-- Rounds of Keccak-f from a state of the register on; iota adds the constant to lane (0, 0). -/
def rounds : Nat → Nat → List (List Word) → List (List Word)
  | 0, _, ps => ps
  | n + 1, r, ps =>
    let (c, r') := rcWord r
    rounds n r' (match chi (rhoPi (theta ps)) with
      | (l :: row) :: rest => ((l ^^^ BitVec.ofNat 64 c) :: row) :: rest
      | q => q)

/-- Keccak-f[1600]: 24 rounds. -/
def keccakF (lanes : List Word) : List Word := (rounds 24 1 (planesOf lanes)).flatten

/-- The message of a limb (Table 6-1). -/
def xofMessage (seed : Bytes) (tag limb poly : Nat) : Bytes :=
  fitTo 32 seed ++ leBytes 1 tag ++ leBytes 4 limb ++ leBytes 4 poly

/-- The padded rate block of a message of 41 bytes (R211). -/
def xofBlock (m : Bytes) : Bytes := m ++ [0x1F] ++ zeros 125 ++ [0x80]

/-- The lanes before the first permutation: the block absorbed into a zero state. -/
def xofStart (m : Bytes) : List Word :=
  (List.range 25).map (fun i => if i < 21 then wordAt (xofBlock m) i else 0)

/-- The 168 bytes that a permuted state yields (R211). -/
def xofSqueeze (a : List Word) : Bytes := (a.take 21).flatMap (fun w => leBytes 8 w.toNat)

/-- The candidates of a string of output bytes, low half first, and the bytes left over (R212). -/
def candidates : Nat → Bytes → List Nat × Bytes
  | 0, z => ([], z)
  | n + 1, z =>
    if z.length < 9 then ([], z)
    else
      let v := leAt z 0 9
      let (cs, rest) := candidates n (z.drop 9)
      (v % 2 ^ 36 :: v / 2 ^ 36 :: cs, rest)

/-- Candidates below the prime fill slots until the limb is full (R213): the residues accepted, and the candidates refused before
the last slot was filled. -/
def sample (q room : Nat) : List Nat → List Nat × Nat
  | [] => ([], 0)
  | c :: cs =>
    if room = 0 then ([], 0)
    else if c < q then
      let (rs, k) := sample q (room - 1) cs
      (c :: rs, k)
    else
      let (rs, k) := sample q room cs
      (rs, k + 1)

end Sys2Proof.Machine
end

