-- ==== Sys2Proof/Machine/Cores.lean ====
section
/-! DEFINITION. The requests of EXPAND streams for expander cores (R225 to R228, R231). -/

namespace Sys2Proof.Machine

/-- The core records whose core was lost. -/
def Desc.lostCores (d : Desc) : List Core := d.cores.filter (fun c => c.index == coreLost)

/-- The cores of a stream that halts go back to the pool (R231); what their buffers held is lost, unless the lens holds it. -/
def Desc.loseCores (d : Desc) (kept : Bool) : Desc :=
  { d with coreWait := false,
           cores := d.cores.map (fun c =>
             if c.index = coreGone ∧ kept then c
             else { c with index := coreLost, lanes := [], carry := [], residues := if kept then c.residues else [] }) }

/-- A core is taken back from a bulk stream (R228). -/
def Desc.loseCore (d : Desc) (i : Nat) : Desc :=
  { d with cores := d.cores.map (fun c =>
      if c.index = i then { c with index := coreLost, lanes := [], carry := [], residues := [] } else c) }

/-- The place at which the limb emitted begins, or the place of emission itself where limbs are not staged whole. -/
def Desc.limbStart (d : Desc) : Nat :=
  let len := max (d.geo.dst.n.getD 0 0) 1
  if d.geo.wholeLimb then d.pos / len * len else d.pos

/-- The expanded limbs that a stream still has to emit before a place, in the order in which it needs them, by seed record and window
limb. -/
def Desc.limbsTo (d : Desc) (hi : Nat) : List (Nat × Nat) :=
  let g := d.geo
  let lo := d.limbStart
  ((List.range (ceilDiv (hi - lo) 128)).filterMap (fun k =>
    let i := g.indexAt (lo + 128 * k)
    if g.expanded i then
      let (r, l, _) := g.expKey (g.window i)
      some (r, l)
    else none)).eraseDups

/-- The place past the limbs for which a whole-limb stream has buffers in the lens (R195). -/
def Desc.bufferEnd (d : Desc) : Nat :=
  let len := max (d.geo.dst.n.getD 0 0) 1
  min d.geo.dst.total (d.limbStart + (if 1024 * d.stagingKib < 9 * len then 1 else 2) * len)

/-- The expanded limbs that a stream still has to emit (R226). A whole-limb stream for a compute port looks no further than its limb
buffers. -/
def Desc.limbsAhead (d : Desc) : List (Nat × Nat) :=
  d.limbsTo (if d.geo.wholeLimb && d.geo.toPort then d.bufferEnd else d.geo.dst.total)

/-- The cores of a stream that are paused: the output buffer of 16 tiles is full (R225). The lens takes the tiles of a stream with BITREV as
they come, of the limbs for which it has buffers (R191). -/
def Desc.pausedCores (d : Desc) : List Core :=
  let open' := if d.geo.bitrev then d.limbsTo d.bufferEnd else []
  d.held.filter (fun c => 2048 ≤ c.residues.length && !open'.contains (c.poly, c.limb))

/-- The limbs that a stream would start a core on next. -/
def Desc.limbsTodo (d : Desc) : List (Nat × Nat) :=
  d.limbsAhead.filter (fun k => !d.cores.any (fun c => c.poly == k.1 && c.limb == k.2 && c.index != coreLost))

/-- The cores that a stream asks for (R226): as many as it needs together for a compute port, or the number short of
EX_CFG.MEM_CORES for memory, of which one at a time is granted. -/
def State.coresWanted (s : State) (d : Desc) : Nat :=
  let todo := d.limbsTodo.length
  let busy := d.held.length
  if d.geo.toPort then
    (if d.lostCores.length ≠ 0 then min d.lostCores.length todo else if busy = 0 then min (max d.geo.width 1) todo else 0)
  else min (max (fld (s.cfgAt d.epoch (Reg.exCfg (s.groupOf d.queue))) 4 0) 1) (busy + todo) - busy

/-- Whether a stream waits for cores. -/
def State.askCores (s : State) (d : Desc) : Desc :=
  if d.geo.op = 7 ∧ d.began ∧ !d.ended ∧ 0 < d.seeds.length then
    { d with coreWait := d.phase == .running && !d.stagingWait && 0 < s.coresWanted d }
  else d

/-- Every EXPAND stream asks for the cores it needs. -/
def State.settleCores (s : State) : State := { s with descs := s.descs.map s.askCores }

end Sys2Proof.Machine
end

