-- ==== Sys2Proof/Machine/Streams.lean ====
section
/-! DEFINITION. Streams at work: the planning and issue of reads (R282 to R288, R163 to R167, R217), the making and issue of writes
(R93, R296, R385), what a read brings back, halts and saved positions (R294 to R301), lens staging (R195 to R207). -/

namespace Sys2Proof.Machine

/-! ### Reads ahead -/

/-- The elements of a limb of a whole-limb stream. -/
def Geo.limbLen (g : Geo) : Nat := max (g.dst.n.getD 0 0) 1

/-- The band of a place in the order of emission of a band stream (R192). -/
def Geo.bandOf (g : Geo) (e : Nat) : Nat :=
  let t := g.dst.n.getD 0 0 / 128
  let l := g.dst.n.getD 1 0
  e / 128 / max (t * l) 1 * ceilDiv t 16 + e / 128 % max (t * l) 1 / max (16 * l) 1

/-- The places of the tiles of the limb that holds a place. -/
def Geo.limbTiles (g : Geo) (e : Nat) : List Nat :=
  (List.range (g.limbLen / 128)).map (fun t => e / g.limbLen * g.limbLen + 128 * t)

/-- The places of the units of a band from a place on. -/
def Geo.bandRest (g : Geo) (e : Nat) : List Nat :=
  ((List.range (16 * g.dst.n.getD 1 0)).map (fun t => e + 128 * t)).filter (fun x => x < g.dst.total && g.bandOf x == g.bandOf e)

/-- Whether a limb of a whole-limb stream is a pad limb, which takes no staging (R183). -/
def State.padLimb (s : State) (d : Desc) (e : Nat) : Bool :=
  (d.geo.limbTiles e).all (fun t =>
    let i := d.geo.flat.indexAt t
    !d.geo.expanded i && (s.srcNeeds d i).isEmpty)

/-- Whether a destination unit takes lens staging: one that is pad throughout, of a limb that is, does not (R183). -/
def State.takesStaging (s : State) (d : Desc) (e : Nat) : Bool :=
  if d.geo.wholeLimb then !s.padLimb d e else d.geo.expanded (d.geo.indexAt e) || !(s.srcNeeds d (d.geo.indexAt e)).isEmpty

/-- The limb buffers that a whole-limb stream holds (R195). -/
def Desc.buffers (d : Desc) : Nat := if 1024 * d.stagingKib < 9 * d.geo.limbLen then 1 else 2

/-- The limbs that take staging, from the limb emitted to the limb of a place. -/
def State.limbsHeld (s : State) (d : Desc) (e : Nat) : Nat :=
  let n := d.geo.limbLen
  ((List.range (e / n - d.pos / n)).filter (fun k => !s.padLimb d (d.pos + n * k))).length

/-- STREAM_READS of a stream's group. -/
def State.streamReads (s : State) (d : Desc) : Nat := fld (s.act (Reg.mvCfg (s.groupOf d.queue))) 27 16

/-- The units that a stream's coalescer holds (R165, R166). -/
def Desc.coalesced (d : Desc) (va : Nat) : Bool := d.recent.any (fun r => r.2 == va) || d.runs.any (fun r => r.1 == va)

/-- The memory reads of 128 B that the units read ahead take, without those that the coalescer holds. -/
def Desc.readsHeld (d : Desc) : Nat :=
  ((d.ins.filter (fun u => (u.unit.obj == 0 && !(d.coalesced u.unit.va && u.bytes.isSome)) || u.unit.obj == 4)).map
    (fun u => ceilDiv u.unit.len 128)).sum

/-- Whether the path of a stream has room for the unit whose reads are planned (R285): the limb buffers of a whole-limb stream (R195), two
bands (R192), the 128 KiB of a permutation (R147); and otherwise reads run ahead of writes by up to the in-flight limit (R286). -/
def State.readRoom (s : State) (d : Desc) : Bool :=
  let g := d.geo
  if g.wholeLimb then s.padLimb d d.rdPos || s.limbsHeld d d.rdPos < d.buffers
  else if g.band then g.bandOf d.rdPos ≤ g.bandOf d.pos + 1
  else d.rdPos ≤ d.pos ||
    (d.readsHeld < s.streamReads d && (!g.permStream || (d.ins.map (fun u => u.unit.len)).sum < 131072))

/-- The seed records that a stream reads (R217). -/
def Geo.seedCount (g : Geo) : Nat :=
  if g.op = 7 ∧ g.start.getD 4 0 + (g.win.getD 4 0 : Nat) = 2 then
    (if g.tileForm then g.win.getD 3 0 else g.win.getD 2 0 * g.win.getD 3 0)
  else 0

/-- Whether the whole index list is read and checked before the first write (R163). -/
def Geo.scans (g : Geo) : Bool := g.indexed && !g.fed && g.idxPolicy != 2

/-- Whether a stream's coalescer serves its reads (R165). -/
def Geo.coalesces (g : Geo) : Bool :=
  g.op == 2 || g.bcast != 0 ||
    (List.range 5).any (fun k => g.src.e.getD k 31 != 31 && g.src.s.getD k 0 == 0 && g.src.blk k < g.src.n.getD k 0)

/-- Whether a stream may read at all: it runs on a mover and holds the staging and the lift slot that it needs (R282). -/
def State.mayRead (_s : State) (d : Desc) : Bool :=
  d.phase == .running && d.began && d.mover.isSome && isData d.geo.op && !d.stagingWait && !d.liftWait

/-- Whether so many more reads of 128 B keep within STREAM_READS of the stream and the 2048 of its mover (R284). -/
def State.readsFit (s : State) (d : Desc) (n : Nat) : Bool :=
  s.readsOut d.id + n ≤ s.streamReads d &&
    ((d.mover.map (fun m => ((s.onMover m).map (fun e => s.readsOut e.id)).sum)).getD 0) + n ≤ 2048

/-- Whether an access of a stream in a direction is held by the wake of its bank pair: the stream is not ready in that direction (R497). -/
def State.wakeHolds (s : State) (did : Nat) (read : Bool) : Bool :=
  s.reqs.any (fun r => r.owner.stream == did && (r.kind == .read) == read && (match r.dest with
    | .bank b => (s.pair (b / 2)).state != .on
    | _ => false))

/-- Whether a bank accepts no more of a stream's accesses: eight of them wait there (R26; DESIGN CHOICE, log entry 125). -/
def State.bankFull (s : State) (did pa : Nat) : Bool :=
  match s.routePa pa with
  | some (.bank b) => 8 ≤ (s.reqs.filter (fun r => r.owner.stream == did && r.dest == .bank b)).length
  | _ => false

/-- Plans the read of a unit: its earlier copy, if any, gives way. -/
def Desc.want (d : Desc) (u : FUnit) : Desc :=
  { d with ins := d.ins.filter (fun x => !(x.unit == u)) ++ [{ unit := u, issued := 0, parts := [], reread := false }] }

/-- The next granule of an index list that is being checked, within 4096 indices (R163). -/
def Desc.scanNext (d : Desc) : Option FUnit :=
  let g := d.geo
  let k0 := d.idxScan / 16
  ((List.range 256).map (fun i => g.idxUnit (16 * (k0 + i)))).find? (fun u =>
    u.va < g.idxBase + 4 * g.idxCount && (d.inUnit 2 u.va).isNone)

/-- The lookup of a unit that a stream reads. -/
def State.lookRead (s : State) (d : Desc) (u : FUnit) : Look :=
  s.look d.mover d.results (s.tagOf (s.ctxOf d.queue)) u.va u.len srcNeed

/-- A walk for a stream. -/
def State.walkFor (s : State) (d : Desc) (va : Nat) : State :=
  (s.startWalk (some d.id) d.queue d.mover (s.isLc d.queue) (s.tagOf (s.ctxOf d.queue)) va).startWalkers

/-- Whether the index list lies in memory and is read ahead of its use (R288). -/
def Geo.readsList (g : Geo) : Bool := g.indexed && !g.fed && g.idxPolicy == 2

/-- The first position of the index list that the next destination unit uses. -/
def Desc.listAt (d : Desc) : Nat :=
  (least ((d.geo.dst.unitElems (d.geo.indexAt d.pos)).map (fun e => d.geo.idxPos e.2))).getD 0

/-- The next granule of an index list to read ahead of its use: one of those of the next 4096 indices (R288). -/
def Desc.listNext (d : Desc) : Option FUnit :=
  let g := d.geo
  ((List.range 256).map (fun i => g.idxUnit (16 * (d.listAt / 16 + i)))).find? (fun u =>
    u.va < g.idxBase + 4 * g.idxCount && (d.inUnit 2 u.va).isNone)

/-- A source unit of a stream with a coalescer (R165, R166): it is looked up, and read where no unit is held under its physical address. A
unit of a row that a run repeats is held for the run. Every read that is served without a memory access counts, those of further positions
of the index list that the same destination unit uses among them (DESIGN CHOICE, log entry 126). -/
def State.planCoalesced (s : State) (d : Desc) (i : List Nat) (u : FUnit) : State × Bool :=
  match s.lookRead d u with
  | .walk va => (s.walkFor d va, false)
  | .fault row => (s.streamFault { d with results := [] } u row, false)
  | .ok parts _ =>
    let saved := (s.positions d i u.va).length - 1
    let runs := match s.runAt d i u.va with
      | some j => (u.va, j) :: d.runs.filter (fun r => r.1 != u.va)
      | none => d.runs
    let past := { d with rdDone := d.rdDone + 1, runs := runs }
    let count := fun (s : State) (n : Nat) => if n = 0 then s else s.bump (Reg.mvReuseCnt (s.groupOf d.queue)) 31 0 n
    let read := (count (s.setDesc (past.want u)) saved, false)
    let held := if (s.runAt d i u.va).isSome && d.runs.any (fun r => r.1 == u.va) then some u.va
      else (d.recent.find? (fun r => r.1 == parts.map (·.pa))).map (·.2)
    match held.bind (d.inUnit 0) with
    | none => read
    | some x =>
      if x.unit.va = u.va then (count (s.setDesc { past with results := [] }) (1 + saved), true)
      else match x.bytes with
        | none => (s, false)
        | some b =>
          let y : InUnit := { unit := u, issued := u.len, parts := [(0, b)], reread := x.reread }
          (count (s.setDesc { past with results := [], ins := d.ins.filter (fun z => !(z.unit == u)) ++ [y] }) (1 + saved), true)

/-- Whether an earlier destination unit that is not written yet still needs a unit that is held. -/
def State.neededBefore (s : State) (d : Desc) (u : FUnit) : Bool :=
  let k := if d.geo.inOrder && byteFmt d.geo.dst.fmt then 1 else epu d.geo.dst.fmt
  (List.range (ceilDiv (d.rdPos - d.pos) k)).any (fun t => (s.planUnits d (d.geo.indexAt (d.pos + k * t))).contains u)

/-- Whether a stream reads a unit again for each destination unit that takes elements it has read before: nothing but the coalescer, the
lens and the index lists keep copies (R427). -/
def Geo.rereads (g : Geo) (u : FUnit) : Bool :=
  !g.wholeLimb && !g.band && !g.permStream && ((u.obj == 0 && !g.coalesces && g.src.mayShare) || u.obj == 4)

/-- The next unit that the destination unit at `rdPos` needs. -/
def State.planNext (s : State) (d : Desc) : State × Bool :=
  let g := d.geo
  let i := g.readAt d.rdPos
  match (s.planUnits d i)[d.rdDone]? with
  | none =>
    if s.idxReady d i then (s.setDesc { d with rdPos := g.headFrom (d.rdPos + 1), rdDone := 0 }, true) else (s, false)
  | some u =>
    let past := { d with rdDone := d.rdDone + 1 }
    if u.obj = 0 ∧ g.coalesces then s.planCoalesced d i u
    else if (d.inUnit u.obj u.va).isNone then (s.setDesc (past.want u), false)
    else if !g.rereads u then (s.setDesc past, true)
    else if s.neededBefore d u then (s, false)
    else (s.setDesc (past.want u), false)

/-- One step of planning: the next seed record, the next granule of a list that is checked first or read ahead, or the next unit that
the destination unit at `rdPos` needs. The second component says whether another step may follow. -/
def State.planStep (s : State) (d : Desc) : State × Bool :=
  let g := d.geo
  if d.seeds.length < g.seedCount then
    match (List.range g.seedCount).find? (fun r => (d.inUnit 3 (g.seedBase + 64 * r)).isNone) with
    | some r => (s.setDesc (d.want { obj := 3, va := g.seedBase + 64 * r, len := 64 }), false)
    | none => (s, false)
  else if g.scans ∧ d.idxScan < g.idxCount then
    match d.scanNext with
    | some u => (s.setDesc (d.want u), false)
    | none => (s, false)
  else match (if g.readsList ∧ d.pos < g.dst.total then d.listNext else none) with
    | some u => (s.setDesc (d.want u), false)
    | none => if g.dst.total ≤ d.rdPos ∨ s.readRoom d = false then (s, false) else s.planNext d

/-- The unit of a stream whose reads are not all issued. -/
def Desc.pending (d : Desc) : Option InUnit := d.ins.find? (fun u => u.issued < u.unit.len)

/-- Plans reads until one is there to issue. -/
def State.planReads (did : Nat) : Nat → State → State
  | 0, s => s
  | n + 1, s =>
    match s.desc did with
    | none => s
    | some d =>
      if d.pending.isSome || !s.mayRead d then s
      else
        match s.planStep d with
        | (s, true) => planReads did n s
        | (s, false) => s

/-! ### Issue of reads -/

/-- The piece of a translated unit at an offset: within its part, and for a local part within 256 B of its memory port (R575). -/
def pieceAt : List XPart → Nat → Option XPart
  | [], _ => none
  | p :: r, off =>
    if off < p.len then
      some { chip := p.chip, pa := p.pa + off, len := if p.chip.isNone then pieceLen (p.pa + off) (p.len - off) else p.len - off }
    else pieceAt r (off - p.len)

/-- Plans the reads of a stream and looks up the next one: a byte that no cache covers is walked for, and a fault stops the
stream's reads (R294). -/
def State.prepRead (s : State) (did : Nat) : State :=
  let s := State.planReads did 64 s
  match s.desc did with
  | none => s
  | some d =>
    if !s.mayRead d then s
    else match d.pending with
      | none => s
      | some u =>
        match s.lookRead d u.unit with
        | .walk va => s.walkFor d va
        | .fault row => s.streamFault { d with results := [] } u.unit row
        | .ok _ _ => s

/-- The read that a stream is ready to issue: its unit, the parts, the piece of up to 256 B, and the ranges. -/
def State.readyRead (s : State) (d : Desc) : Option (InUnit × List XPart × XPart × List Range) :=
  if !s.mayRead d || s.wakeHolds d.id true then none
  else match d.pending with
    | none => none
    | some u =>
      match s.lookRead d u.unit with
      | .ok parts rs =>
        (pieceAt parts u.issued).bind (fun p =>
          if s.readsFit d (ceilDiv p.len 128) && !s.bankFull d.id p.pa then some (u, parts, p, rs) else none)
      | _ => none

/-- The master of Table 14-1 of a group's streams. -/
def State.masterOf (s : State) (d : Desc) : Nat := 12 + s.groupOf d.queue

/-- A stream has issued a part of the read of a unit; the coalescer names a unit that it reads from its first part on (R165). -/
def Desc.readIssued (d : Desc) (u : InUnit) (parts : List XPart) (n : Nat) : Desc :=
  let recent := if u.issued = 0 && u.unit.obj == 0 && d.geo.coalesces then
      ((parts.map (·.pa), u.unit.va) :: d.recent.filter (fun r => r.2 != u.unit.va)).take 16
    else d.recent
  { d with results := [], recent := recent, ins := d.ins.map (fun x => if x.unit = u.unit then { x with issued := x.issued + n } else x) }

/-- Issues a read of up to 256 B (R282). -/
def State.issueRead (s : State) (did : Nat) : State :=
  match s.desc did with
  | none => s
  | some d =>
    match s.readyRead d with
    | none => s
    | some (u, parts, p, rs) =>
      match (if u.issued = 0 then s.cacheParity d.mover (s.ctxOf d.queue) u.unit.va else (s, false)), s.routePa p.pa with
      | (s, true), _ => s.walkFor d u.unit.va
      | (s, false), none => s
      | (s, false), some dest =>
        ((s.setDesc (d.readIssued u parts p.len)).countAccess rs (u.unit.va + u.issued) p.len).addReq
          (mkReq dest p.pa p.len .read (.src did u.unit.obj u.unit.va u.issued) (s.masterOf d) d.queue (s.ctxOf d.queue)
            (some (s.tagOf (s.ctxOf d.queue))) (s.isLc d.queue) [] [])

/-! ### Making units -/

/-- Whether the destination unit at a place can be made: a lift unit has produced it from units that are there, its limb is wholly staged
(R197), the rest of its band has been read for every limb (R192), or what it needs has arrived. -/
def State.headReady (s : State) (d : Desc) (e : Nat) : Bool :=
  let g := d.geo
  let flat := { d with geo := g.flat }
  if g.op = 8 ∨ g.op = 9 then
    (if g.wholeLimb then (e / g.limbLen + 1) * g.limbLen ≤ d.liftPos && (g.limbTiles e).all (fun t => s.unitReady flat (g.indexAt t))
     else e < d.liftPos && s.unitReady flat (g.indexAt e))
  else if g.wholeLimb then (g.limbTiles e).all (fun t => s.unitReady d (g.indexAt t))
  else if g.band then (g.bandRest e).all (fun t => s.unitReady d (g.indexAt t))
  else s.unitReady d (g.indexAt e)

/-- Whether the fault of a stream concerns a unit that it writes. -/
def Desc.dstFault (d : Desc) : Bool := d.phase == .faulted && d.fault.any (fun u => u.obj == 1 || u.obj == 5)

/-- Whether the checks that come before every write of a stream are done: its index list (R163) and its seed records (R217). -/
def Desc.checked (d : Desc) : Bool := !(d.geo.scans && d.idxScan < d.geo.idxCount) && d.geo.seedCount ≤ d.seeds.length

/-- Whether a stream may write: it runs, or drains what precedes its fault (R294), and no earlier FENCE holds its writes (R100). One that
has ended issues the rest of a unit of which it has issued a part (R52). -/
def State.mayWrite (s : State) (d : Desc) : Bool :=
  let part := d.wr.any (fun u => u.issued != 0)
  d.began && d.mover.isSome && isData d.geo.op &&
    ((d.phase == .finishing && part) ||
      ((d.phase == .running || (d.phase == .faulted && (!d.dstFault || part))) && !d.stagingWait && !s.fenced d && d.checked))

/-- What the production of a unit counts, once the unit is out (R133, R158, R189), and at a lift unit (R246, R247, R262 to R265): a tile of pad alone
holds no lifted residue (Table 7-15). -/
def State.takeNotes (s : State) (did : Nat) (zeroTile : Bool) (n : Notes) : State :=
  match s.desc did with
  | none => s
  | some d =>
    let k := Reg.mvXformCnt (s.groupOf d.queue)
    let s := if n.sat = 0 then s else s.bump k 31 0 n.sat
    let s := if n.nan = 0 then s else s.bump k 47 32 n.nan
    let s := match d.liftSlot with
      | none => s
      | some u =>
        if d.geo.op = 9 then
          ((s.bump (Reg.lfCnt u) 31 0 n.cond).bump (Reg.lfCnt u) 63 32 n.noted).bump (Reg.lfCnt3 u) 47 32 n.unrep
        else if zeroTile then s.bump (Reg.lfCnt2 u) 63 32
        else (s.bump (Reg.lfCnt2 u) 31 0 n.noted).bump (Reg.lfCnt3 u) 31 0 n.held
    s.setDesc { d with noted := d.noted + n.noted, replaced := d.replaced + n.replaced }

/-- The positions of the index list that are used no more once every element before a linear position is written. -/
def Geo.idxFree (g : Geo) (done : Nat) : Nat :=
  let k := if g.op = 2 then (firstIdx (· == g.idxDim) g.perm 0).getD 0 else g.idxDim
  let low := sliceSize g.dst.n k
  let n := g.dst.n.getD k 0
  let above := g.dst.total - low * n
  if done ≤ above then 0 else min ((done - above) / max low 1) n

/-- The places whose units a stream still needs: those from `pos` to `rdPos`, from the start of the limb of `pos` in a whole-limb stream,
and to the end of the band of `pos` in a band stream. -/
def Desc.openPlaces (d : Desc) : List Nat :=
  let g := d.geo
  let lo := if g.wholeLimb then d.pos / g.limbLen * g.limbLen else d.pos
  let u := if g.inOrder && byteFmt g.dst.fmt then 1 else epu g.dst.fmt
  let l := (List.range (ceilDiv (d.rdPos + u - lo) u)).map (fun k => lo + u * k)
  ((if g.band then g.bandRest d.pos else []) ++ l).filter (· < g.dst.total)

/-- The units that a stream still needs. -/
def State.stillNeeded (s : State) (d : Desc) : List FUnit :=
  d.openPlaces.flatMap (fun e => s.planUnits d (d.geo.indexAt e) ++ (if d.geo.band then s.planUnits d (d.geo.readAt e) else []))

/-- Whether a granule of a list that is read ahead lies in the next 4096 indices (R288). -/
def Desc.inList (d : Desc) (va : Nat) : Bool :=
  d.geo.readsList && d.geo.idxBase + 64 * (d.listAt / 16) ≤ va && va < d.geo.idxBase + 64 * (d.listAt / 16 + 256)

/-- Units read that are no longer needed go: at once, or, for a permutation, once they pass the 128 KiB of its staging (R147), and
a coalescer keeps the sixteen that it read last (R165) and those of runs whose positions are still used (R166). -/
def State.prune (s : State) (d0 : Desc) : Desc :=
  let g := d0.geo
  let size := (d0.ins.map (fun u => u.unit.len)).sum
  if g.permStream && size ≤ 131072 then d0
  else
    let d := { d0 with runs := d0.runs.filter (fun r => g.idxFree (g.writtenTo d0.pos) ≤ r.2) }
    let keep := s.stillNeeded d
    { d with ins := d.ins.filter (fun u => u.issued < u.unit.len || u.bytes.isNone || keep.contains u.unit ||
        (u.unit.obj == 0 && g.coalesces && d.coalesced u.unit.va) || (u.unit.obj == 2 && d.inList u.unit.va) ||
        (u.unit.obj == 2 && g.scans && g.idxCount ≤ 4096)) }

/-- The place before which every destination unit has reached its point of coherence or its port. -/
def State.retiredTo (s : State) (d : Desc) : Nat :=
  let out := s.reqs.filterMap (fun r => match r.owner with
    | .dst i _ _ p => if i = d.id then some p else none
    | .rmw i p => if i = d.id then some p else none
    | _ => none)
  let slots := s.cps.flatMap (fun c => c.2.dlv.filterMap (fun x => if x.1 = d.id then some x.2.pos else none))
  let lines := s.fab.out.any (fun p => p.2.did == d.id && !(p.2.items.isEmpty && p.2.waiting.isEmpty))
  if lines then 0 else (out ++ slots).foldl min d.pos

/-- Words of a channel whose indices have all been released leave it, and each returns a credit (R573). -/
def dropWords : Nat → List Nat → Nat × List Nat × Nat
  | n, [] => (n, [], 0)
  | n, w :: r =>
    if w ≤ n then
      let (m, l, c) := dropWords (n - w) r
      (m, l, c + 1)
    else (0, (w - n) :: r, 0)

/-- Releases indices from the head of a channel (R292). -/
def State.releaseIdx (s : State) (g c n : Nat) : State :=
  let ch := (s.cport g).chan c
  let (_, words, k) := dropWords n ch.words
  let s := s.setChan g c { ch with idx := ch.idx.drop n, words := words, credits := ch.credits + k }
  (List.range k).foldl (fun s _ => s.emit (.credit g c)) s

/-- A fed stream releases the indices whose units have all been written (R292). -/
def State.freeIdx (s : State) (did : Nat) : State :=
  match s.desc did with
  | none => s
  | some d =>
    if d.geo.fed && d.chan.isSome then
      let n := d.geo.idxFree (d.geo.writtenTo (s.retiredTo d))
      if d.idxDone < n then
        (s.setDesc { d with idxDone := n }).releaseIdx (s.groupOf d.queue) d.geo.channel (n - d.idxDone)
      else s
    else s

/-- The buffered residues of an expanded tile leave their core's buffer with the tile, and those of a limb that the lens emits with
its last tile. -/
def Desc.passTile (d : Desc) (i : List Nat) : Desc :=
  let g := d.geo
  if g.expanded i then
    let (r, l, slot) := g.expKey (g.window i)
    let mine := fun (c : Core) => c.poly == r && c.limb == l
    if g.wholeLimb then
      (if g.limbLen ≤ i.getD 0 0 + 128 then { d with cores := d.cores.filter (fun c => !mine c) } else d)
    else
      let cs := d.cores.map (fun c =>
        if mine c && 128 * c.tile == slot then { c with tile := c.tile + 1, residues := c.residues.drop 128 } else c)
      { d with cores := cs.filter (fun c => !(c.index == coreGone && c.residues.isEmpty)) }
  else d

/-- A stream is past a destination unit: slices that are now complete are signalled (R296), and a stream that has written its last
unit has finished. -/
def State.pastUnit (s : State) (did : Nat) : State :=
  match s.desc did with
  | none => s
  | some d =>
    let g := d.geo
    let d := { d.passTile (g.indexAt d.pos) with pos := g.headFrom (d.pos + 1), outDone := false, wr := none }
    let s := s.setDesc (s.prune d)
    let s := (s.sliceSignals did (g.writtenTo d.pos)).freeIdx did
    if g.dst.total ≤ d.pos then
      s.onDesc did (fun d => if d.ended then d else { d with phase := .finishing })
    else s

/-- A destination unit is made and waits for its writes. -/
def State.setOut (s : State) (d : Desc) (obj va : Nat) (m : Made) : State :=
  (s.setDesc { d with wr := some { id := s.ids, obj := obj, va := va, data := m.data, enables := m.enables, parts := [], ranges := [], tag := 0,
                                   issued := 0, zeroTile := m.zeroTile, notes := m.notes } }).useId

/-- An index of a destination unit that its policy refuses at the second reading of the list (R164): position and value. -/
def State.badIndex (s : State) (d : Desc) (i : List Nat) : Option (Nat × Int) :=
  if d.geo.scans then
    least ((d.geo.dst.unitElems i).filterMap (fun e =>
      let j := d.geo.idxPos e.2
      if d.geo.resolveIdx (s.idxFun d j) = .bad then some j else none)) |>.map (fun j => (j, s.idxFun d j))
  else none

/-- Word 1 of a record with INDEX_RANGE (Table 3-25). -/
def rangeWord (pos : Nat) (v : Int) : Word := word (pos % 2 ^ 32 + 2 ^ 32 * unsgn 32 v)

/-- The address of the destination unit at an index. -/
def State.dstVa (s : State) (d : Desc) (i : List Nat) : Nat :=
  (d.geo.dst.locate ((d.geo.target (s.idxFun d) i).getD i)).1

/-- The source unit of the first element of a destination unit, through the ring stages. -/
def State.sourceOf (s : State) (d : Desc) (i : List Nat) : Option FUnit :=
  (d.geo.source (s.lognOf d) (s.idxFun d) i).map (fun p => d.geo.srcUnit p.1)

/-- An error in lens staging that the lens cannot correct, in the unit at `pos` (R207): the source tiles of its limb, or of the unit of a
stream that stages less, are read again once, and a second one ends the descriptor with the address of the source tile of the unit's first
residue. -/
def State.restage (s : State) (d : Desc) : State :=
  let g := d.geo
  let lo := if g.wholeLimb then d.pos / g.limbLen * g.limbLen else d.pos
  let places := if g.wholeLimb then g.limbTiles d.pos else [d.pos]
  let units := places.flatMap (fun e => s.srcNeeds d (g.indexAt e))
  if d.eccLimb = some lo then
    s.setDesc (endWith d 0x30 (word (((s.sourceOf d (g.indexAt d.pos)).map (·.va)).getD g.src.base)))
  else
    let d := if g.expanded (g.indexAt lo) then d.loseCores false else d
    let again := fun (u : InUnit) => if units.contains u.unit then { u with issued := 0, parts := [] } else u
    let d := { d with eccLimb := some lo, ins := d.ins.map again, liftPos := min d.liftPos lo }
    (s.setDesc d).bump (Reg.lnCnt (s.groupOf d.queue)) 15 0

/-- A unit leaves lens staging under its ECC (R207). The second component says whether it may be used. -/
def State.lensOut (s : State) (did : Nat) : State × Bool :=
  match s.desc did with
  | none => (s, false)
  | some d =>
    let g := s.groupOf d.queue
    if d.stagingKib = 0 ∨ s.takesStaging d d.pos = false then (s, true)
    else match s.inject 0 g (some (s.ctxOf d.queue)) with
      | (s, .clean) => (s, true)
      | (s, .corrected) =>
        (((s.countEcc 0 g false).bump (Reg.lnCnt g) 31 16).onDesc did (fun d => { d with corrected := d.corrected + 1 }), true)
      | (s, .uncorrectable) => ((s.countEcc 0 g true).ifLive did State.restage, false)

/-- Slots of 64 B for the compute port (R566). -/
def State.portSlots (s : State) (d : Desc) (kind chan : Nat) (data : Bytes) (ends : Bool) : State :=
  let g := s.groupOf d.queue
  let n := ceilDiv data.length 64
  let x := s.cport g
  let new := (List.range n).map (fun k =>
    (d.id, { id := s.ids, pos := d.pos, last := ends && k + 1 == n, kind := kind, chan := chan,
             data := fitTo 64 (data.drop (64 * k)) : Slot }))
  (s.setCport g { x with dlv := x.dlv ++ new }).useId

/-- The bytes of a skip marker (R567): the destination index of the first residue of its tile. -/
def markerBytes (i : List Nat) : Bytes := fitTo 64 (i.flatMap (leBytes 4 ·))

/-- The values that the spec leaves open in a destination unit at an address. A byte that lies in the source's span holds a free value
(R73). Where units emitted earlier hold bytes of this one, the later value does or does not prevail there, by a free value: for each element
as a whole (R71), and for a tile, a lift block and the row unit of a plain SCATTER (R171) as a whole (R52, R57); where it does not, its
enables are off for the bytes that the earlier ones wrote, as if the earlier write had come last (log entries 18 and 19). -/
def State.openBytes (s : State) (d : Desc) (va : Nat) (m : Made) : State × Made :=
  let g := d.geo
  let n := m.data.length
  let mixed := fun a => !g.src.empty && g.src.base ≤ a && a ≤ g.src.top
  let early := d.placed.filter (fun p => p.1 < d.pos && p.2.1 < va + n && va < p.2.1 + p.2.2.length)
  let wrote := fun b => early.any (fun p => p.2.1 ≤ va + b && p.2.2.getD (va + b - p.2.1) false)
  let whole := g.op = 3 ∨ byteFmt g.dst.fmt = false
  let elem := fun b => if whole then 0 else 8 * b / elemBits g.dst.fmt
  let yields := fun b => wrote b && Config.openValue (if whole then 13 else 14) (4096 * s.free + elem b) % 2 == 1
  let s' := if g.op = 3 ∨ (g.op ≠ 4 ∧ g.dst.mayShare = true) then
      s.onDesc d.id (fun d => { d with placed := d.placed.filter (fun p => p.1 < d.pos) ++ [(d.pos, va, m.enables)] })
    else s
  if early.isEmpty && !(List.range n).any (fun b => mixed (va + b)) then (s', m)
  else
    (s'.useFree, { m with
      data := (List.range n).map (fun b => if mixed (va + b) then BitVec.ofNat 8 (Config.openValue 15 (4096 * s.free + b)) else m.data.getD b 0),
      enables := (List.range n).map (fun b => m.enables.getD b true && !yields b) })

/-- The room that a compute port has for a stream's next slots: 64 slots of each stream (R26, R40, R285; DESIGN CHOICE, log entry 125). -/
def State.dlvRoom (s : State) (d : Desc) (n : Nat) : Bool :=
  ((s.cport (s.groupOf d.queue)).dlv.filter (fun x => x.1 == d.id)).length + n ≤ 64

/-- Makes the next destination unit of a stream, passing over units of which nothing is written (R67, R139, R170). Lift output for a
compute port does not pass through the mover (R254). -/
def State.makeNext (did : Nat) : Nat → State → State
  | 0, s => s
  | n + 1, s =>
    match s.desc did with
    | none => s
    | some d =>
      let g := d.geo
      if !s.mayWrite d || d.wr.isSome || d.rmwOut || g.dst.total ≤ d.pos || (g.op == 8 && g.toPort && !g.wholeLimb) then s
      else if !s.headReady d d.pos || (g.toPort && !s.dlvRoom d 4) then s
      else
        let i := g.indexAt d.pos
        match s.badIndex d i with
        | some (j, v) => s.setDesc (endWith d 0x14 (rangeWord j v))
        | none =>
          if g.outlier && i.getD 0 0 == 0 && !d.outDone then
            match s.outRecord d i with
            | some b => s.setOut { d with outDone := true } 5 (g.outVa (g.window i)) (wholeUnit b Notes.zero)
            | none => makeNext did n (s.setDesc { d with outDone := true })
          else
            match s.make d i with
            | none => makeNext did n (s.pastUnit did)
            | some m =>
              match s.lensOut did with
              | (s, false) => s
              | (s, true) =>
                let s := if g.toPort then s.useFree else s
                match s.desc did with
                | none => s
                | some d =>
                  if m.zeroTile && g.toPort then
                    makeNext did n (((s.portSlots d 1 (g.dst.base % 256) (markerBytes i) true).takeNotes did true m.notes).pastUnit did)
                  else if g.toPort then s.setOut d 1 0 m
                  else
                    let va := s.dstVa d i
                    let (s, m) := s.openBytes d va m
                    match s.desc did with
                    | none => s
                    | some d => s.setOut d 1 va m

/-! ### Issue of writes -/

/-- What a unit that is written needs (R350): outlier records are plain writes. -/
def outNeed (d : Desc) (u : OutUnit) : Need := if u.obj = 5 then dstNeed 1 else dstNeed d.geo.op

/-- Makes the next unit of a stream and looks it up as a whole before any byte of it is issued (R201, R268, R356). A stream that can take no
line to a chip that its unit goes to waits for one (R463). -/
def State.prepWrite (s : State) (did : Nat) : State :=
  let s := State.makeNext did 64 s
  match s.desc did with
  | none => s
  | some d =>
    match d.wr with
    | none => s
    | some u =>
      if d.geo.toPort || !s.mayWrite d then s
      else if !u.parts.isEmpty then
        (u.parts.filterMap (·.chip)).foldl (fun s c => if s.lineRoom d c then s else s.noteWait did c) s
      else
        let tag := s.tagOf (s.ctxOf d.queue)
        match s.look d.mover d.results tag u.va u.data.length (outNeed d u) with
        | .walk va => s.walkFor d va
        | .fault row => s.streamFault { d with results := [] } { obj := u.obj, va := u.va, len := u.data.length } row
        | .ok parts rs =>
          (match s.cacheParity d.mover (s.ctxOf d.queue) u.va with
           | (s, true) => s.walkFor d u.va
           | (s, false) => s.setDesc { d with results := [], wr := some { u with parts := parts, ranges := rs, tag := tag } })

/-- Whether a line takes data now: one that is there sends what it has, and its last block may still grow (R385, R446); a new one can be
taken (R463). -/
def State.lineTakes (s : State) (d : Desc) (chip : Nat) : Bool :=
  match (tget d.lines chip).bind (tget s.fab.out) with
  | some x => x.due.isEmpty
  | none => s.lineRoom d chip

/-- The write that a stream is ready to issue: a piece of up to 256 B of its unit, or slots for its compute port (R282, R497). -/
def State.readyWrite (s : State) (d : Desc) : Option XPart :=
  match d.wr with
  | none => none
  | some u =>
    if !s.mayWrite d then none
    else if d.geo.toPort then
      (if s.dlvRoom d 4 then some { chip := none, pa := 0, len := min 256 (u.data.length - u.issued) } else none)
    else
      match pieceAt u.parts u.issued with
      | none => none
      | some p =>
        match p.chip with
        | none => if s.wakeHolds d.id false || s.bankFull d.id p.pa then none else some p
        | some c => if s.lineTakes d c then some { p with len := min 256 p.len } else none

/-- The element bytes of a unit that is added at another chip (R446: a whole access unit): where nothing is to be added, the number that
changes no finite one, -0 for a float and 0 for an integer (R172; DESIGN CHOICE, log entry 127). -/
def addNeutral (f : Nat) (data : Bytes) (en : List Bool) : Bytes :=
  let w := elemBits f / 8
  (List.range data.length).map (fun b =>
    if en.getD b true then data.getD b 0 else if fltFmt f && b % max w 1 + 1 == w then 0x80 else 0)

/-- What an addition of a stream adds by: format, rounding and the prime of the limb (R173 to R175). -/
def State.addFormOf (s : State) (d : Desc) : AddForm :=
  { fmt := d.geo.dst.fmt, round := d.geo.round, prime := s.primeAt d ((d.geo.indexAt d.pos).getD 1 0) }

/-- A piece of a unit for another chip (R446): DATA, or DATA_MASKED where not every byte is enabled; an ADD carries its whole unit with the
last piece. -/
def State.remotePart (s : State) (d : Desc) (u : OutUnit) (p : XPart) (chip : Nat) : State :=
  if s.fab.idValid = false then s.setDesc { endWith d 0x31 (word u.va) with wr := none }
  else
    match s.lineFor d.id chip with
    | (s, none) => s
    | (s, some n) =>
      let add := d.geo.op == 4 && u.obj == 1
      let off := if add then 0 else u.issued
      let len := if add then u.data.length else p.len
      let en := (u.enables.drop off).take len
      let data := (u.data.drop off).take len
      let f := d.geo.dst.fmt
      let s := s.onDesc d.id (fun d => { d with wr := some { u with issued := u.issued + p.len } })
      if !en.any id || (add && u.issued + p.len < u.data.length) then s
      else
        let kind := if add then 3 else if en.all id then 1 else 2
        let t := { Tag.ofKind kind with
          addr := (if add then p.pa - u.issued else p.pa) % 2 ^ 44 / 64, fmt := if add then f else 0,
          prime := if add ∧ f = 11 then (d.geo.indexAt d.pos).getD 1 0 else 0,
          round := if add ∧ fltFmt f then d.geo.round else 0 }
        (s.countAccess u.ranges (u.va + off) len).lineItem n t (if add then addNeutral f data en else data) en (u.va + off) (some u.tag) [u.id]

/-- A piece of a unit for a memory or a bank of this chip; an addition goes out whole with the last piece (R176, R282). -/
def State.localPart (s : State) (d : Desc) (u : OutUnit) (p : XPart) : State :=
  let add := d.geo.op == 4 && u.obj == 1
  let last := u.data.length ≤ u.issued + p.len
  let off := if add then 0 else u.issued
  let len := if add then u.data.length else p.len
  let pa := if add then p.pa - u.issued else p.pa
  let en := (u.enables.drop off).take len
  let s := s.setDesc { d with wr := some { u with issued := u.issued + p.len }, rmwOut := add && last && en.any id }
  if !en.any id || (add && !last) then s
  else
    match s.routePa pa with
    | none => s
    | some dest =>
      let r := mkReq dest pa len (if add then .rmw else .write) (if add then .rmw d.id d.pos else .dst d.id u.obj u.va d.pos)
        (s.masterOf d) d.queue (s.ctxOf d.queue) (some u.tag) (s.isLc d.queue) ((u.data.drop off).take len) en
      (s.countAccess u.ranges (u.va + off) len).addReq { r with unit := u.id, form := s.addFormOf d }

/-- Slots of a unit for the compute port. -/
def State.portPart (s : State) (d : Desc) (u : OutUnit) (n : Nat) : State :=
  (s.portSlots d (if u.obj = 5 then 2 else 0) ((if u.obj = 5 then d.geo.outlierDst else d.geo.dst.base) % 256)
    ((u.data.drop u.issued).take n) (u.data.length ≤ u.issued + n)).onDesc d.id (fun d => { d with wr := some { u with issued := u.issued + n } })

/-- Issues a write of up to 256 B, data for another chip, or slots to the compute port (R282). A unit that is out in full is
past. -/
def State.issueWrite (s : State) (did : Nat) : State :=
  match s.desc did with
  | none => s
  | some d =>
    match s.readyWrite d, d.wr with
    | some p, some u =>
      let s := if d.geo.toPort then s.portPart d u p.len
        else match p.chip with
          | some c => s.remotePart d u p c
          | none => s.localPart d u p
      (match s.desc did with
       | none => s
       | some e =>
         if e.wr.any (fun w => w.data.length ≤ w.issued) then
           (if u.obj = 5 ∨ e.ended = true then s.setDesc { e with wr := none } else (s.takeNotes did u.zeroTile u.notes).pastUnit did)
         else s)
    | _, _ => s

/-! ### The issue cycle -/

/-- A stream as a request at an arbitration point. -/
def State.candOf (s : State) (d : Desc) (bytes : Nat) : Cand :=
  { id := d.id, queue := d.queue, lc := s.isLc d.queue, weight := (s.queue d.queue).weight, bytes := bytes }

/-- The arbitration point of a mover's write direction. -/
def moverWritePoint (m : Nat) : Nat := 48 + m

/-- Data that take none of the movers' write capacity: merged data of an EXPAND and lift output, for the compute port (R25, R254). -/
def Geo.besides (g : Geo) : Bool := g.toPort && (g.op == 7 || g.op == 8)

/-- The lines of a stream to which no further data of it are ready send their last block as it is (R446). -/
def State.sealIdle (s : State) (did : Nat) : State :=
  match s.desc did with
  | none => s
  | some d =>
    let next := (s.readyWrite d).bind (·.chip)
    (d.lines.filter (fun p => some p.1 != next)).foldl (fun s p => s.sealLine p.2) s

/-- The streams of a mover plan and look up: the wakes of their operands, the late signals that wait for a line, and what they are to read
and to write next. -/
def State.moverPrep (s : State) (m : Nat) : State :=
  let ids := (s.onMover m).map (·.id)
  let s := ids.foldl State.askWakes s
  let s := ids.foldl State.prepRead s
  let s := ids.foldl State.prepWrite s
  let s := ids.foldl (fun s i => State.runLate i 64 s) s
  ids.foldl State.sealIdle s

/-- One cycle of a mover (R282): its streams plan and look up, and at most one read and one write are issued, each by arbitration
among the ready streams (R283). Data for the compute port that take no write capacity go out beside them. -/
def State.moverCycle (s : State) (m : Nat) : State :=
  let s := s.moverPrep m
  let reads := (s.onMover m).filterMap (fun d => (s.readyRead d).map (fun r => s.candOf d r.2.2.1.len))
  let (s, r) := s.arbitrate (moverPoint m) 256 reads
  let s := match r with
    | some c => s.issueRead c.id
    | none => s
  let writes := ((s.onMover m).filter (fun d => !d.geo.besides)).filterMap (fun d => (s.readyWrite d).map (fun p => s.candOf d p.len))
  let (s, w) := s.arbitrate (moverWritePoint m) 256 writes
  let s := match w with
    | some c => s.issueWrite c.id
    | none => s
  (((s.onMover m).filter (fun d => d.geo.besides)).map (·.id)).foldl State.issueWrite s

/-- Whether a stream is ready in a direction (R282): what it would read or write next, once planned and looked up, may go out. -/
def State.isReady (s : State) (d : Desc) : Bool :=
  let t := (s.prepRead d.id).prepWrite d.id
  match t.desc d.id with
  | some e => (t.readyRead e).isSome || (t.readyWrite e).isSome
  | none => false

/-- A reported group of which a stream is ready is woken (R413). -/
def State.wakeReady (s : State) : State :=
  (List.range 12).foldl (fun s g =>
    if bit (s.reg Reg.byLendStat) g && (s.inGroup g).any s.isReady then s.wakeGroup g else s) s

/-! ### Data that come back -/

/-- A stream ends with DATA_CHECK at a unit (R531). -/
def State.dataCheck (s : State) (did va : Nat) : State :=
  s.onDesc did (fun d => if d.ended then d else endWith d 0x30 (word va))

/-- A change of the units of one object and address. -/
def Desc.onUnit (d : Desc) (obj va : Nat) (f : InUnit → InUnit) : Desc :=
  { d with ins := d.ins.map (fun u => if u.unit.obj = obj ∧ u.unit.va = va then f u else u) }

/-- The bad indices of a granule of the list, from position `j` (R164). -/
def Geo.scanBad (g : Geo) (b : Bytes) (j n : Nat) : Option (Nat × Int) :=
  ((List.range n).map (fun k => (j + k, sgn 32 (leAt b (4 * k) 4)))).find? (fun p => g.resolveIdx p.2 == .bad)

/-- Checks the granules of an index list that have arrived, in order (R163, R164). A list of more than 4096 is not kept, and is read
again. -/
def State.scanList (did : Nat) : Nat → State → State
  | 0, s => s
  | n + 1, s =>
    match s.desc did with
    | none => s
    | some d =>
      let g := d.geo
      if !g.scans || g.idxCount ≤ d.idxScan || d.ended then s
      else
        let u := g.idxUnit d.idxScan
        match d.inBytes 2 u.va with
        | none => s
        | some b =>
          let k := min 16 (g.idxCount - d.idxScan)
          match g.scanBad b d.idxScan k with
          | some (j, v) => s.setDesc (endWith d 0x14 (rangeWord j v))
          | none =>
            let long := 4096 < g.idxCount
            let d := { d with idxScan := d.idxScan + k,
                              ins := if long then d.ins.filter (fun x => !(x.unit == u)) else d.ins }
            let s := s.setDesc d
            let s := if long ∧ g.idxCount ≤ d.idxScan then s.bump (Reg.mvReuseCnt (s.groupOf d.queue)) 47 32 else s
            scanList did n s

/-- Whether a seed record passes R216: its TAG, VALID and the reserved bytes 34 to 63. -/
def seedOk (tag : Nat) (b : Bytes) : Bool := leAt b 32 1 == tag && nbit (leAt b 33 1) 0 && leAt b 34 30 == 0

/-- The seed records of an EXPAND are taken once they have all been read (R216, R217); then it asks for cores. -/
def State.takeSeeds (s : State) (did : Nat) : State :=
  match s.desc did with
  | none => s
  | some d =>
    let g := d.geo
    let got := (List.range g.seedCount).filterMap (fun r => d.inBytes 3 (g.seedBase + 64 * r))
    if g.seedCount = 0 ∨ d.seeds.length = g.seedCount ∨ got.length < g.seedCount ∨ d.ended then s
    else if got.all (seedOk g.domainTag) then
      s.setDesc { d with seeds := got, ins := d.ins.filter (fun u => u.unit.obj != 3) }
    else s.setDesc (endWith d 0x10 (fieldWord (256 + 24)))

/-- A part of a unit has arrived (R294: a stream that has ended or halted drops it). A whole unit passes the mover's read buffer,
under its ECC (Table 16-2). -/
def State.srcReturn (s : State) (did obj va off : Nat) (data : Bytes) : State :=
  match s.desc did with
  | none => s
  | some d =>
    if !(d.phase == .running || d.phase == .faulted) then s
    else
      let s := s.setDesc (d.onUnit obj va (fun u =>
        if u.parts.any (fun p => p.1 == off) then u else { u with parts := u.parts ++ [(off, data)] }))
      match (s.desc did).bind (fun d => d.inUnit obj va) with
      | none => s
      | some u =>
        if u.bytes.isNone then s
        else
          let m := d.mover.getD 0
          let s := match s.inject 8 m (some (s.ctxOf d.queue)) with
            | (s, .clean) => s
            | (s, .corrected) => (s.countEcc 8 m false).onDesc did (fun d => { d with corrected := d.corrected + 1 })
            | (s, .uncorrectable) =>
              let s := s.countEcc 8 m true
              if u.reread then s.dataCheck did va
              else s.onDesc did (fun d => d.onUnit obj va (fun u => { u with issued := 0, parts := [], reread := true }))
          (State.scanList did 257 s).takeSeeds did

/-! ### Halts -/

/-- Reads or writes of a stream that are outstanding. -/
def State.streamOut (s : State) (did : Nat) : Bool := s.writesOut did || s.readsOut did != 0

/-- Nothing more of a faulted stream can be written: its next unit needs what faulted, or the checks that come before every write do
(R159, R294, R297). -/
def State.blocked (s : State) (d : Desc) : Bool :=
  match d.wr with
  | some u => d.dstFault && u.issued == 0
  | none => d.dstFault || !d.checked || !s.headReady d d.pos

/-- The slices signalled along the lowest dimension of the signals in force with TIMING 01 (Table 8-2). -/
def Desc.slicesDone (d : Desc) : Nat :=
  let l := d.sigs.filterMap (fun g => g.bind (fun g =>
    if sgTiming g.word.toNat = 1 then some (sgDim g.word.toNat, g.slices) else none))
  match least (l.map (·.1)) with
  | some k => ((l.find? (fun p => p.1 == k)).map (·.2)).getD 0
  | none => 0

/-- The place at which filling resumes (R199): that of the first tile, from the limb of the emit position on, that takes staging and is not
staged; for a LIFT, how far its lift unit has produced. Where no tile is left to fill, the place past the last, whose index is limb 0,
tile 0 (DESIGN CHOICE, log entry 122). -/
def State.stagePos (s : State) (d : Desc) : Nat :=
  let g := d.geo
  let lo := d.pos / g.limbLen * g.limbLen
  if g.op = 8 then d.liftPos
  else
    lo + 128 * (searchUp (fun t => !s.unitReady d (g.indexAt (lo + 128 * t))) ((g.dst.total - lo) / 128) 0).getD ((g.dst.total - lo) / 128)

/-- The limbs of which the lens holds source tiles, or what a lift unit has made of them, from the limb of the emit position on (R203). -/
def State.limbsStaged (s : State) (d : Desc) : Nat :=
  let g := d.geo
  let lo := d.pos / g.limbLen * g.limbLen
  if !g.wholeLimb then 0
  else if g.op = 8 then ceilDiv (d.liftPos - lo) g.limbLen
  else
    ((List.range (ceilDiv (min (d.rdPos + 1) g.dst.total - lo) g.limbLen)).filter (fun k =>
      (g.limbTiles (lo + g.limbLen * k)).any (fun e =>
        (s.srcNeeds d (g.indexAt e)).any (fun u => (d.inBytes 0 u.va).isSome)))).length

/-- The saved-position record of a stream (Table 8-2), 256 B. -/
def State.saveRecord (s : State) (d : Desc) : Bytes :=
  let g := d.geo
  let x := s.queue d.queue
  let i := unlin g.dst.n (g.writtenTo d.pos)
  let j := g.indexAt (s.stagePos d)
  let limb := fun (e : List Nat) => if g.wholeLimb then (g.window e).getD 1 0 else 0
  let tile := fun (e : List Nat) => if g.wholeLimb then e.getD 0 0 / 128 else 0
  let body :=
    leBytes 2 d.queue ++ leBytes 1 g.op ++ leBytes 1 ((d.fault.map (·.obj)).getD 0) ++ leBytes 4 (d.first % 2 ^ x.log2) ++
    leBytes 8 ((d.fault.map (·.va)).getD 0) ++ i.flatMap (leBytes 4 ·) ++
    leBytes 4 (if d.parent.isSome then d.iter else 0) ++ leBytes 4 (if d.parent.isSome then d.ent else 0) ++
    leBytes 4 (if g.fed then d.idxDone else 0) ++ leBytes 8 d.slicesDone ++
    leBytes 8 (min d.noted 0xFFFFFFFF + 2 ^ 32 * min d.replaced 0xFFFF + 2 ^ 48 * min d.corrected 0xFFFF) ++
    leBytes 1 (limb i) ++ leBytes 1 (limb j) ++ leBytes 2 (tile i) ++ leBytes 2 (tile j) ++
    leBytes 1 (b2n d.holdLeft + 2 * b2n g.fed + 4 * b2n d.parent.isSome) ++ leBytes 1 (d.mover.getD 0) ++
    leBytes 8 (Config.haltStamp s.free) ++ zeros 44
  let res := (List.range 16).flatMap (fun b => leBytes 8 (d.resolved.getD b 0))
  body ++ leBytes 4 (crc32c (body ++ res)) ++ res

/-- The descriptor whose FIRST entry takes the interim record of a stream: its own, or the REPLAY that replayed it (R132). -/
def State.interimOf (s : State) (d : Desc) : Desc :=
  match d.parent with
  | some p => (s.desc p).getD d
  | none => d

/-- Sends the interim record HALTED_RESUMABLE of a stream, or of a REPLAY whose reads halted (R132, R613). -/
def State.sendInterim (s : State) (did : Nat) : State :=
  match s.desc did with
  | none => s
  | some d =>
    let e := s.interimOf d
    let h := headOf (e.entries.headD [])
    let va := (d.fault.map (·.va)).getD (d.replayFault.getD 0)
    s.qmSend (qmWrite d.queue (slotVa (s.queue d.queue) d.first)
      (recordBytes (hTag h) (hPhase h) 0 0x20 false e.entriesDone (word va)) (.interim did))

/-- A stream halts (R294, R301): it gives up its slot, cores and lift slot, and its staging unless a whole-limb stream holds it for
HOLD_US (R202); then its saved-position record goes out (R298). -/
def State.haltStream (s : State) (d : Desc) : State :=
  let grp := s.groupOf d.queue
  let hold := d.geo.wholeLimb && d.staged && fld (s.act (Reg.lnCfg grp)) 9 0 != 0
  let data := s.saveRecord { d with holdLeft := hold }
  let pa := (s.queue d.queue).save + 256 * d.recIdx
  let d := { d.loseCores hold with
    phase := .saving, mover := none, liftSlot := none, liftWait := false, holdLeft := hold, staged := hold, stagingWait := false,
    ins := if hold then d.ins else d.ins.filter (fun u => u.unit.obj == 3), results := [], recent := [], runs := [], wr := none,
    stagedLimbs := s.limbsStaged d, outDone := false, haltedAt := s.ids, resumeStamp := 0 }
  let s := (((s.setDesc d).useId).useFree).bump (Reg.mvCnt grp) 47 32
  match s.routePa pa with
  | some dest =>
    s.addReq (mkReq dest pa 256 .write (.save d.id) ctlMaster d.queue 0xFFFF none (s.isLc d.queue) data (List.replicate 256 true))
  | none => s.sendInterim d.id

/-- STREAM_HALT (R294): a stream that has met a fault halts once nothing of it is outstanding and nothing more can be written; a
REPLAY that halted on its reads writes its interim record (R613). -/
def State.halt (s : State) (did : Nat) : State :=
  match s.desc did with
  | none => s
  | some d =>
    if d.phase == .faulted && !s.streamOut did && s.blocked d then s.haltStream d
    else if d.phase == .saving && d.replayFault.isSome &&
        !s.reqs.any (fun r => r.owner == .interim did) && !s.qmParked.any (fun r => r.use == .interim did) then
      s.sendInterim did
    else s

/-- STREAM_HALT (R294). -/
def execStreamHalt (did : Nat) (s : State) : Host.Outcome State Fault Refusal :=
  whenIssuing (fun s => (s.halt did).pump) s

/-! ### Lens staging -/

/-- The stream that began first among those of a list: the place in the orders of R196. -/
def oldest (l : List Desc) : Option Desc :=
  l.foldl (fun best d => match best with
    | some b => if d.begunAt < b.begunAt then some d else best
    | none => some d) none

/-- A halted stream gives up its staging (R202). -/
def Desc.dropStaging (d : Desc) : Desc :=
  { d with staged := false, holdLeft := false, ins := d.ins.filter (fun u => u.unit.obj == 3),
           cores := d.cores.map (fun c => { c with index := coreLost, tile := 0, residues := [], lanes := [], carry := [] }) }

/-- The halted streams of a group that hold staging, the earliest halt first. -/
def State.holders (s : State) (g : Nat) : List Desc :=
  sortBy (fun a b => a.haltedAt ≤ b.haltedAt)
    ((s.inGroup g).filter (fun d => d.staged && d.holdLeft && (d.phase == .saving || d.isHalted)))

/-- Releases the staging of halted streams until a request fits (R202). -/
def State.makeRoom (g need : Nat) : List Desc → State → State
  | [], s => s
  | d :: r, s =>
    if need ≤ s.lensKib - s.stagedKib g then s
    else makeRoom g need r ((s.onDesc d.id Desc.dropStaging).bump (Reg.lnCnt g) 47 32)

/-- The lens grants staging to the stream that has waited longest by R196, once it fits. One that needs more than the lens has is never
granted, and holds back the later ones (DESIGN CHOICE, log entry 121). -/
def State.lensGrant (s : State) (g : Nat) : State :=
  match oldest ((s.inGroup g).filter (·.stagingWait)) with
  | none => s
  | some d =>
    let s := State.makeRoom g d.stagingKib (s.holders g) s
    if d.stagingKib ≤ s.lensKib - s.stagedKib g then
      s.onDesc d.id (fun d => { d with stagingWait := false, staged := true })
    else s

/-- LENS_STAGING_GRANT (R196). -/
def execLensStagingGrant (g : Nat) (s : State) : Host.Outcome State Fault Refusal :=
  whenIssuing (fun s => if s.hasGroup g then (s.lensGrant g).wakeReady else s) s

/-- LENS_HOLD_EXPIRY (R202): HOLD_US has passed since the halt; the time is the command's. -/
def execLensHoldExpiry (did : Nat) (s : State) : Host.Outcome State Fault Refusal :=
  whenNormal (fun s =>
    match s.desc did with
    | some d => if d.holdLeft && (d.phase == .saving || d.isHalted) then s.setDesc d.dropStaging else s
    | none => s) s

end Sys2Proof.Machine
end

