-- ==== Sys2Proof/Machine/Fabric.lean ====
section
/-! DEFINITION. Links (R443 to R452), discovery and chip IDs (R453 to R457), transit (R460, R461), leading lines at both ends (R463 to
R472), arbitration at a link (R473), failures (R474 to R476) and fog (R478, R479). -/

namespace Sys2Proof.Machine

/-! ### Checks on a received block -/

/-- The payload granules that a kind may have (Table 13-3). -/
def kindGranules (k n : Nat) : Bool :=
  if k = 1 ∨ k = 3 then 1 ≤ n && n ≤ 36
  else if k = 2 then 2 ≤ n && n ≤ 9
  else if k = 6 ∨ k = 7 then n == 1
  else n == 0

/-- Whether a tag has a known KIND and zero wherever Table 13-2 says zero (R447). -/
def tagSound (b : LinkBlock) : Bool :=
  let n := b.tag.toNat
  let t := tagFields b
  t.kind ≤ 10 && nfld n 63 56 == 0 && nfld n 255 253 == 0 && nfld n 319 288 == 0 && (t.kind == 4 || t.amount == 0) &&
    (t.kind == 3 || (t.fmt == 0 && t.prime == 0 && t.round == 0)) && (t.fmt == 11 || t.prime == 0) &&
    (fltFmt t.fmt || t.round == 0) && kindGranules t.kind t.granules && b.payload.length == 64 * t.granules

/-- Whether the CRC of a block matches (R448). -/
def crcGood (b : LinkBlock) : Bool :=
  nfld b.tag.toNat 287 256 == blockCrc (leBytes 32 (b.tag.toNat % 2 ^ 256)) b.payload

/-- The kinds that a link accepts in its state (Table 13-1, R454, R478). -/
def carries (st : LinkState) (k : Nat) : Bool :=
  match st with
  | .up => true
  | .training => k == 6 || k == 7
  | .isolated => k == 6
  | _ => false

/-! ### What a link sends of its own -/

/-- The beacon of a link (Table 13-4). -/
def State.beaconFor (s : State) (l : Nat) : LinkItem :=
  let payload := leBytes 4 (s.fab.chipId % 2 ^ 20 + 2 ^ 31 * b2n s.fab.idValid) ++ leBytes 4 (s.actFld Reg.fbSystem 63 32) ++
    leBytes 2 s.kp.epoch ++ leBytes 1 l ++ leBytes 1 s.grade ++ zeros 52
  ownItem { Tag.ofKind 6 with granules := 1, src := s.fab.chipId % 2 ^ 20 } payload

/-- Whether a link exchanges beacons (R453). -/
def State.beacons (s : State) (l : Nat) : Bool :=
  s.hasLink l && ((s.link l).state == .training || (s.link l).state == .up || (s.link l).state == .isolated)

/-- A beacon is to be sent on a link (R453). -/
def State.wantBeacon (s : State) (l : Nat) : State := if s.beacons l then s.linkPush l (s.beaconFor l) else s

/-- Beacons are to be sent on every link: the chip's ID or system tag has changed (R453). -/
def State.wantBeacons (s : State) : State := (List.range s.nLinks).foldl State.wantBeacon s

/-- A link starts to train: its sequences start at zero, it holds the credits of an empty receive buffer (R449), and a beacon is to be
sent (R453). -/
def State.train (s : State) (l : Nat) : State :=
  let x := s.link l
  (s.setLink l { Link.blank with state := .training, nbrValid := x.nbrValid, nbrLink := x.nbrLink, nbrChip := x.nbrChip,
                                 nbrEpoch := x.nbrEpoch, locked := x.locked, credits := 32 }).wantBeacon l

/-- ADMIN_DOWN of a link in the active configuration. -/
def State.adminDown (s : State) (l : Nat) : Bool := bit (s.act (Reg.fbLinkStat l)) 62

/-- A link fails (R451, R474): its cause is recorded, its unacknowledged blocks go to the other links of their sets. -/
def State.failLink (s : State) (l cause : Nat) : State :=
  if (s.link l).state == .failed then s
  else
    let s := ((s.dropLink l .failed cause).evFb 0).bump (Reg.fbLinkCnt l) 63 48
    (s.logObj 0x09 keeperOrigin l (leBytes 20 (Config.openValue 6 s.free))).settleFabric

/-- LINK_LOCK: the PHY of a link reports lock; a DOWN link trains (Table 13-1). -/
def State.lockLink (s : State) (l : Nat) : State :=
  if s.hasLink l && !s.adminDown l then
    let s := s.setLink l { s.link l with locked := true }
    if (s.link l).state == .down then s.train l else s
  else s

/-- LINK_LOCK_LOSS: lock has been lost for longer than 200 ns, and the link fails (R451). -/
def State.loseLock (s : State) (l : Nat) : State :=
  if (s.link l).state == .down || !s.hasLink l then s.setLink l { s.link l with locked := false }
  else
    let s := s.setLink l { s.link l with locked := false }
    s.failLink l 1

/-- RESTORE: a FAILED link trains again (R444, Table 13-18). -/
def State.restoreLink (s : State) (l : Nat) : State :=
  if s.hasLink l && (s.link l).state == .failed then s.train l else s

/-! ### Chip ID and commits -/

/-- A chip ID comes into force (R455): the keeper logs it, and beacons carry it (R453). What OBJECT and DETAIL hold the spec does not
state (free values). -/
def State.setChipId (s : State) (id origin : Nat) : State :=
  if s.fab.idValid && s.fab.chipId == id then s
  else
    let s := { s with fab := { s.fab with chipId := id, idValid := true } }
    (s.logRec 0x0A origin 0xFFFF (Config.openValue 7 s.free % 2 ^ 32) 0 (word id) (leBytes 20 (Config.openValue 6 s.free))).wantBeacons

/-- What a commit does to the links of a fabric island: links with ADMIN_DOWN go DOWN, and, on fabric island 0, a staged chip ID comes
into force (R444, R455) and a changed system tag is announced (R453). A derived ID that is valid stays. -/
def State.fabricCommit (s : State) (island : Nat) : State :=
  let s := (List.range 16).foldl (fun s k =>
    let l := 16 * (island - 24) + k
    if s.adminDown l && (s.link l).state != .down then
      let s := s.dropLink l .down 0
      s.setLink l { s.link l with locked := false }
    else s) s
  let s := if island = 24 ∧ !bit (s.act Reg.fbChip) 62 ∧ !s.fab.derived then s.setChipId (s.actFld Reg.fbChip 19 0) keeperOrigin else s
  let tagged := rget s.grade s.cfg.old Reg.fbSystem
  let s := if island = 24 ∧ fld tagged 63 32 ≠ s.actFld Reg.fbSystem 63 32 then s.wantBeacons else s
  s.settleFabric

/-- A commit token reaches the next island; a fabric island that switches changes its links and the chip ID. -/
def State.tokenStep (s : State) : State :=
  let island := s.tokenOrder.getD s.commit.pos 31
  let t := s.token
  if s.commit.phase = .switch ∧ 24 ≤ island ∧ island < 30 then t.fabricCommit island else t

/-! ### Acknowledgements and credits of a link -/

/-- The other side has accepted every block before a sequence (R450): they leave the replay buffer, and progress ends the count of
timeouts (R451). -/
def ackLink (x : Link) (ack : Nat) : Link :=
  let base := (x.txSeq + 2 ^ 16 - x.replay.length) % 2 ^ 16
  let n := (ack + 2 ^ 16 - base) % 2 ^ 16
  if n ≤ x.replay.length then
    { x with replay := x.replay.drop n, timeouts := if n = 0 then x.timeouts else 0,
             resend := x.resend.bind (fun i => if x.replay.length - n = 0 then none else some (i - n)) }
  else x

/-- What every accepted tag carries: its acknowledgement and its credits (R449, R450). -/
def State.tagReturns (s : State) (l : Nat) (t : Tag) : State :=
  let x := ackLink (s.link l) t.ack
  s.setLink l { x with credits := x.credits + t.credit }

/-- A link sends its replay buffer again from a place (R450, R451); a block that has been sent 8 times fails the link. -/
def State.resendFrom (s : State) (l i : Nat) : State :=
  let x := s.link l
  if (x.replay.drop i).isEmpty then s
  else if (x.replay.drop i).any (fun b => 8 ≤ b.sends) then s.failLink l 2
  else s.setLink l { x with resend := some i }

/-- A block is discarded (R450, R465): the first discard is answered with a NACK that names the sequence expected. -/
def State.discardBlock (s : State) (l : Nat) : State :=
  let x := s.link l
  if x.nackSent then s
  else (s.setLink l { x with nackSent := true }).linkPush l (ownItem { Tag.ofKind 8 with src := s.fab.chipId % 2 ^ 20 } [])

/-- A block discarded for its CRC or its tag (R447, R450). -/
def State.crcFailure (s : State) (l : Nat) : State :=
  ((s.bump (Reg.fbLinkCnt l) 15 0).countEcc 11 l false).discardBlock l

/-! ### Inbound lines -/

/-- Replaces an inbound line. -/
def State.setIn (s : State) (k : Nat) (x : InLine) : State := { s with fab := { s.fab with inb := tput s.fab.inb k x } }

/-- The inbound line of a chip and a line number. -/
def State.inLine (s : State) (src line : Nat) : Option (Nat × InLine) :=
  s.fab.inb.find? (fun p => p.2.src == src && p.2.line == line)

/-- An inbound line is free: the blocks of it that lie in receive buffers leave them (R449), and accesses that are still outstanding for it
belong to no line. -/
def State.freeIn (s : State) (k : Nat) : State :=
  let x := tget s.fab.inb k
  let came := ((x.map (·.applying)).getD []).map (·.came) ++ ((x.map (·.reorder)).getD []).map (·.2.1)
  let s := came.foldl State.owe s
  { s with
    fab := { s.fab with inb := tdel s.fab.inb k },
    reqs := s.reqs.map (fun r => match r.owner with
      | .inbound n q => if n = k then { r with owner := .inbound 0xFFFFFF q } else r
      | .inboundAdd n q => if n = k then { r with owner := .inboundAdd 0xFFFFFF q } else r
      | _ => r) }

/-- An item of a line is refused (R467, R386): later items of the line are discarded until CLOSE. -/
def State.refuseItem (s : State) (k seq code : Nat) : State :=
  match tget s.fab.inb k with
  | none => s
  | some x => if x.refusal.isSome then s else s.setIn k { x with refusal := some (seq, code) }

/-- Whether a span may be written by a context from outside (R467). -/
def State.inboundOk (s : State) (ctx a len : Nat) (add : Bool) : Bool :=
  (List.range 64).any (fun i =>
    let attr := s.act (Reg.fbInAttr i)
    let base := 4096 * s.actFld (Reg.fbInBase i) 43 12
    bit attr 63 && fld attr 9 0 == ctx && bit attr 16 && (!add || bit attr 17) && base ≤ a &&
      a + len ≤ base + 4096 * s.actFld (Reg.fbInLen i) 43 12) &&
    (!add || inTier0 a || inWindow a) && s.spanOk a len

/-- Pieces of a span, each within one port (R575). -/
def pieces : Nat → Nat → Nat → List (Nat × Nat)
  | 0, _, _ => []
  | _, _, 0 => []
  | fuel + 1, a, len => (a, pieceLen a len) :: pieces fuel (a + pieceLen a len) (len - pieceLen a len)

/-- The master of Table 14-1 of the fabric endpoint, and the queue as which inbound items take part in arbitration (R472). -/
def fabMaster : Nat := 24
def inboundQueue : Nat := 0x10001

/-- An item that has passed its check is being applied: the next LINE_SEQ is awaited, and its block lies in the receive buffer of its link until
its accesses are done (R449, R472). -/
def State.applying (s : State) (k : Nat) (x : InLine) (seq parts : Nat) (came : Option Nat) : State :=
  s.setIn k { x with expect := (x.expect + 1) % 2 ^ 32, applying := x.applying ++ [{ seq := seq, parts := parts, came := came }] }

/-- Applies a write item that has passed its check. -/
def State.applyWrite (s : State) (k : Nat) (x : InLine) (t : Tag) (data : Bytes) (en : List Bool) (came : Option Nat) : State :=
  let a := t.addr * 64
  let ps := pieces 64 a data.length
  ps.foldl (fun s p =>
    match s.routePa p.1 with
    | some dest =>
      s.addReq (mkReq dest p.1 p.2 .write (.inbound k t.seq) fabMaster inboundQueue t.ctx none t.lc
        ((data.drop (p.1 - a)).take p.2) ((en.drop (p.1 - a)).take p.2))
    | none => s) (s.applying k x t.seq ps.length came)

/-- Applies an ADD item that has passed its check: one read-modify-write for each access unit (R176, R472). -/
def State.applyAdd (s : State) (k : Nat) (x : InLine) (t : Tag) (data : Bytes) (came : Option Nat) : State :=
  let a := t.addr * 64
  let u := unitBytes t.fmt
  let n := data.length / u
  let form : AddForm := { fmt := t.fmt, round := t.round, prime := fld (s.act (rkey Reg.cfPrimeQ t.ctx t.prime)) 35 0 }
  (List.range n).foldl (fun s j =>
    match s.routePa (a + u * j) with
    | some dest =>
      s.addReq { mkReq dest (a + u * j) u .rmw (.inboundAdd k t.seq) fabMaster inboundQueue t.ctx none t.lc
        ((data.drop (u * j)).take u) (List.replicate u true) with form := form }
    | none => s) (s.applying k x t.seq n came)

/-- Whether an ADD can be added here (R472): a format of R173, whole units, and for r36 a committed prime of the context. -/
def State.addable (s : State) (t : Tag) : Bool :=
  let ring := s.act (rkey Reg.cfCtxRing t.ctx)
  addFmt t.fmt && t.granules * 64 % unitBytes t.fmt == 0 && (t.fmt != 11 || (bit ring 15 && t.prime < fld ring 7 0))

/-- A remote buoy operation (R385, R386): refused for an identifier that is not mapped, on a poisoned buoy (DEDUCED from R384, log entry 88), and for
a subtract below zero. -/
def State.remoteBuoy (s : State) (k : Nat) (t : Tag) : State :=
  let ident := t.addr % 4096
  match s.physOf t.ctx ident with
  | none => (s.evBy 4).refuseItem k t.seq 0x21
  | some b =>
    match s.signalOp t.ctx ident b (t.addr / 4096 % 8 == 1) t.amount with
    | (s, .ok) => s
    | (s, .underflow) => (s.evBy 4).refuseItem k t.seq 0x22
    | (s, .poisoned) => (s.evBy 4).refuseItem k t.seq 0x21

/-- Passes over an item of which nothing is written. -/
def State.skipItem (s : State) (k : Nat) : State :=
  match tget s.fab.inb k with
  | none => s
  | some x => s.setIn k { x with expect := (x.expect + 1) % 2 ^ 32 }

/-- Applies the item whose turn it is (R438, R466, R467), whose block lies in the receive buffer of a link until it has been applied. Answers
false for a signal that waits until every write before it is coherent. -/
def State.applyItem (s : State) (k : Nat) (x : InLine) (came : Option Nat) (b : LinkBlock) : State × Bool :=
  let t := tagFields b
  if t.kind = 9 then ((s.freeIn k).owe came, true)
  else if x.refusal.isSome then ((s.skipItem k).owe came, true)
  else if t.kind = 4 then
    (if x.applying.isEmpty then (((s.skipItem k).remoteBuoy k t).owe came, true) else (s, false))
  else
    let (data, en) := blockData b
    let add := t.kind == 3
    if s.inboundOk t.ctx (t.addr * 64) data.length add && (!add || s.addable t) then
      (if add then s.applyAdd k x t data came else s.applyWrite k x t data en came, true)
    else ((((s.evFb 4).refuseItem k t.seq 0x21).skipItem k).owe came, true)

/-- Applies the items of a line in the order of LINE_SEQ, as far as they have come (R465). -/
def State.applyLine (k : Nat) : Nat → State → State
  | 0, s => s
  | fuel + 1, s =>
    match tget s.fab.inb k with
    | none => s
    | some x =>
      match x.reorder.find? (fun p => (tagFields p.2.2).seq == x.expect) with
      | none => s
      | some p =>
        let y := { x with reorder := x.reorder.filter (· != p) }
        match (s.setIn k y).applyItem k y p.2.1 p.2.2 with
        | (t, true) => applyLine k fuel t
        | (_, false) => s

/-- The blocks that a fabric island's reorder store holds before their turn (R465). -/
def State.storeFill (s : State) (island : Nat) : Nat :=
  (s.fab.inb.map (fun p => (p.2.reorder.filter (fun r => r.1 == island && r.2.1.isNone && (tagFields r.2.2).seq != p.2.expect)).length)).sum

/-- Whether a sequence lies before another, modulo 2^32. -/
def seqBefore (a b : Nat) : Bool := a != b && (b + 2 ^ 32 - a) % 2 ^ 32 < 2 ^ 31

/-- A BUSY tag to the sender of an OPEN block that finds no free entry (R463). -/
def State.sendBusy (s : State) (t : Tag) : State :=
  s.sendBlock (ownItem { Tag.ofKind 10 with src := s.fab.chipId, dst := t.src, hops := 1, line := t.line, lc := true } [])

/-- A line that is not known here yet. -/
def newLine (t : Tag) (b : LinkBlock) : InLine :=
  { src := t.src, line := t.line, opened := t.opens, opening := b, expect := 0, reorder := [], applying := [], acked := 0,
    refusal := none }

/-- The fields of a block that stay the same however often and over whichever link it is sent. -/
def lasting (b : LinkBlock) : LinkBlock :=
  withTag b (fun t => { t with linkSeq := 0, ack := 0, credit := 0, hops := 0 })

/-- The entry of a line block, made or replaced for an OPEN block (R463). An OPEN block that is the entry's own OPEN block again is a
re-send. A block that comes before its line's OPEN block waits in the reorder store (R465). -/
def State.lineEntry (s : State) (t : Tag) (b : LinkBlock) : State × Option Nat :=
  match s.inLine t.src t.line with
  | some (k, x) =>
    if t.opens && !x.opened then (s.setIn k { x with opened := true, opening := lasting b }, some k)
    else if t.opens && x.opening != lasting b then ((s.freeIn k).setIn k (newLine t (lasting b)), some k)
    else (s, some k)
  | none =>
    match searchUp (fun k => (tget s.fab.inb k).isNone) 16384 0 with
    | some k => (s.setIn k (newLine t (lasting b)), some k)
    | none => (if t.opens then s.sendBusy t else s, none)

/-- A block of a line that has come to its chip, over a link or from this chip itself (R465, R466): it is applied, held for its turn, or, if it
has been applied, discarded. A block held before its turn leaves the receive buffer at once for the store of its fabric island; the one
that its line awaits stays there until it has been applied (R449, R472). -/
def State.takeLine (s : State) (l : Option Nat) (t : Tag) (b : LinkBlock) : State :=
  match s.lineEntry t b with
  | (s, none) => s.owe l
  | (s, some k) =>
    match tget s.fab.inb k with
    | none => s
    | some x =>
      if seqBefore t.seq x.expect || x.reorder.any (fun p => (tagFields p.2.2).seq == t.seq) then s.owe l
      else
        let island := (l.map (· / 16)).getD 6
        let early := t.seq != x.expect
        let s := s.setIn k { x with reorder := x.reorder ++ [(island, if early then none else l, b)] }
        let s := if early then s.owe l else s
        let s := { s with fab := { s.fab with reorderPeak := max s.fab.reorderPeak (min (s.storeFill island) 512) } }
        State.applyLine k 513 s

/-- Whether a block must be discarded because it is early and the reorder store of its island is full, or because the store errs on it
(R465, Table 16-2). -/
def State.storeRefuses (s : State) (l : Nat) (t : Tag) : State × Bool :=
  let early := match s.inLine t.src t.line with
    | some (_, x) => t.seq != x.expect && !seqBefore t.seq x.expect
    | none => !t.opens
  if !(early && lineKind t.kind && t.kind != 5) then (s, false)
  else if 512 ≤ s.storeFill (l / 16) then (s, true)
  else
    let u := 48 + l / 16
    match s.inject 8 u none with
    | (s, .clean) => (s, false)
    | (s, .corrected) => (s.countEcc 8 u false, false)
    | (s, .uncorrectable) => (s.countEcc 8 u true, true)

/-- One access of an inbound item has reached coherence (R468): the block of an item that is done leaves the receive buffer (R449), and a signal that
waited for it may now be applied (R438). -/
def State.inboundDone (s : State) (k seq : Nat) : State :=
  match tget s.fab.inb k with
  | none => s
  | some x =>
    let ap := x.applying.map (fun a => if a.seq = seq then { a with parts := a.parts - 1 } else a)
    let s := (ap.filter (fun a => a.parts == 0)).foldl (fun s a => s.owe a.came) s
    State.applyLine k 513 (s.setIn k { x with applying := ap.filter (fun a => a.parts != 0) })

/-! ### Line acknowledgements -/

/-- The number of items of a line that have been applied and have reached coherence. -/
def InLine.coherent (x : InLine) : Nat := (x.applying.head?.map (·.seq)).getD x.expect

/-- LINE_ACK_TIMER (R468): an acknowledgement goes out while items are unacknowledged, held or refused. It names the refused item once
everything before that is coherent. Where nothing is applied yet LINE_SEQ is all ones (DEDUCED, log entry 100). -/
def State.lineAck (s : State) (k : Nat) : State :=
  match tget s.fab.inb k with
  | none => s
  | some x =>
    let upTo := x.coherent
    let hold := !x.reorder.isEmpty || !x.applying.isEmpty
    let refused := x.refusal.any (fun r => x.applying.all (fun a => !seqBefore a.seq r.1))
    if x.acked = upTo && !hold && !refused then s
    else
      let (seq, code) := match x.refusal with
        | some (q, c) => if refused then (q, c) else ((upTo + 2 ^ 32 - 1) % 2 ^ 32, 0)
        | none => ((upTo + 2 ^ 32 - 1) % 2 ^ 32, 0)
      (s.setIn k { x with acked := upTo }).sendBlock
        (ownItem { Tag.ofKind 5 with src := s.fab.chipId, dst := x.src, hops := 1, line := x.line, seq := seq, lc := true,
                                     addr := code + b2n hold * 256 } [])

/-- The items of an outbound line after an acknowledgement up to a sequence. -/
def ackItems (x : OutLine) (seq : Nat) : OutLine :=
  let keep := fun (i : OutItem) => !(i.seq == seq || seqBefore i.seq seq)
  if seq = 2 ^ 32 - 1 ∧ !(x.items ++ x.waiting).any (fun i => i.seq == seq) then x
  else { x with items := x.items.filter keep, waiting := x.waiting.filter keep }

/-- The signals of a stream that an acknowledgement covers are performed (R386). -/
def ackSignals (d : Desc) (n : Nat) (left : OutLine) : Desc :=
  { d with acks := d.acks.filter (fun a => a.line != n || (left.items ++ left.waiting).any (fun i => i.seq == a.seq)) }

/-- LINE_ACK at the sender (R468, R386): items are acknowledged, or the stream ends with the refusal. -/
def State.takeLineAck (s : State) (t : Tag) : State :=
  match tget s.fab.out t.line with
  | none => s
  | some x =>
    if x.chip ≠ t.src then s
    else
      let code := t.addr % 256
      if code = 0 then
        let y := ackItems x t.seq
        let s := (s.setLine t.line y).onDesc x.did (fun d => ackSignals d t.line y)
        (s.runAllLate).freeIdx x.did
      else
        match (x.items ++ x.waiting).find? (fun i => i.seq == t.seq) with
        | none => s
        | some i =>
          let st := if code = 0x22 then 0x22 else 0x21
          let w := if code = 0x22 then (tagFields i.block).addr % 4096 else i.va
          let next := ((x.waiting.head?).map (·.seq)).getD x.next
          (s.setLine t.line { x with items := [], waiting := [], growing := false, next := next }).endStream x.did st w

/-- BUSY at the sender (R463): the line waits to be sent again from its OPEN block. -/
def State.takeBusy (s : State) (t : Tag) : State :=
  match tget s.fab.out t.line with
  | some x => if x.chip = t.src then s.setLine t.line { x with busy := true, waiting := x.items ++ x.waiting, items := [] } else s
  | none => s

/-- BUSY_RETRY (R463): the line goes out again from its OPEN block. -/
def State.busyRetry (s : State) (n : Nat) : State :=
  match tget s.fab.out n with
  | some x => if x.busy then State.pumpLine n 1025 (s.setLine n { x with busy := false }) else s
  | none => s

/-- LINE_RETRY (R475, R452): everything unacknowledged goes out again; an item that has been sent 16 times ends its stream. -/
def State.lineRetry (s : State) (n : Nat) : State :=
  match tget s.fab.out n with
  | some x =>
    if x.items.isEmpty || x.busy then s
    else match x.items.find? (fun i => 16 ≤ i.sends) with
      | some i => s.loseLine n 0x30 i.va
      | none => State.pumpLine n 1025 (s.setLine n { x with waiting := x.items ++ x.waiting, items := [] })
  | none => s

/-- LINE_LOST (R476): the stream of the line ends with LINK_LOST at its oldest unacknowledged unit. -/
def State.lineLost (s : State) (n : Nat) : State :=
  match tget s.fab.out n with
  | some x =>
    (match x.items ++ x.waiting with
     | i :: _ => s.loseLine n 0x31 i.va
     | [] => s)
  | none => s

/-! ### Transit -/

/-- A block for another chip (R460, R461): forwarded with HOPS increased, or dropped at the hop limit. -/
def State.forward (s : State) (l : Nat) (t : Tag) (b : LinkBlock) : State :=
  let came := if lineKind t.kind then some l else none
  if t.hops < s.actFld Reg.fbCfg 63 52 then
    s.sendBlock { block := withTag b (fun t => { t with hops := t.hops + 1 }), sends := 0, line := none, came := came,
                  bytes := 40 + b.payload.length, qid := transitQueue, lc := t.lc }
  else (s.evFb 5).owe came

/-! ### Reception -/

/-- A block that carries traffic between chips (R457, R458): discarded while this chip has no ID, delivered here, or forwarded. The endpoint
returns the credit of a block that it has taken. -/
def State.deliver (s : State) (l : Nat) (t : Tag) (b : LinkBlock) (here : State → State) : State :=
  if !s.fab.idValid then s.owe (if lineKind t.kind then some l else none)
  else if t.dst = s.fab.chipId then here s
  else s.forward l t b

/-- A block arrives on a link (R447 to R450): it is discarded, or accepted with what its tag returns and then treated as its kind says.
Blocks without a credit carry the sequence of the next block (DEDUCED, log entry 98). -/
def State.receive (s : State) (l kind : Nat) (b : LinkBlock) (f : State → Tag → State) : State :=
  let x := s.link l
  let t := tagFields b
  if !s.hasLink l || !carries x.state kind then s
  else
    let (s, e) := s.inject 11 l none
    if e != .clean || !crcGood b || !tagSound b then s.crcFailure l
    else if t.kind ≠ kind then s
    else if t.linkSeq ≠ x.rxSeq then s.discardBlock l
    else
      let (s, full) := if s.fab.idValid && t.dst == s.fab.chipId then s.storeRefuses l t else (s, false)
      if full then s.discardBlock l
      else
        let y := s.link l
        let s := s.setLink l { y with rxSeq := if lineKind kind then (y.rxSeq + 1) % 2 ^ 16 else y.rxSeq, nackSent := false }
        (f (s.tagReturns l t) t).settleFabric

/-- A line block: DATA, DATA_MASKED, ADD, SIGNAL or CLOSE (R465). -/
def State.receiveLine (s : State) (l kind : Nat) (b : LinkBlock) : State :=
  s.receive l kind b (fun s t => s.deliver l t b (fun s => s.takeLine (some l) t b))

/-- A beacon (R453 to R456): the neighbour is recorded, a derived ID is taken, and the link goes to UP or ISOLATED. -/
def State.takeBeacon (s : State) (l : Nat) (b : LinkBlock) : State :=
  let w := leAt b.payload 0 4
  let chip := w % 2 ^ 20
  let idv := w.testBit 31
  let epoch := leAt b.payload 8 2
  let nl := leAt b.payload 10 1
  let x := s.link l
  let changed := !x.nbrValid || x.nbrChip != chip || x.nbrLink != nl || x.nbrEpoch != epoch
  let s := if changed then s.evFb 1 else s
  let s := s.setLink l { x with nbrValid := true, nbrChip := chip, nbrLink := nl, nbrEpoch := epoch }
  let s :=
    if idv && bit (s.act Reg.fbChip) 62 && l == s.actFld Reg.fbSystem 22 16 && !s.fab.derived then
      let s := s.setChipId ((chip + s.actFld Reg.fbChip 39 20) % 2 ^ 20) 0x20
      { s with fab := { s.fab with derived := true } }
    else s
  let conflict := idv && s.fab.idValid && chip == s.fab.chipId
  let s := if conflict then s.evFb 7 else s
  let st := if leAt b.payload 4 4 = s.actFld Reg.fbSystem 63 32 ∧ !conflict then LinkState.up else LinkState.isolated
  let old := (s.link l).state
  let s := s.setLink l { s.link l with state := st }
  if old == st then s else s.wantBeacon l

/-- A fog signal (R479): every link to the sending chip fails, its lines end, and nothing is forwarded. -/
def State.takeFog (s : State) (l : Nat) (b : LinkBlock) : State :=
  let chip := leAt b.payload 0 4 % 2 ^ 20
  let info := 2 ^ 56 * leAt b.payload 12 1 + 2 ^ 40 * leAt b.payload 8 2 + 2 ^ 32 * l + chip
  let s := (s.setReg Reg.fbFogInfo (word info)).evFb 2
  let hit := (s.fab.links.filter (fun p => p.1 == l || (p.2.nbrValid && p.2.nbrChip == chip && p.2.state != .down))).map (·.1)
  let s := hit.foldl (fun s l => s.failLink l 4) s
  let s := (s.fab.inb.filter (fun p => p.2.src == chip)).foldl (fun s p => s.freeIn p.1) s
  (s.fab.out.filter (fun p => p.2.chip == chip)).foldl (fun s p =>
    s.loseLine p.1 0x31 ((((p.2.items ++ p.2.waiting).head?).map (·.va)).getD 0)) s

/-- A NACK (R450): the replay buffer is sent again from the sequence that it names. -/
def State.takeNack (s : State) (l : Nat) : State := s.resendFrom l 0

/-! ### Blocks for this chip itself -/

/-- A block that this chip has sent to itself comes to its endpoint (R458). -/
def State.localBlock (s : State) (b : LinkBlock) : State :=
  let t := tagFields b
  if t.kind = 5 then s.takeLineAck t else if t.kind = 10 then s.takeBusy t else s.takeLine none t b

/-- Delivers the blocks of this chip for itself, in order. -/
def State.drainLoop : Nat → State → State
  | 0, s => s
  | n + 1, s =>
    match s.fab.loop with
    | [] => s
    | b :: r => drainLoop n (({ s with fab := { s.fab with loop := r } } : State).localBlock b)

/-- Delivers what this chip has sent to itself so far; what that sends goes out with a later command. -/
def State.deliverLocal (s : State) : State := State.drainLoop s.fab.loop.length s

/-! ### Sending -/

/-- A fog signal (R478). -/
def State.fogBlock (s : State) (l : Nat) : LinkBlock :=
  let reason := match s.kp.fatal with
    | some (r, _) => r
    | none => s.kp.dumpReason
  let t := { Tag.ofKind 7 with granules := 1, src := s.fab.chipId % 2 ^ 20, linkSeq := (s.link l).txSeq, ack := (s.link l).rxSeq }
  t.block (leBytes 4 (s.fab.chipId % 2 ^ 20) ++ zeros 4 ++ leBytes 2 s.kp.epoch ++ zeros 2 ++ leBytes 1 reason ++ zeros 51)

/-- A block with the sequence, acknowledgement and credits that a link gives it when it sends it. -/
def stampBlock (x : Link) (seq : Nat) (b : LinkBlock) : LinkBlock :=
  withTag b (fun t => { t with linkSeq := seq, ack := x.rxSeq, credit := min x.owed 32 })

/-- An item of a line has been sent once more (R452). -/
def State.countSend (s : State) (it : LinkItem) : State :=
  match it.line with
  | none => s
  | some n =>
    match tget s.fab.out n with
    | none => s
    | some x =>
      let q := (tagFields it.block).seq
      s.setLine n { x with items := x.items.map (fun i => if i.seq = q then { i with sends := i.sends + 1 } else i) }

/-- The item of a line whose block is due again after 16 sends, with its line and address (R452). -/
def State.sentOut (s : State) (it : LinkItem) : Option (Nat × Nat) :=
  it.line.bind (fun n => (tget s.fab.out n).bind (fun y =>
    (y.items.find? (fun j => j.seq == (tagFields it.block).seq && 16 ≤ j.sends)).map (fun j => (n, j.va))))

/-- A link sends block `i` of its replay buffer again (R450); an item that has been sent 16 times ends its stream (R452). -/
def State.sendAgain (s : State) (l i : Nat) : State :=
  let x := s.link l
  match x.replay[i]? with
  | none => s.setLink l { x with resend := none }
  | some it =>
    let base := (x.txSeq + 2 ^ 16 - x.replay.length) % 2 ^ 16
    let b := stampBlock x ((base + i) % 2 ^ 16) it.block
    let next := if i + 1 < x.replay.length then some (i + 1) else none
    let out := s.sentOut it
    let s := s.setLink l { x with owed := x.owed - min x.owed 32, resend := next,
                                  replay := x.replay.set i { it with sends := it.sends + 1 } }
    let s := ((s.bump (Reg.fbLinkCnt l) 31 16).emit (.link l b)).countSend it
    match out with
    | some (n, va) => s.loseLine n 0x30 va
    | none => s

/-- A link sends a block of its queue (R449, R450). An item that has been sent 16 times in all is not sent again: it ends its stream (R452). -/
def State.sendFirst (s : State) (l : Nat) (it : LinkItem) : State :=
  match s.sentOut it with
  | some (n, va) => s.loseLine n 0x30 va
  | none =>
  let x := s.link l
  let b := stampBlock x x.txSeq it.block
  let kept := lineKind (blockKind it.block)
  let queue := match firstIdx (· == it) x.queue 0 with
    | some i => x.queue.eraseIdx i
    | none => x.queue
  let y := { x with queue := queue, owed := x.owed - min x.owed 32 }
  let y := if kept then { y with txSeq := (x.txSeq + 1) % 2 ^ 16, credits := x.credits - 1,
                                 replay := x.replay ++ [{ it with sends := 1 }] } else y
  ((s.setLink l y).emit (.link l b)).countSend it

/-- Kinds that a link sends before any other traffic (R473). -/
def firstKind (k : Nat) : Bool := k == 0 || k == 6 || k == 7 || k == 8 || k == 5 || k == 10

/-- Whether a link may send a block of its queue now: its state carries the kind, and a line kind has a credit and a place in the
replay buffer (R449). -/
def mayLeave (x : Link) (it : LinkItem) : Bool :=
  let k := blockKind it.block
  carries x.state k && (!lineKind k || (1 ≤ x.credits && x.replay.length < 32))

/-- A block as a request at its link (R473): the traffic of a queue of this chip, or all transit traffic of a class as one queue. -/
def State.linkCand (s : State) (i : Nat) (it : LinkItem) : Cand :=
  { id := i, queue := it.qid, lc := it.lc, bytes := it.bytes,
    weight := if it.qid = transitQueue then s.actFld Reg.fbCfg2 7 0 else (s.queue it.qid).weight }

/-- A link sends one block (R450, R473): what goes before any other traffic, then the replay buffer, then its queue by class and deficit
round robin. -/
def State.linkSend (s : State) (l : Nat) : State :=
  let x := s.link l
  match x.queue.find? (fun it => firstKind (blockKind it.block) && mayLeave x it) with
  | some it => s.sendFirst l it
  | none =>
    match x.resend with
    | some i => if x.state == .up then s.sendAgain l i else s
    | none =>
      let ready := (List.range x.queue.length).filterMap (fun i =>
        match x.queue[i]? with
        | some it => if mayLeave x it && !firstKind (blockKind it.block) then some (s.linkCand i it) else none
        | none => none)
      match s.arbitrate (linkPoint l) 2304 ready with
      | (s, some c) => ((x.queue[c.id]?).map (s.sendFirst l)).getD s
      | (s, none) => s

/-- LINK_SEND: a link that is halted sends fog on its training and UP links, and nothing else (R478). -/
def State.linkTurn (s : State) (l : Nat) : State :=
  if !s.hasLink l then s
  else if s.kp.fatal.isSome || s.kp.mode == .halted then
    (if (s.link l).state == .training || (s.link l).state == .up then s.emit (.link l (s.fogBlock l)) else s)
  else if s.issuing then (s.linkSend l).settleFabric
  else s

/-- LINK_IDLE_TIMER (R450): an UP link that has nothing else to send, or nothing that may leave, sends an IDLE tag. -/
def State.linkIdleTag (s : State) (l : Nat) : State :=
  let x := s.link l
  if s.hasLink l && x.state == .up && !x.queue.any (mayLeave x) && x.resend.isNone then
    s.sendFirst l (ownItem { Tag.ofKind 0 with src := s.fab.chipId % 2 ^ 20 } [])
  else s

/-- ACK_TIMEOUT (R451): a period without progress while blocks are outstanding; the third in a row fails the link, the others send
again from the oldest block. -/
def State.ackTimeout (s : State) (l : Nat) : State :=
  let x := s.link l
  if x.state == .up && !x.replay.isEmpty then
    let s := (s.bump (Reg.fbLinkCnt l) 47 32).setLink l { x with timeouts := x.timeouts + 1 }
    if 3 ≤ x.timeouts + 1 then s.failLink l 3 else s.resendFrom l 0
  else s

/-! ### Commands -/

/-- Whether a mover has anything to issue: one that is retired issues the rest of the units that it has begun (R52, R538). -/
def State.moverRuns (s : State) (m : Nat) : Bool := s.hasMover m || (s.onMover m).any (fun d => d.wr.isSome)

/-- MOVER_ISSUE_CYCLE (R282). -/
def execMoverIssueCycle (m : Nat) (s : State) : Host.Outcome State Fault Refusal :=
  whenIssuing (fun s => if s.moverRuns m then (s.wakeReady.moverCycle m).pumpFlush.deliverLocal.settleCores else s) s

/-- DESCRIPTOR_COMPLETE (R131). -/
def execDescriptorComplete (did : Nat) (s : State) : Host.Outcome State Fault Refusal :=
  whenIssuing (fun s => ((s.completeDesc did).deliverLocal.pumpReplays).pump) s

/-- LINK_LOCK (R444). -/
def execLinkLock (l : Nat) (s : State) : Host.Outcome State Fault Refusal := whenIssuing (fun s => s.lockLink l) s

/-- LINK_LOCK_LOSS (R451). -/
def execLinkLockLoss (l : Nat) (s : State) : Host.Outcome State Fault Refusal := whenIssuing (fun s => s.loseLock l) s

/-- LINK_SEND (R473). -/
def execLinkSend (l : Nat) (s : State) : Host.Outcome State Fault Refusal := outOfReset (fun s => s.linkTurn l) s

/-- LINK_IDLE_TIMER (R450). -/
def execLinkIdleTimer (l : Nat) (s : State) : Host.Outcome State Fault Refusal := whenIssuing (fun s => s.linkIdleTag l) s

/-- ACK_TIMEOUT (R451). -/
def execAckTimeout (l : Nat) (s : State) : Host.Outcome State Fault Refusal := whenIssuing (fun s => s.ackTimeout l) s

/-- BEACON_TIMER (R453). -/
def execBeaconTimer (l : Nat) (s : State) : Host.Outcome State Fault Refusal := whenIssuing (fun s => s.wantBeacon l) s

/-- LINE_ACK_TIMER (R468). -/
def execLineAckTimer (k : Nat) (s : State) : Host.Outcome State Fault Refusal := whenIssuing (fun s => (s.lineAck k).deliverLocal.pump) s

/-- LINE_RETRY (R475). -/
def execLineRetry (n : Nat) (s : State) : Host.Outcome State Fault Refusal := whenIssuing (fun s => (s.lineRetry n).deliverLocal.pump) s

/-- LINE_LOST (R476). -/
def execLineLost (n : Nat) (s : State) : Host.Outcome State Fault Refusal := whenIssuing (fun s => (s.lineLost n).pump) s

/-- BUSY_RETRY (R463). -/
def execBusyRetry (n : Nat) (s : State) : Host.Outcome State Fault Refusal := whenIssuing (fun s => (s.busyRetry n).deliverLocal.pump) s

/-- LINK_IDLE (R450): the tag returns acknowledgement and credits alone. -/
def execLinkIdle (l : Nat) (b : LinkBlock) (s : State) : Host.Outcome State Fault Refusal :=
  whenIssuing (fun s => s.receive l 0 b (fun s _ => s)) s

/-- LINK_DATA (R465). -/
def execLinkData (l : Nat) (b : LinkBlock) (s : State) : Host.Outcome State Fault Refusal :=
  whenIssuing (fun s => s.receiveLine l 1 b) s

/-- LINK_DATA_MASKED (R446, R465). -/
def execLinkDataMasked (l : Nat) (b : LinkBlock) (s : State) : Host.Outcome State Fault Refusal :=
  whenIssuing (fun s => s.receiveLine l 2 b) s

/-- LINK_ADD (R472). -/
def execLinkAdd (l : Nat) (b : LinkBlock) (s : State) : Host.Outcome State Fault Refusal :=
  whenIssuing (fun s => s.receiveLine l 3 b) s

/-- LINK_SIGNAL (R385). -/
def execLinkSignal (l : Nat) (b : LinkBlock) (s : State) : Host.Outcome State Fault Refusal :=
  whenIssuing (fun s => s.receiveLine l 4 b) s

/-- LINE_ACK (R468). -/
def execLineAck (l : Nat) (b : LinkBlock) (s : State) : Host.Outcome State Fault Refusal :=
  whenIssuing (fun s => (s.receive l 5 b (fun s t => s.deliver l t b (fun s => (s.takeLineAck t).owe (some l)))).pump) s

/-- BEACON (R453). -/
def execBeacon (l : Nat) (b : LinkBlock) (s : State) : Host.Outcome State Fault Refusal :=
  whenIssuing (fun s => s.receive l 6 b (fun s _ => s.takeBeacon l b)) s

/-- FOG (R479). -/
def execFog (l : Nat) (b : LinkBlock) (s : State) : Host.Outcome State Fault Refusal :=
  whenIssuing (fun s => (s.receive l 7 b (fun s _ => s.takeFog l b)).pump) s

/-- NACK (R450). -/
def execNack (l : Nat) (b : LinkBlock) (s : State) : Host.Outcome State Fault Refusal :=
  whenIssuing (fun s => s.receive l 8 b (fun s _ => s.takeNack l)) s

/-- CLOSE (R470). -/
def execClose (l : Nat) (b : LinkBlock) (s : State) : Host.Outcome State Fault Refusal :=
  whenIssuing (fun s => s.receiveLine l 9 b) s

/-- BUSY (R463). -/
def execBusy (l : Nat) (b : LinkBlock) (s : State) : Host.Outcome State Fault Refusal :=
  whenIssuing (fun s => s.receive l 10 b (fun s t => s.deliver l t b (fun s => s.takeBusy t))) s

/-- RESTORE (R444): a write of 1 to FB_LINK_STAT[l].RESTORE. A compute port does not reach the FB window (R572). -/
def execRestore (p : Port) (l : Nat) (s : State) : Host.Outcome State Fault Refusal :=
  whenNormal (fun s => if fromCompute p then s else s.restoreLink l) s

end Sys2Proof.Machine
end

