-- ==== Sys2Proof/Machine/Lift.lean ====
section
/-! DEFINITION. The lift units: slots (R255, R256) and the production of tiles and lift blocks (R244 to R257, R260, R271). -/

namespace Sys2Proof.Machine

/-! ### Slots -/

/-- The request that a lift unit serves next (R255): latency-critical streams first, then the one that began first. -/
def State.liftNext (s : State) (u : Nat) : Option Desc :=
  let ds := s.awaitLift u
  let lc := ds.filter (fun d => s.isLc d.queue)
  oldest (if lc.isEmpty then ds else lc)

/-- Whether a lift unit could grant a stream a slot now (R255). -/
def State.liftCan (s : State) (u : Nat) (d : Desc) : Bool :=
  s.hasLift u && (s.liftNext u).any (fun e => e.id == d.id) && (s.onLift u).length < 4 &&
    (s.isLc d.queue || ((s.onLift u).filter (fun e => !s.isLc e.queue)).length < fld (s.act (Reg.lfCfg u)) 2 0)

/-- LIFT_SLOT_GRANT (R255): unit u grants its next request a slot. A stream with LIFT_UNIT 0xFF takes the lowest-numbered unit that
can grant it (R256). -/
def State.liftGrant (s : State) (u : Nat) : State :=
  match s.liftNext u with
  | none => s
  | some d =>
    if s.liftCan u d && (d.geo.liftUnit != 0xFF || !(List.range u).any (fun v => s.liftCan v d)) then
      s.setDesc { d with liftSlot := some u, liftWait := false }
    else s

/-- LIFT_SLOT_GRANT (R255). -/
def execLiftSlotGrant (u : Nat) (s : State) : Host.Outcome State Fault Refusal := whenIssuing (fun s => (s.liftGrant u).wakeReady) s

/-! ### Production -/

/-- A descriptor as the lift unit sees it: before the bit reversal, which the lens applies (R191). -/
def Desc.atLift (d : Desc) : Desc := { d with geo := d.geo.flat }

/-- Whether a stream's output passes straight from the lift unit to the compute port (R254). -/
def Geo.liftToPort (g : Geo) : Bool := g.op == 8 && g.toPort && !g.wholeLimb

/-- The outlier record that stands before the tile at a destination index (R252), where one is due. -/
def State.outDue (s : State) (d : Desc) (i : List Nat) : Option Bytes :=
  if d.geo.outlier && i.getD 0 0 == 0 && !d.outDone then s.outRecord d i else none

/-- Whether a lift unit can produce for a stream: its source units are there, and its destination accepts data (R257). -/
def State.liftReady (s : State) (d : Desc) : Bool :=
  let g := d.geo
  (d.phase == .running || d.phase == .faulted) && d.liftPos < g.dst.total && !d.stagingWait &&
    s.unitReady d.atLift (g.indexAt d.liftPos) &&
    (if g.wholeLimb then s.padLimb d d.liftPos || s.limbsHeld d d.liftPos < d.buffers
     else if g.toPort then !s.fenced d && s.dlvRoom d 11
     else d.liftPos < d.pos + 32 * epu g.dst.fmt)

/-- The arbitration record of a lift unit. -/
def liftPoint (u : Nat) : Nat := 4000 + u

/-- The next of several streams in turn: the first identity after the last one served. -/
def nextTurn (last : Nat) (ds : List Desc) : Option Desc := (ds.find? (fun d => last < d.id)).orElse (fun _ => ds.head?)

/-- The stream for which a lift unit produces next (R257). -/
def State.liftTurn (s : State) (u : Nat) : State × Option Desc :=
  let ds := (s.onLift u).filter s.liftReady
  let lc := ds.filter (fun d => s.isLc d.queue)
  let x := (tget s.drr (liftPoint u)).getD { lcLast := 0, bulkLast := 0, lcDeficit := [], bulkDeficit := [] }
  match nextTurn x.lcLast lc with
  | some d => ({ s with drr := tput s.drr (liftPoint u) { x with lcLast := d.id } }, some d)
  | none =>
    match nextTurn x.bulkLast ds with
    | some d => ({ s with drr := tput s.drr (liftPoint u) { x with bulkLast := d.id } }, some d)
    | none => (s, none)

/-- The source units of the unit that a stream's lift unit produces next. -/
def State.liftSrc (s : State) (d : Desc) : List FUnit := s.srcNeeds d (d.geo.indexAt d.liftPos)

/-- An uncorrectable error of a lift buffer (R271): the source units concerned are read again once, and a second error ends the
descriptor. -/
def State.liftReread (s : State) (d : Desc) : State :=
  let us := s.liftSrc d
  match d.ins.find? (fun x => us.contains x.unit && x.reread) with
  | some x => s.setDesc (endWith d 0x30 (word x.unit.va))
  | none =>
    s.setDesc { d with ins := d.ins.map (fun x =>
      if us.contains x.unit then { x with issued := 0, parts := [], reread := true } else x) }

/-- The side record refused of the row whose first tile stands at a place (R250). -/
def Desc.sideFault (d : Desc) (e : Nat) : Option (Nat × Nat) :=
  let i := d.geo.indexAt e
  if d.geo.outlier && i.getD 0 0 == 0 then
    (d.geo.rowOf (d.geo.window i)).bind (fun r =>
      sideBad (d.geo.src.n.getD 0 0) r ((d.inBytes 4 (d.geo.auxBase + 64 * r)).getD []))
  else none

/-- A lift unit's output for the compute port (R247, R252, R566 to R568): the outlier record that is due, then a tile, or up to
eight skip markers (R248). The record of a row is checked before anything of the row is delivered (R250). -/
def State.liftPort (did : Nat) : Nat → State → State
  | 0, s => s
  | n + 1, s =>
    match s.desc did with
    | none => s
    | some d =>
      let g := d.geo
      if g.dst.total ≤ d.pos || !s.unitReady d (g.indexAt d.pos) || d.ended then s
      else match d.sideFault d.pos with
      | some (j, v) => s.setDesc (endWith d 0x14 (rangeWord j v))
      | none =>
        let i := g.indexAt d.pos
        let s := match s.outDue d i with
          | some b => (s.portSlots d 2 (g.outlierDst % 256) b true).onDesc did (fun d => { d with outDone := true })
          | none => s
        let past := fun (s : State) => (s.pastUnit did).onDesc did (fun d => { d with liftPos := d.pos })
        match s.make d i with
        | none => past s
        | some m =>
          if m.zeroTile then
            liftPort did n (past ((s.portSlots d 1 (g.dst.base % 256) (markerBytes i) true).takeNotes did true m.notes))
          else if n = 7 then past (((s.portSlots d 0 (g.dst.base % 256) m.data true).takeNotes did false m.notes))
          else s

/-- One cycle of a lift unit (R257): it produces one destination tile or lift block for the stream whose turn it is. -/
def State.liftCycle (s : State) (u : Nat) : State :=
  match s.liftTurn u with
  | (t, none) => t
  | (s, some d) =>
    match d.sideFault d.liftPos with
    | some (j, v) => s.setDesc (endWith d 0x14 (rangeWord j v))
    | none =>
      let go := fun (s : State) =>
        if d.geo.liftToPort then State.liftPort d.id 8 s
        else s.onDesc d.id (fun d => { d with liftPos := d.geo.headFrom (d.liftPos + 1) })
      match s.inject 4 u (some (s.ctxOf d.queue)) with
      | (s, .clean) => go s
      | (s, .corrected) =>
        go (((s.countEcc 4 u false).bump (Reg.lfCnt3 u) 63 48).onDesc d.id (fun d => { d with corrected := d.corrected + 1 }))
      | (s, .uncorrectable) => (s.countEcc 4 u true).ifLive d.id State.liftReread

/-- LIFT_UNIT_CYCLE (R257). -/
def execLiftUnitCycle (u : Nat) (s : State) : Host.Outcome State Fault Refusal :=
  whenIssuing (fun s => if s.hasLift u then (s.liftCycle u).wakeReady else s) s

end Sys2Proof.Machine
end

