-- ==== Sys2Proof/Machine/Expand.lean ====
section
/-! DEFINITION. The expander clusters: the grant of cores (R226 to R228) and the permutations of a core (R213, R224, R225, R231,
R233). -/

namespace Sys2Proof.Machine

/-! ### Grants -/

/-- The request that a cluster grants next (R227): latency-critical streams first, then the one that began first. -/
def State.coreNext (s : State) (g : Nat) : Option Desc :=
  let ds := (s.inGroup g).filter (·.coreWait)
  let lc := ds.filter (fun d => s.isLc d.queue)
  oldest (if lc.isEmpty then ds else lc)

/-- The cores that the bulk streams of a group hold. -/
def State.bulkHeld (s : State) (g : Nat) : Nat :=
  (((s.inGroup g).filter (fun d => !s.isLc d.queue)).map (fun d => d.held.length)).sum

/-- The cores granted to a request at once: all that it asks for at a compute port, one at memory (R226). -/
def State.coreGrantSize (s : State) (d : Desc) : Nat := if d.geo.toPort then s.coresWanted d else min 1 (s.coresWanted d)

/-- A core that no stream of the group holds. -/
def State.freeCore (s : State) (g : Nat) : Option Nat :=
  searchUp (fun i => !(s.inGroup g).any (fun d => d.held.any (fun c => c.index == i))) s.coresPer 0

/-- The message of an expanded limb (Table 6-8): the seed of its record, the tag, the limb's place in its basis and the polynomial. -/
def Desc.limbMessage (d : Desc) (r limb : Nat) : Bytes :=
  let g := d.geo
  let poly := if g.tileForm then r else r % max (g.win.getD 2 0) 1
  xofMessage (d.seeds.getD r []) g.domainTag (g.start.getD g.limbDim 0 + (limb : Nat)).toNat (g.polyBase + poly)

/-- A core starts on a limb, or starts it again where an earlier core was lost (R231). -/
def State.startCore (s : State) (d : Desc) (i r limb : Nat) : State :=
  let m := d.limbMessage r limb
  let c : Core := { index := i, poly := r, limb := limb, perms := 0, lanes := xofStart m, carry := [], slot := 0, residues := [],
                    tile := 0, regenTo := 0, retries := 0, pausedAt := 0 }
  match d.cores.find? (fun x => x.poly == r && x.limb == limb) with
  | none => s.setDesc { d with cores := d.cores ++ [c] }
  | some x =>
    (s.setDesc { d with cores := d.cores.map (fun y =>
        if y.poly = r ∧ y.limb = limb then
          { c with residues := x.residues, tile := x.tile, regenTo := 128 * x.tile + x.residues.length, retries := x.retries }
        else y) }).bump (Reg.exCnt (s.groupOf d.queue)) 47 32

/-- Grants a stream some cores. -/
def State.giveCores (did : Nat) : Nat → State → State
  | 0, s => s
  | n + 1, s =>
    match s.desc did with
    | none => s
    | some d =>
      match d.limbsTodo.head?, s.freeCore (s.groupOf d.queue) with
      | some (r, l), some i => giveCores did n (s.startCore d i r l)
      | _, _ => s

/-- Whether a stream waits with its cores kept (R232): for a translation, or because its next unit cannot go out yet. -/
def State.inWait (s : State) (d : Desc) : Bool :=
  s.xl.walks.any (fun w => w.did == some d.id) || (d.wr.isSome && (s.readyWrite d).isNone)

/-- The cores that bulk streams of a group give back (R228): the paused ones, the longest paused first, then those that streams keep
through a wait. -/
def State.takeable (s : State) (g : Nat) : List (Nat × Nat) :=
  let ds := (s.inGroup g).filter (fun d => !s.isLc d.queue)
  let paused := sortBy (fun a b => a.2.pausedAt ≤ b.2.pausedAt) (ds.flatMap (fun d => d.pausedCores.map (fun c => (d.id, c))))
  let kept := (ds.filter s.inWait).flatMap (fun d =>
    (d.held.filter (fun c => !d.pausedCores.any (fun x => x.index == c.index))).map (fun c => (d.id, c)))
  (paused ++ kept).map (fun x => (x.1, x.2.index))

/-- Takes cores back from bulk streams until a latency-critical request fits (R228). -/
def State.takeBack (g need : Nat) : List (Nat × Nat) → State → State
  | [], s => s
  | (did, i) :: r, s =>
    if need ≤ s.coresPer - s.coresHeld g then s else takeBack g need r (s.onDesc did (fun d => d.loseCore i))

/-- EXPANDER_CORE_GRANT (R227): the next request is granted once enough cores are free. -/
def State.coreGrant (s : State) (g : Nat) : State :=
  match s.coreNext g with
  | none => s
  | some d =>
    let need := s.coreGrantSize d
    let s := if s.isLc d.queue then State.takeBack g need (s.takeable g) s else s
    if need ≤ s.coresPer - s.coresHeld g ∧
        (s.isLc d.queue ∨ s.bulkHeld g + need ≤ fld (s.cfgAt d.epoch (Reg.exCfg g)) 12 8) then
      (State.giveCores d.id need s).settleCores
    else s.settleCores

/-- EXPANDER_CORE_GRANT (R227). -/
def execExpanderCoreGrant (g : Nat) (s : State) : Host.Outcome State Fault Refusal :=
  whenIssuing (fun s => if s.hasExp g then s.coreGrant g else s) s

/-! ### Permutations -/

/-- Replaces the record of a core of a stream. -/
def Desc.setCore (d : Desc) (c : Core) : Desc :=
  { d with cores := d.cores.map (fun x => if x.poly = c.poly ∧ x.limb = c.limb then c else x) }

/-- A core after a permutation whose parity holds (R211 to R213, R225): the residues it accepts, those refused and the tiles made. -/
def permuted (q n : Nat) (c : Core) : Core × Nat × Nat :=
  let a := keccakF c.lanes
  let (cs, rest) := candidates 20 (c.carry ++ xofSqueeze a)
  let (rs, refused) := sample q (n - c.slot) cs
  let slot := c.slot + rs.length
  ({ c with lanes := a, carry := rest, perms := c.perms + 1, slot := slot, residues := c.residues ++ rs.drop (c.regenTo - c.slot),
            index := if slot = n then coreGone else c.index },
   refused, slot / 128 - c.slot / 128)

/-- A parity failure (R233): the limb's XOF starts again, or, on a second failure, the descriptor ends with DATA_CHECK at the seed
record. -/
def State.parityRetry (s : State) (d : Desc) (c : Core) : State :=
  let g := s.groupOf d.queue
  if 0 < c.retries then s.setDesc (endWith d 0x30 (word (d.geo.seedBase + 64 * c.poly)))
  else
    let c := { c with lanes := xofStart (d.limbMessage c.poly c.limb), carry := [], slot := 0, perms := 0,
                      regenTo := 128 * c.tile + c.residues.length, retries := c.retries + 1 }
    (s.setDesc (d.setCore c)).bump (Reg.exCnt g) 63 48

/-- XOF_PERMUTATION (R224): a core of a group that is not paused completes a permutation. -/
def State.xof (s : State) (g core : Nat) (parityFail : Bool) : State :=
  match (s.inGroup g).findSome? (fun d => (d.held.find? (fun c => c.index == core)).map (fun c => (d, c))) with
  | none => s
  | some (d, c) =>
    if d.pausedCores.any (fun x => x.index == core) || d.ended then s
    else
      let (s, e) := s.inject 5 g (some (s.ctxOf d.queue))
      if parityFail || e != .clean then (s.countEcc 5 g (0 < c.retries)).ifLive d.id (fun s d => s.parityRetry d c)
      else
        let (c', refused, tiles) := permuted (s.primeAt d (d.geo.limbMap.getD c.limb 0)) (2 ^ s.lognOf d) c
        let d := d.setCore c'
        let d := if d.pausedCores.any (fun x => x.index == core) then d.setCore { c' with pausedAt := s.ids } else d
        let s := (((s.setDesc d).useId).bump (Reg.exRej g) 63 32 refused).bump (Reg.exRej g) 31 0 tiles
        if c'.index = coreGone then (s.bump (Reg.exCnt g) 31 0).settleCores else s

/-- XOF_PERMUTATION (R224). -/
def execXofPermutation (g core : Nat) (parityFail : Bool) (s : State) : Host.Outcome State Fault Refusal :=
  whenIssuing (fun s => if s.hasExp g then (s.xof g core parityFail).wakeReady else s) s

end Sys2Proof.Machine
end

