-- ==== Sys2Proof/Machine/SyncCmds.lean ====
section
/-! DEFINITION. The commands of the sync unit: signals of ports (R387), hand settings (R388, R389), watches (R395 to R398), flash
queues (R402 to R406, R409). -/

namespace Sys2Proof.Machine

/-! ### Signals of ports -/

/-- A 64-bit write of BY_SIGNAL: the operation joins those that the port holds, and those at its head that wait for nothing are
performed (R387, R599). -/
def State.bySignal (s : State) (p : Port) (part : Part) (v : Word) : State :=
  if part ≠ .whole then s
  else
    let s := s.setHeld p (s.heldOf p ++ [{ word := v, accepted := false, waits := [] }])
    State.drainHeld p (s.heldOf p).length false s

/-- BY_SIGNAL (R387). -/
def execBySignal (p : Port) (part : Part) (v : Word) (s : State) : Host.Outcome State Fault Refusal :=
  whenNormal (fun s => s.bySignal p part v) s

/-- BY_SIGNAL_RELEASE (R387): the operation with RELEASE at the head of a port is performed once the port's earlier window writes
have reached their banks, and then those behind it that wait for nothing. -/
def execBySignalRelease (p : Port) (s : State) : Host.Outcome State Fault Refusal :=
  whenNormal (fun s => State.drainHeld p (s.heldOf p).length true s) s

/-! ### Hand settings -/

/-- A write of BY_SET (R388, R389): it sets the buoy that the host copy of BY_SEL selects as one operation, clears poison and,
with CLEAR_SAT, the SAT flag; the keeper records it. A selection that names no buoy is refused. The identifier goes into
bytes 2 and 3 of DETAIL (DESIGN CHOICE, log entry 23: Table 15-11 names no place for it). -/
def State.bySet (s : State) (p : Port) (part : Part) (v : Word) : State :=
  match p with
  | .compute _ => s
  | _ =>
    if part ≠ .whole then s
    else match s.selBuoy 0 with
      | none => s.evBy 2
      | some b =>
        let sel := s.reg (rkey Reg.bySel 0)
        let old := s.buoy b
        let s := s.setBuoy b { old with poison := false, sat := old.sat && !bit v 32 }
        let s := (s.buoyOp b .set (fld v 31 0)).1.evBy 3
        let phys := bit sel 63
        s.logRec 0x06 (originOf p) (if phys then 0xFFFF else fld sel 9 0) b (word old.value) (word (fld v 31 0))
          (leBytes 2 (b2n (bit v 32)) ++ leBytes 2 (if phys then 0 else fld sel 27 16))

/-- BY_SET (R388). -/
def execBySet (p : Port) (part : Part) (v : Word) (s : State) : Host.Outcome State Fault Refusal :=
  whenNormal (fun s => s.bySet p part v) s

/-! ### Watches -/

/-- The result of an arming or disarming command in BY_ARM_RES of the port's copy (Tables 11-1 and 11-14). -/
def State.armRes (s : State) (p : Port) (result handle : Nat) : State :=
  s.setReg (rkey Reg.byArmRes (copyOf p)) (word (2 ^ 32 * result + handle % 2 ^ 32))

/-- A command that arms or disarms nothing: the result, and a HANDLE that the spec does not state (a free value). The refusals
count in ARM_REFUSALS, STALE does not (R397). -/
def State.armFail (s : State) (p : Port) (result : Nat) : State :=
  let s := (s.armRes p result (Config.openValue 1 s.free)).useFree
  if result = 0x13 then s else s.evBy 2

/-- Arms a watch in a slot under the slot's next generation and takes its first step (R395, R398). -/
def State.armIn (s : State) (slot : Nat) (w : Watch) : State :=
  let gen := ((tget s.sync.gens slot).getD 0 + 1) % 2 ^ 18
  let s := { s with sync := { s.sync with watches := tput s.sync.watches slot w, gens := tput s.sync.gens slot gen } }
  if w.cond = 4 then
    let s := s.setClaimants w.phys (s.claimants w.phys ++ [.watch slot])
    State.settleClaims s.settleFuel [w.phys] s
  else if condHolds w.cond (s.buoy w.phys).value w.value then s.fireWatch slot w (s.buoy w.phys).value
  else s

/-- A write of BY_ARM_HI (R396): a watch is armed from BY_ARM_LO and BY_ARM_HI of the port's copy, or the command is refused in
the order of Table 11-1. -/
def State.byArm (s : State) (p : Port) (part : Part) (v : Word) : State :=
  if part ≠ .whole then s
  else
    let lo := s.reg (rkey Reg.byArmLo (copyOf p))
    let ctx := fld lo 9 0
    let fq := fld v 7 0
    let cond := fld lo 26 24
    let cfg := s.act (rkey Reg.fqCfg fq)
    if !s.mayAct p ctx then s.armFail p 0x10
    else match s.physOf ctx (fld lo 23 12) with
      | none => s.armFail p 0x11
      | some b =>
        if !bit cfg 63 || fld cfg 9 0 != ctx || 4 < cond || (cond == 4 && fld lo 63 32 == 0) || (s.buoy b).poison then
          s.armFail p 0x11
        else
          let slot := searchUp (fun i => (tget s.sync.watches i).isNone) s.nWatches 0
          match slot with
          | none => s.armFail p 0x12
          | some i =>
            if fld (s.act (rkey Reg.byCtxMap ctx)) 46 32 ≤ s.watchCount ctx then s.armFail p 0x12
            else
              let w : Watch := { ctx := ctx, ident := fld lo 23 12, phys := b, cond := cond, value := fld lo 63 32,
                                 each := bit lo 27, cookie := fld v 63 32, fq := fq }
              let s := s.armIn i w
              s.armRes p 0x00 (i + 2 ^ 14 * (tget s.sync.gens i).getD 0)

/-- A write of BY_DISARM (R396): the watch that HANDLE names is disarmed. Disarming is no step on the buoy (DEDUCED, log entry 87: R395 says so of
arming alone); a claim that takes nothing is served as it becomes the head (R380). -/
def State.byDisarm (s : State) (p : Port) (part : Part) (v : Word) : State :=
  if part = .hi then s
  else
    let h := fld v 31 0
    let slot := h % 2 ^ 14
    match tget s.sync.watches slot with
    | none => s.armFail p 0x13
    | some w =>
      if (tget s.sync.gens slot).getD 0 != h / 2 ^ 14 || !s.mayAct p w.ctx then s.armFail p 0x13
      else
        let s := { s with sync := { s.sync with watches := tdel s.sync.watches slot } }
        s.sweepClaims.armRes p 0x01 h

/-- BY_ARM (R396). -/
def execByArm (p : Port) (part : Part) (v : Word) (s : State) : Host.Outcome State Fault Refusal :=
  whenNormal (fun s => s.byArm p part v) s

/-- BY_DISARM (R396). -/
def execByDisarm (p : Port) (part : Part) (v : Word) (s : State) : Host.Outcome State Fault Refusal :=
  whenNormal (fun s => s.byDisarm p part v) s

/-! ### Flash queues -/

/-- A record of a flash queue is lost (R409): FQ_STAT.LOST, counted in FQ_CNT.LOST_RECORDS. -/
def State.fqLost (s : State) (f : Nat) : State := s.event (rkey Reg.fqStat f) 62 (rkey Reg.fqCnt f) 47 32

/-- The cells of a flash queue as the read of one finds them under ECC (R409), and whether its link is lost: a corrected error counts; a
record with an uncorrectable word is replaced by the lost record; an uncorrectable link ends the list at the cell, and the records of
the cells behind it are lost. Whether a record or the link is hit, and which record, the spec does not say (a free value). -/
def State.fqEcc (s : State) (f i : Nat) (cells : List (List Flash)) : State × List (List Flash) × Bool :=
  match s.inject 3 f (some (fld (s.act (rkey Reg.fqCfg f)) 9 0)) with
  | (s, .clean) => (s, cells, false)
  | (s, .corrected) => ((s.countEcc 3 f false).bump (rkey Reg.fqCnt f) 63 48, cells, false)
  | (s, .uncorrectable) =>
    let c := cells.getD i []
    let k := Config.openValue 2 s.free % (c.length + 1)
    let s := (s.countEcc 3 f true).useFree
    if k < c.length then (s.fqLost f, cells.set i (c.set k (0x7E, 0)), false)
    else (((cells.drop (i + 1)).flatten).foldl (fun s _ => s.fqLost f) s, cells.take (i + 1), true)

/-- A read of byte 0 of FQ_DATA (R402 to R404): the cell at the read position goes to the latch and is closed, or the latch takes
the idle word when nothing is unread or the queue is disabled. -/
def State.fqTake (s : State) (f : Nat) : State :=
  let x := s.fq f
  match x.cells[x.rd]? with
  | some c =>
    if bit (s.act (rkey Reg.fqCfg f)) 63 then
      let (s, cells, cut) := s.fqEcc f x.rd x.cells
      let c := cells.getD x.rd c
      let closed := cut || (x.tailOpen && x.rd + 1 == cells.length)
      s.setFq f { x with cells := cells, tailOpen := x.tailOpen && !closed, rd := x.rd + 1,
                         latch := cellBytes c, latchTag := 16 * c.length }
    else s.setFq f { x with latch := s.idleWord f, latchTag := 16 }
  | none => s.setFq f { x with latch := s.idleWord f, latchTag := 16 }

/-- A compute port that returns a word of FQ_DATA empties its read-ahead buffer (R429). -/
def State.emptyAhead (s : State) (p : Port) : State :=
  match p with
  | .compute g => { s with cps := tmod s.cps g (fun x => { x with ahead := [] }) }
  | _ => s

/-- What a read of BY_SEL or BY_VAL through a port does beside the value that it returns (R397, R429): a refused read counts, and a
compute port that returns a value of BY_VAL empties its read-ahead buffer. -/
def State.bySelRead (s : State) (p : Port) (val : Bool) : State :=
  if s.mayAct p (fld (s.reg (rkey Reg.bySel (copyOf p))) 9 0) then (if val then s.emptyAhead p else s) else s.evBy 2

/-- A read of FQ_DATA[f] at byte 0 through a port, and the word it returns. A refused read returns zero bytes (R406). -/
def State.fqRead (s : State) (p : Port) (f : Nat) : State :=
  if 256 ≤ f then s
  else
    let s := s.emptyAhead p
    if s.fqReach p f then
      let s := s.fqTake f
      s.emit (.regRsp p (s.fq f).latch (s.fq f).latchTag)
    else (s.evBy 2).emit (.regRsp p (zeros 64) 0)

/-- The commands of FQ_CTRL (R405) on a flash queue. -/
def fqDo (op : Nat) (x : FlashQ) : FlashQ :=
  let rel := fun (x : FlashQ) => { x with cells := x.cells.drop x.mark, rd := x.rd - x.mark, mark := 0 }
  if op = 1 then { x with mark := x.rd }
  else if op = 2 then { x with rd := x.mark }
  else if op = 3 then rel x
  else if op = 4 then rel { x with mark := x.rd }
  else x

/-- A write of FQ_CTRL[f] through a port (R405, R406): a compute port that may not act for the owner is refused. -/
def State.fqCtrl (s : State) (p : Port) (f op : Nat) : State :=
  if 256 ≤ f then s
  else if s.fqReach p f then (if 1 ≤ op ∧ op ≤ 4 then s.setFq f (fqDo op (s.fq f)) else s)
  else s.evBy 2

/-- FQ_DATA_READ (R402). -/
def execFqDataRead (p : Port) (f : Nat) (s : State) : Host.Outcome State Fault Refusal := whenNormal (fun s => s.fqRead p f) s

/-- FQ_MARK (R405). -/
def execFqMark (p : Port) (f : Nat) (s : State) : Host.Outcome State Fault Refusal := whenNormal (fun s => s.fqCtrl p f 1) s

/-- FQ_REWIND (R405). -/
def execFqRewind (p : Port) (f : Nat) (s : State) : Host.Outcome State Fault Refusal := whenNormal (fun s => s.fqCtrl p f 2) s

/-- FQ_RELEASE (R405). -/
def execFqRelease (p : Port) (f : Nat) (s : State) : Host.Outcome State Fault Refusal := whenNormal (fun s => s.fqCtrl p f 3) s

/-- FQ_MARK_RELEASE (R405). -/
def execFqMarkRelease (p : Port) (f : Nat) (s : State) : Host.Outcome State Fault Refusal :=
  whenNormal (fun s => s.fqCtrl p f 4) s

end Sys2Proof.Machine
end

