-- ==== Sys2Proof/Machine/Status.lean ====
section
/-! DEFINITION. The registers as a read sees them: the status of movers and expander clusters, the fields that the block computes, and the
read of any register (R595 to R605); and the wait report of a group, which needs to know which streams are ready (R412, R413). -/

namespace Sys2Proof.Machine

/-! ### Streams and cores -/

/-- Whether a data descriptor takes its indices from a channel (R289): known before it begins from its resolved fields. -/
def State.chanOf (s : State) (d : Desc) : Option Nat :=
  let g := if d.began then d.geo else mkGeo d.entries (s.param d.queue)
  if isData (opcodeOf d.entries) && g.fed then some g.channel else none

/-- A stream that is held by unmet waits, by a channel that another stream holds, or by an empty channel (Table 8-8). -/
def State.isWaiting (s : State) (d : Desc) : Bool :=
  d.phase == .waiting ||
    (match s.chanOf d with
     | none => false
     | some c =>
       if d.began then
         d.phase == .running && d.rdPos < d.geo.dst.total && !s.idxReady d (d.geo.indexAt d.rdPos) && !s.isReady d
       else d.phase == .ready && (((s.cport (s.groupOf d.queue)).chan c).bound).isSome)

/-- MV_STAT[n] (Table 8-8). -/
def State.mvStat (s : State) (n : Nat) : Word :=
  let ds := s.onMover n
  let bulk := fun (d : Desc) => (s.queue d.queue).bulk
  word (2 ^ 32 * ((ds.map (fun d => s.readsOut d.id)).sum % 2 ^ 12) + 2 ^ 12 * (ds.filter s.isWaiting).length +
    2 ^ 8 * (ds.filter s.isReady).length + (ds.filter bulk).length * 16 + ds.length)

/-- EX_STAT[g] (Table 6-13). -/
def State.exStat (s : State) (g : Nat) : Word :=
  let ds := s.inGroup g
  let bulk := fun (d : Desc) => (s.queue d.queue).bulk
  word (2 ^ 32 * (ds.filter (fun d => d.coreWait && !bulk d)).length +
    2 ^ 24 * (ds.filter (fun d => d.coreWait && bulk d)).length +
    2 ^ 16 * ((ds.filter bulk).map (fun d => d.held.length)).sum + 2 ^ 8 * (s.coresPer - s.coresHeld g) +
    (ds.flatMap Desc.pausedCores).length)

/-! ### Reading -/

/-- The fields of a register that the block computes, by offset; 0 where it computes none. -/
def State.computed (s : State) (p : Port) (off k : Nat) : Word :=
  let sel := k / 2 ^ 24 % 2 ^ 16
  if off = Reg.cfStat then s.cfStat
  else if off = Reg.cfCtxRing then word (2 ^ 16 * b2n (bit (s.act k) 15))
  else if off = Reg.cfImgSel then
    (let m := s.regFld Reg.cfImgSel 7 0
     word (2 ^ 9 * b2n (s.isImage m && (s.image m).active == 1)))
  else if off = Reg.kpBoot then s.kpBoot
  else if off = Reg.kpList then s.kpList
  else if off = Reg.kpLogStat then word (2 ^ 32 * s.kp.overwritten + s.kp.nextSeq)
  else if off = Reg.kpLogSel then word (2 ^ 63 * b2n s.selLog.isSome)
  else if isInst off (Reg.kpLogRec 0) 8 8 then
    (s.selLog.map (fun r => wordAt r.bytes ((off - Reg.kpLogRec 0) / 8))).getD 0
  else if off = Reg.kpDumpStat then
    word (2 ^ 48 * s.kp.dumpEpoch + 2 ^ 32 * s.kp.dumps + 2 ^ 8 * b2n s.kp.dumpValid + s.kp.dumpReason)
  else if isInst off (Reg.kpDump 0) 8 4096 then
    (if s.kp.dumpValid then wordAt s.kp.dump ((off - Reg.kpDump 0) / 8) else 0)
  else if off = Reg.qmAdminCtrl then word (b2n (s.queue 0).idle * 2 + b2n ((s.queue 0).state == .enabled && !(s.queue 0).lastRead))
  else if off = Reg.qmQring then (s.queue sel).ringReg
  else if off = Reg.qmQbind then (s.queue sel).bindReg
  else if off = Reg.qmQerr then (s.queue sel).errReg
  else if 0x038000 ≤ off ∧ off < 0x040000 then s.qmStat ((off - 0x038000) / 8)
  else if off = Reg.byVal then s.byVal p
  else if off = Reg.byCtxStat then word (s.watchCount sel % 2 ^ 15)
  else if off = Reg.fqStat then word (2 ^ 32 * (fqFill (s.fq sel) % 2 ^ 17) + (s.fq sel).cells.length % 2 ^ 15)
  else if off = Reg.fqPool then s.fqPool
  else if isInst off (Reg.fqCtrl 0) 8 256 then word (2 ^ 8 * (s.fq ((off - Reg.fqCtrl 0) / 8)).latchTag)
  else if off = Reg.tpLock then word (b2n s.die.fuses.tpFused * 2 + b2n s.tpIsLocked)
  else if off = Reg.tpInjStat then word (b2n (bit (s.reg Reg.tpInj) 63))
  else if off = Reg.fbChip then word (2 ^ 63 * b2n s.fab.idValid + 2 ^ 40 * (s.fab.chipId % 2 ^ 20))
  else if off = Reg.fbSystem then word s.kp.epoch
  else if off = Reg.fbLines then s.fbLines
  else if isInst off (Reg.fbRouteRegion 0) 8 1024 || isInst off (Reg.fbRouteLocal 0) 8 1024 then word (2 ^ 61 * b2n (s.onAlt off))
  else if isInst off (Reg.fbLinkStat 0) 8 96 then s.linkStat ((off - Reg.fbLinkStat 0) / 8)
  else if 0x100000 ≤ off ∧ off < 0x1C0000 then
    (let g := (off - 0x100000) / 0x10000
     let r := off % 0x10000
     if 0x100 ≤ r ∧ r < 0x120 then s.mvStat (4 * g + (r - 0x100) / 8)
     else if r = 0x8008 then s.lnStat g
     else if r = 0xA008 then s.exStat g
     else 0)
  else if 0x200000 ≤ off ∧ off < 0x210000 then
    (if off % 0x1000 = 0x008 then s.lfStat ((off - 0x200000) / 0x1000)
     else if off = Reg.lfCbCtrl then word (b2n (bit (s.act k) 0) * 2)
     else 0)
  else if isInst off (Reg.wbPairStat 0) 8 32 then word (pairCode (s.pair ((off - Reg.wbPairStat 0) / 8)).state)
  else if off = Reg.prReplay then
    (match s.descs.find? (fun d => d.queue == s.regFld Reg.prQsel 11 0 && leAt (d.entries.getD 0 []) 0 1 == 0x0E && d.began) with
     | some d => word (2 ^ 32 * d.replayEnt + d.replayIter % 2 ^ 31 * 2 + 1)
     | none => 0)
  else if isInst off (Reg.prParam 0) 8 64 then
    (let q := s.regFld Reg.prQsel 11 0
     if q < s.nQueues ∧ (s.queue q).state ≠ .absent then (tget (s.queue q).params ((off - Reg.prParam 0) / 8)).getD 0 else 0)
  else 0

/-- The bits of a register that the block computes; the others come from the register files. FB_LINES.OUT_WAITS is a count
of its own that the computed value already carries. -/
def computedMask (off : Nat) : Word :=
  if off ∈ [Reg.cfStat, Reg.kpBoot, Reg.kpList, Reg.kpLogStat, Reg.kpDumpStat, Reg.qmAdminCtrl, Reg.qmQring, Reg.qmQbind,
      Reg.qmQerr, Reg.byVal, Reg.byCtxStat, Reg.fqPool, Reg.tpLock, Reg.fbLines, Reg.prReplay] ||
      isInst off (Reg.kpLogRec 0) 8 8 || isInst off (Reg.kpDump 0) 8 4096 || (0x038000 ≤ off && off < 0x040000) ||
      isInst off (Reg.fqCtrl 0) 8 256 || isInst off (Reg.prParam 0) 8 64 ||
      (0x100000 ≤ off && off < 0x1C0000 &&
        ((0x100 ≤ off % 0x10000 && off % 0x10000 < 0x120) || off % 0x10000 == 0x8008 || off % 0x10000 == 0xA008)) ||
      (0x200000 ≤ off && off < 0x210000 && off % 0x1000 == 0x008) then ~~~0
  else if off = Reg.cfCtxRing then fmask 16 16
  else if off = Reg.cfImgSel then fmask 9 9
  else if off = Reg.kpLogSel then fmask 63 63
  else if off = Reg.fqStat then fmask 48 32 ||| fmask 14 0
  else if off = Reg.tpInjStat then fmask 0 0
  else if off = Reg.fbChip then fmask 63 63 ||| fmask 59 40
  else if off = Reg.fbSystem then fmask 15 0
  else if isInst off (Reg.fbRouteRegion 0) 8 1024 || isInst off (Reg.fbRouteLocal 0) 8 1024 then fmask 61 61
  else if isInst off (Reg.fbLinkStat 0) 8 96 then fmask 61 56 ||| fmask 39 32 ||| fmask 19 0
  else if off = Reg.lfCbCtrl then fmask 1 1
  else if isInst off (Reg.wbPairStat 0) 8 32 then fmask 1 0
  else 0

/-- A register that TP_LOCK makes read zero (R547). -/
def tpHidden (off : Nat) : Bool := off == Reg.tpDelay || isInst off (Reg.tpBp 0) 8 4 || off == Reg.tpInj

/-- The value that a 64-bit read of a register returns through a port: ID registers in every mode, the KP window in every mode, and
everything else only in mode NORMAL (R603); through a compute port only what it reaches (R572), and its BY_SEL only where it may act for
the context there (R397); staged fields from the shadow set (R605), WO fields as zero. A word of FQ_DATA is a word of the read latch
(R402), zero for a port that does not reach the queue (R406). -/
def State.readReg (s : State) (p : Port) (off0 : Nat) : Word :=
  let off := normOff off0
  if 0x58000 ≤ off ∧ off < 0x5C000 then
    (let f := (off - 0x58000) / 64
     if s.kp.mode = .normal ∧ s.fqReach p f = true then wordAt (s.fq f).latch (off % 64 / 8) else 0)
  else match regRow off with
  | none => 0
  | some r =>
    if fromCompute p && !computeMay off then 0
    else if off == Reg.bySel && !s.mayAct p (fld (s.reg (rkey Reg.bySel (copyOf p))) 9 0) then 0
    else if off < 0x10000 then s.idReg off
    else if !(0x20000 ≤ off && off < 0x30000) && s.kp.mode != .normal then 0
    else if s.absentReg off || (s.tpIsLocked && tpHidden off) then 0
    else
      match s.keyOf p off with
      | none => 0
      | some k =>
        let stored := merge (s.reg k) (s.shadow k) r.st
        (merge stored (s.computed p off k) (computedMask off)) &&& ~~~r.wo

/-! ### Wait reports -/

/-- The report of a group whose open wait entries are all long and of which no stream is ready (R412): it offers the group's bank pairs,
unless LC_RETAIN holds them for a latency-critical queue of the group. -/
def State.waitReport (s : State) (g : Nat) : State :=
  let cfg := s.act (Reg.byLendCfg g)
  let open' := (s.inGroup g).any (fun d => d.phase == .waiting && d.waits.any (fun w => !w.met))
  if 12 ≤ g || !bit cfg 63 || !open' || bit (s.reg Reg.byLendStat) g || (s.inGroup g).any s.isReady then s
  else
    let lc := s.queues.any (fun q => q.2.state != .absent && q.1 != 0 && q.2.group == g && !q.2.bulk)
    let pairs := if bit cfg 48 && lc then [] else s.lendPairs g
    let s := (s.setReg Reg.byLendStat (putBit (s.reg Reg.byLendStat) g true)).bump Reg.byLendStat 63 32
    let s := pairs.foldl (fun s p => s.setPair p { s.pair p with offered := true }) s
    s.pmSend 0x82 (2 ^ 8 * g + 2 ^ 32 * (pairs.map (2 ^ ·)).sum)

/-- WAIT_LONG (R412): the wait entries of group g have been open longer than their hints and no stream of it has been ready for a
microsecond; the times are the command's. -/
def execWaitLong (g : Nat) (s : State) : Host.Outcome State Fault Refusal := whenNormal (fun s => s.waitReport g) s

end Sys2Proof.Machine
end

