-- ==== Sys2Proof/Machine/TestUnit.lean ====
section
/-! DEFINITION. The TP window: the production lock, perturbation and injection registers (R547 to R549), and the traffic generators of
the memory ports (R551 to R553). -/

namespace Sys2Proof.Machine

/-! ### Registers -/

/-- The value of a TP register as a log record shows it. -/
def State.tpValue (s : State) (p : Port) (off : Nat) : Word := s.readReg p off

/-- Every write to a TP register is recorded as HEALTH with the offset as OBJECT (R547); DETAIL the spec does not state (a free value). -/
def State.tpWrite (s : State) (p : Port) (off : Nat) (f : State → State) : State :=
  if fromCompute p then s
  else
    let old := s.tpValue p off
    let s := f s
    s.logRec 0x0D (originOf p) 0xFFFF off old (s.tpValue p off) (leBytes 20 (Config.openValue 6 s.free))

/-- A write of TP_DELAY or TP_BP (R547, R548): ignored while locked. Delay and back-pressure change times alone. -/
def State.tpPlain (s : State) (p : Port) (off : Nat) (part : Part) (v : Word) : State :=
  s.tpWrite p off (fun s => if s.tpIsLocked && tpHidden off then s else s.writeFields p off part v)

/-- A write of TP_INJ (R547, R549): ignored while locked; the counts of passed and injected accesses start again. -/
def State.tpInj (s : State) (p : Port) (part : Part) (v : Word) : State :=
  s.tpWrite p Reg.tpInj (fun s =>
    if s.tpIsLocked then s
    else
      let s := s.writeFields p Reg.tpInj part v
      { s with sup := { s.sup with injSkipped := 0, injDone := 0 } })

/-- A write of 1 to TP_LOCK.SET (R547): locked until a block reset. -/
def State.tpLock (s : State) (p : Port) : State :=
  s.tpWrite p Reg.tpLock (fun s => { s with sup := { s.sup with tpLocked := true } })

/-! ### Traffic generators -/

/-- Whether any tenant queue is not ABSENT (R551). -/
def State.tenants (s : State) : Bool := s.queues.any (fun q => q.1 != 0 && q.2.state != .absent)

/-- A write of TP_TG_CTRL[p] (R551, R552): setting RUN is refused while a tenant queue exists; clearing it ends the run. -/
def State.tgWrite (s : State) (port : Port) (p : Nat) (part : Part) (v0 : Word) : State :=
  let k := Reg.tpTgCtrl p
  if 64 ≤ p then s
  else s.tpWrite port k (fun s =>
    let m := partMask part
    let v := partVal part v0
    let was := bit (s.reg k) 63
    let s := s.writeFields port k part v0
    if !bit m 63 then s
    else if !bit v 63 then s
    else if s.tenants then
      s.setReg k (putBit (putBit (s.reg k) 63 false) 62 true)
    else
      let s := s.setReg k (putBit (s.reg k) 62 false)
      if was then s
      else
        { (s.setReg (Reg.tpTgErr p) 0) with
          sup := { s.sup with tg := tput s.sup.tg p { next := 0, count := 0, readPass := false, erred := false } } })

/-- tg_word of R553: the pattern word at an address under a seed. -/
def tgWord (a seed : Nat) : Nat :=
  let x := a ^^^ (2 ^ 32 * seed)
  let x := 0x9E3779B97F4A7C15 * x % 2 ^ 64
  x ^^^ (x / 2 ^ 29)

/-- The 128 bytes that a generator writes, and expects, at an address (R553). -/
def tgData (a seed : Nat) : Bytes := (List.range 16).flatMap (fun i => leBytes 8 (tgWord (a + 8 * i) seed))

/-- Base of TP_TG_RANGE in bytes, and its length as far as tier 0 reaches: the interleave maps no other address to a memory port, and a
generator is no master of the window (R552, Table 14-1). -/
def State.tgRange (s : State) : Nat × Nat :=
  let base := 2 ^ 20 * s.regFld Reg.tpTgRange 18 0
  (base, min (2 ^ 20 * s.regFld Reg.tpTgRange 51 32) (min windowBase (2 ^ 30 * s.die.straps.t0Size) - base))

/-- The next offset in the range, from one on, whose address the interleave maps to a port (R552). The interleave comes back to every
port within 1024 chunks. -/
def tgSeek (base len ports p off : Nat) : Option Nat :=
  (searchUp (fun i => decide (len ≤ off + 128 * i) || mportOf (base + off + 128 * i) ports == p) 2048 0).bind (fun i =>
    if len ≤ off + 128 * i then none else some (off + 128 * i))

/-- The requests of a pass: the 128 B addresses of the range that map to a port. -/
def tgTotal (base ports p : Nat) : Nat → Nat
  | 0 => 0
  | n + 1 => tgTotal base ports p n + b2n (mportOf (base + 128 * n) ports == p)

/-- The next request of a generator: its offset, and whether it ends a pass. In LFSR order the offsets are a free value of seed and
request index, since the spec does not give the register's polynomial. -/
def State.tgNext (s : State) (p : Nat) (g : TrafficGen) : Option (Nat × Bool) :=
  let (base, len) := s.tgRange
  let ctrl := s.reg (Reg.tpTgCtrl p)
  if len = 0 then none
  else if fld ctrl 59 58 = 1 then
    let at' := Config.openValue 8 (2 ^ 40 * fld ctrl 31 0 + g.count) % len / 128 * 128
    let o := (tgSeek base len s.nMports p at').orElse (fun _ => tgSeek base len s.nMports p 0)
    o.map (fun o => (o, decide (tgTotal base s.nMports p (len / 128) ≤ g.count + 1)))
  else
    match (tgSeek base len s.nMports p g.next).orElse (fun _ => tgSeek base len s.nMports p 0) with
    | none => none
    | some o => some (o, (tgSeek base len s.nMports p (o + 128)).isNone)

/-- Whether a request of a generator reads (R552). Under OP 2 the first READ_PCT of every 100 requests read (DESIGN CHOICE, log entry 96). -/
def tgReads (ctrl : Word) (g : TrafficGen) : Bool :=
  match fld ctrl 61 60 with
  | 0 => true
  | 1 => false
  | 2 => g.count % 100 < fld ctrl 39 32
  | _ => g.readPass

/-- Whether any traffic generator runs (R551). -/
def State.tgRuns (s : State) : Bool := (List.range 64).any (fun p => bit (s.reg (Reg.tpTgCtrl p)) 63)

/-- A running generator issues one request (R552). A port keeps at most 256 tags in flight (R574). -/
def State.tgStep (s : State) (p : Nat) : State :=
  let ctrl := s.reg (Reg.tpTgCtrl p)
  match bit ctrl 63, tget s.sup.tg p with
  | true, some g =>
    (match s.tgNext p g with
    | none => s
    | some (o, last) =>
      let a := s.tgRange.1 + o
      let reads := tgReads ctrl g
      let op3 := fld ctrl 61 60 == 3
      let g' := { g with next := if last then 0 else o + 128, count := if last then 0 else g.count + 1,
                         readPass := if last && op3 then true else g.readPass }
      match s.routePa a with
      | none => { s with sup := { s.sup with tg := tput s.sup.tg p g' } }
      | some dest =>
        if 256 ≤ (s.reqs.filter (fun r => r.dest == dest)).length then s
        else
          let s := s.addReq (mkReq dest a 128 (if reads then .read else .write) (.tg p) 0 0 0xFFFF none false
            (if reads then [] else tgData a (fld ctrl 31 0)) (List.replicate 128 true))
          let s := if last && op3 && g.readPass then s.setReg (Reg.tpTgCtrl p) (putBit ctrl 63 false) else s
          { s with sup := { s.sup with tg := tput s.sup.tg p g' } })
  | _, _ => s

/-- A request of a generator has been answered (R553): it counts, and a read that differs from the pattern, or is poisoned, counts as a
mismatch, the first of which latches its address. -/
def State.tgDone (s : State) (p : Nat) (r : MemReq) (data : Bytes) (poison : Bool) : State :=
  let s := s.bump (Reg.tpTgStat p) 47 0
  let bad := r.kind == .read && (poison || fitTo 128 data != tgData r.pa (s.regFld (Reg.tpTgCtrl p) 31 0))
  if bad then
    let s := s.bumpSat (Reg.tpTgStat p) 63 48
    match tget s.sup.tg p with
    | some g =>
      if g.erred then s
      else { (s.setReg (Reg.tpTgErr p) (word r.pa)) with sup := { s.sup with tg := tput s.sup.tg p { g with erred := true } } }
    | none => s
  else s

/-! ### Commands -/

/-- TP_LOCK_SET (R547). -/
def execTpLockSet (p : Port) (s : State) : Host.Outcome State Fault Refusal := whenNormal (fun s => s.tpLock p) s

/-- TP_INJ_ARM (R549). -/
def execTpInjArm (p : Port) (part : Part) (v : Word) (s : State) : Host.Outcome State Fault Refusal :=
  whenNormal (fun s => s.tpInj p part v) s

/-- TP_TG_RUN (R551). -/
def execTpTgRun (port : Port) (p : Nat) (part : Part) (v : Word) (s : State) : Host.Outcome State Fault Refusal :=
  whenNormal (fun s => s.tgWrite port p part v) s

/-- TG_CYCLE (R552). -/
def execTgCycle (p : Nat) (s : State) : Host.Outcome State Fault Refusal := whenIssuing (fun s => s.tgStep p) s

end Sys2Proof.Machine
end

