-- ==== Sys2Proof/Machine/Ack.lean ====
section
/-! DEFINITION. What an access does when it ends: a write that has reached coherence (R416), a read that has returned (R531), an access
that was refused or failed (R487, R498), and the atomic stage of a memory port (R176, R434). -/

namespace Sys2Proof.Machine

/-! ### Compute-port responses -/

/-- Responses of a compute port go out in request order once they are whole (R570); one that failed carries zero bytes and ERR. -/
def State.sendRsps (g : Nat) : Nat → State → State
  | 0, s => s
  | n + 1, s =>
    let x := s.cport g
    match x.rsps with
    | [] => s
    | r :: rest =>
      if r.left = 0 then
        let data := if r.write then [] else if r.err then zeros r.len
          else r.parts.foldl (fun d p => overlay d p.1 p.2) (zeros r.len)
        sendRsps g n ((s.setCport g { x with rsps := rest }).emit (.windowRsp g r.tag data r.err))
      else s

/-- One access of a window request has ended. -/
def State.cpDone (s : State) (g rsp off : Nat) (data : Bytes) (err : Bool) : State :=
  let x := s.cport g
  let s := s.setCport g { x with rsps := x.rsps.map (fun r =>
    if r.id = rsp then { r with left := r.left - 1, parts := r.parts ++ [(off, data)], err := r.err || err } else r) }
  State.sendRsps g (s.cport g).rsps.length s

/-- The granules of a window span. -/
def granulesOf (o len : Nat) : List Nat := (List.range (ceilDiv (o % 64 + len) 64)).map (fun i => o / 64 + i)

/-- Discards the buffered copies of the granules of a window span (R428, R429). -/
def State.dropAhead (s : State) (g o len : Nat) : State :=
  let x := s.cport g
  s.setCport g { x with ahead := x.ahead.filter (fun p => !(granulesOf o len).contains p.1) }

/-- A granule read ahead joins the buffer of 64 (R428); a full buffer gives up one that the spec does not name (a free value). -/
def State.putAhead (s : State) (g : Nat) (gran : Nat) (data : Bytes) : State :=
  let x := s.cport g
  let l := tdel x.ahead gran
  let l := if l.length < 64 then l else l.eraseIdx (Config.victim s.free % l.length)
  (s.setCport g { x with ahead := tput l gran data }).useFree

/-- The granules of a read-ahead access join the buffer. -/
def State.aheadDone (s : State) (g o : Nat) (data : Bytes) : State :=
  (List.range (data.length / 64)).foldl (fun s i => s.putAhead g (o / 64 + i) ((data.drop (64 * i)).take 64)) s

/-! ### Issuing again -/

/-- An access that is issued again keeps its identity, by which others wait for it, and goes where its address is now served (R531, R541). -/
def State.reissue (s : State) (r : MemReq) : State :=
  match s.routePa r.pa with
  | none => s
  | some dest =>
    let held := match dest with
      | .mport p => (tget s.sup.ports p).isSome
      | _ => false
    let t := s.dropReq r.id
    { t with reqs := t.reqs ++ [{ r with dest := dest, held := held, sent := false }] }

/-! ### Writes -/

/-- A write or a read-modify-write has reached its point of coherence (R416): what waited for it goes on. The interim record of a stream
that has ended since its saved-position record went out is not sent any more. -/
def State.writeDone (s : State) (r : MemReq) : State :=
  let s := s.dropReq r.id
  match r.owner with
  | .dst did _ _ _ => s.runAllLate.freeIdx did
  | .rmw did _ => (s.onDesc did (fun d => { d with rmwOut := false })).runAllLate.freeIdx did
  | .rcd did pos => if did = 0 then (s.countRecord 0).chainDone 0 pos 1 0 else s.recordDone did pos true
  | .interim did => s.interimDone did
  | .save did => if (s.desc did).any (fun d => d.phase == .saving) then s.sendInterim did else s
  | .inbound k seq => s.inboundDone k seq
  | .inboundAdd k seq => s.inboundDone k seq
  | .cp g rsp off => (s.dropAhead g (r.pa - windowBase) r.len).cpDone g rsp off [] false
  | .tg p => s.tgDone p r [] false
  | _ => s

/-- Whether an access went to a window bank. -/
def MemReq.toBank (r : MemReq) : Bool :=
  match r.dest with
  | .bank _ => true
  | _ => false

/-- MEMORY_WRITE_ACK (R416): a write to tier 0 or tier 1 has reached its point of coherence. A posted write to tier 2 has no
acknowledgement of its own (Table 12-1). -/
def execMemoryWriteAck (i : Nat) (s : State) : Host.Outcome State Fault Refusal :=
  whenServing (fun s =>
    match s.req i with
    | some r =>
      if (r.kind == .write) && !r.toBank && !r.posted && !r.held && s.inTurn r then ((s.passOn r).writeDone r).pumpReplays.pump else s
    | none => s) s

/-- The flush read of a tier 2 port has completed (R417): every posted write that was issued before it on the port has reached host
memory. -/
def State.flushDone (s : State) (e : Nat) (f : MemReq) : State :=
  (s.reqs.filter (fun r => r.posted && r.dest == .ext e && r.id < f.id)).foldl State.writeDone (s.dropReq f.id)

/-! ### Accesses that fail -/

/-- The use of an access of the queue manager. -/
def useOf : Owner → Option QmUse
  | .idx _ => some .idxRead
  | .ent _ i => some (.entRead i)
  | .replayEnt did => some (.replayEnt did)
  | .rcd did pos => some (.rcd did pos)
  | .interim did => some (.interim did)
  | .cons _ => some .consWrite
  | .abortRcd _ i => some (.abortRcd i)
  | _ => none

/-- The address of the recorded entry that a REPLAY reads next. -/
def State.replayVa (s : State) : Owner → Nat
  | .replayEnt did => ((s.desc did).map (fun d => d.groupBase + 128 * (d.replayEnt + d.replayPart.length))).getD 0
  | _ => 0

/-- A stream that has not ended with an error ends with a status and an address. -/
def State.failStream (s : State) (did status va : Nat) : State :=
  s.onDesc did (fun d => if d.ended && d.status != 0 then d else endWith d status (word va))

/-- The address of the destination unit of a place in the order of emission. -/
def State.unitVa (s : State) (did pos : Nat) : Nat := ((s.desc did).map (fun d => s.dstVa d (d.geo.indexAt pos))).getD 0

/-- A stream's access failed at its bank by a row of Table 10-3 (R487, R498): rows other than 1 are latched (R360), and the stream ends
with the row's status and the unit's address. -/
def State.loseAccess (s : State) (r : MemReq) (row did obj va : Nat) : State :=
  let s := if row = 1 then s else s.latchFault row obj r.queue r.ctx va
  (s.failStream did (faultStatus row) va).runAllLate

/-- The record of a stream that is being resumed was read; a RESUME_STREAM completes once no record of its streams is left to read
(Table 8-3, step 5). -/
def State.resumeRead (s : State) : State :=
  match s.admin.cmds with
  | c :: _ =>
    if leAt c.entry 0 1 = 0x46 ∧ c.begun ∧ !s.reqs.any (fun r => match r.owner with
        | .saveRead _ => true
        | _ => false) then s.adminRecord c 0 0
    else s
  | [] => s

/-- A saved-position record that cannot be used (R304): the stream completes with DATA_CHECK and address zero. -/
def State.recordBad (s : State) (did : Nat) : State :=
  match s.desc did with
  | none => s
  | some d => (s.bump (Reg.mvCnt (s.groupOf d.queue)) 15 0).setDesc (endWith d 0x30 0)

/-- A saved-position record has been read for a resume (R304): its CHECK is compared, and a stream whose record is sound asks for a slot
(R281). -/
def State.recordRead (s : State) (did : Nat) (data : Bytes) (bad : Bool) : State :=
  let (s, e) := s.inject 12 0 none
  let s := if e = .clean then s else s.countEcc 12 0 true
  let b := fitTo 256 data
  let body := b.take 124 ++ b.drop 128
  match s.desc did with
  | none => s
  | some d =>
    if bad || e != .clean || leAt b 124 4 != crc32c body then s.recordBad did
    else
      ((s.setDesc { d with phase := .resuming, resumeStamp := s.ids }).useId).bump (Reg.mvCnt (s.groupOf d.queue)) 63 48

/-- An access is refused by its bank (rows 5 and 7) or meets an uncorrectable error (row 1), or its read failed at its memory (row 1):
what its master then sees (R487, R498, R499, R531). An uncorrectable error under an inbound item refuses it with PROTECTION (DESIGN
CHOICE: R498 names no outcome for the fabric endpoint). -/
def State.lostAccess (s : State) (r : MemReq) (row : Nat) : State :=
  let s := s.dropReq r.id
  match r.owner with
  | .src did obj va _ => if (s.desc did).any (fun d => d.phase == .running || d.phase == .faulted) then s.loseAccess r row did obj va else s
  | .dst did obj va _ => s.loseAccess r row did obj va
  | .rmw did pos => (s.onDesc did (fun d => { d with rmwOut := false })).loseAccess r row did 1 (s.unitVa did pos)
  | .walk w =>
    (match s.xl.walks.find? (fun x => x.id == w) with
     | some x => if row = 1 then s.endWalk x .data else (s.evAt 1).endWalk x .table
     | none => s)
  | .save did => s.sendInterim did
  | .saveRead did => (s.recordBad did).resumeRead
  | .cp g rsp off => s.cpDone g rsp off [] true
  | .inbound k seq => ((s.evFb 4).refuseItem k seq 0x21).inboundDone k seq
  | .inboundAdd k seq => ((s.evFb 4).refuseItem k seq 0x21).inboundDone k seq
  | .tg p => s.tgDone p r [] true
  | .cpAhead _ => s
  | o => match useOf o with
    | some u => s.qmLost r.queue u (s.replayVa o) false (faultStatus row)
    | none => s

/-! ### Reads -/

/-- The store 10 check of a response of a memory port (R531, Table 16-2): the injected error on top of what the controller reports. -/
def State.portEcc (s : State) (r : MemReq) (poison ce : Bool) : State × Bool × Bool :=
  match r.dest with
  | .mport p =>
    let (s, e) := s.inject 10 p (if r.ctx = 0xFFFF then none else some r.ctx)
    let bad := poison || e == .uncorrectable
    let corr := ce || e == .corrected
    let s := if bad then s.countEcc 10 p true else s
    let s := if corr then s.countEcc 10 p false else s
    (s, bad, corr)
  | _ => (s, poison, ce)

/-- Adds a corrected error to the counts of a stream (R133). -/
def State.addCorrected (s : State) (did : Nat) (corr : Bool) : State :=
  if corr then s.onDesc did (fun d => { d with corrected := d.corrected + 1 }) else s

/-- A read response of a memory or extension port (R531): a poisoned read is issued again once (DEDUCED, log entry 75: the piece that came back
poisoned), and a second poisoned response fails. -/
def State.memRead (s : State) (r : MemReq) (data : Bytes) (poison ce : Bool) : State :=
  let (s, bad, corr) := s.portEcc r poison ce
  let gen := match r.owner with
    | .tg _ => true
    | .flush _ => true
    | _ => false
  if bad && !r.again && !gen then s.reissue { r with again := true }
  else
    match r.owner with
    | .src did obj va off =>
      let s := (s.dropReq r.id).addCorrected did corr
      if bad then (if (s.desc did).any (fun d => d.phase == .running || d.phase == .faulted) then s.dataCheck did va else s)
      else s.srcReturn did obj va off (fitTo r.len data)
    | .saveRead did => ((s.dropReq r.id).recordRead did data bad).resumeRead
    | .tg p => (s.dropReq r.id).tgDone p r data bad
    | .flush e => s.flushDone e r
    | _ => s

/-- Whether a read is answered by MEMORY_READ_RESPONSE: one of a stream, of a saved-position record, of a traffic generator, or a flush
read. -/
def MemReq.plainRead (r : MemReq) : Bool :=
  r.kind == .read && !r.toBank && !r.held && (match r.owner with
    | .src _ _ _ _ => true
    | .saveRead _ => true
    | .tg _ => true
    | .flush _ => true
    | _ => false)

/-- MEMORY_READ_RESPONSE (R531): a read outside the window has returned. -/
def execMemoryReadResponse (i : Nat) (data : Bytes) (poison ce : Bool) (s : State) : Host.Outcome State Fault Refusal :=
  whenServing (fun s =>
    match s.req i with
    | some r => if r.plainRead && s.inTurn r then ((s.passOn r).memRead r data poison ce).pumpReplays.settleCores.pump.wakeReady else s
    | none => s) s

/-! ### The atomic stage -/

/-- Counts the residues that an addition replaced (R54). Those replaced at the atomic stage of another chip are counted in no descriptor: a
LINE_ACK carries no count (Table 13-2; DESIGN CHOICE, log entry 120). -/
def State.addReplaced (s : State) (r : MemReq) (n : Nat) : State :=
  match r.owner with
  | .rmw did _ => s.onDesc did (fun d => { d with replaced := d.replaced + n })
  | _ => s

/-- The sum of an addition over the old bytes of its unit (R173 to R175). -/
def MemReq.sumOf (r : MemReq) (old : Bytes) : Bytes × Nat :=
  addUnit r.form.fmt r.form.round r.form.prime (fitTo r.len old) r.data r.enables

/-- The atomic stage of a memory port has read a unit (R176): the sum is written, and its acknowledgement ends the addition; a unit that
cannot be read is not written, and its descriptor ends with DATA_CHECK (R178). -/
def State.atomicStep (s : State) (r : MemReq) (old : Bytes) (err : Bool) : State :=
  if err then s.lostAccess r 1
  else
    let (new, n) := r.sumOf old
    ({ s with reqs := s.reqs.map (fun (q : MemReq) => if q.id = r.id then { q with kind := .write, data := new } else q) }).addReplaced r n

/-- ATOMIC_RMW (R176). -/
def execAtomicRmw (i : Nat) (old : Bytes) (err : Bool) (s : State) : Host.Outcome State Fault Refusal :=
  whenNormal (fun s =>
    match s.req i with
    | some r => if (r.kind == .rmw) && !r.toBank && !r.held && s.inTurn r then ((s.passOn r).atomicStep r old err).pump else s
    | none => s) s

end Sys2Proof.Machine
end

