-- ==== Sys2Proof/Machine/Banks.lean ====
section
/-! DEFINITION. The window banks: the cycle of a bank port with its arbitration, region check, holds and ECC (R483 to R499), scrubbing
(R532), and the retention and wake of bank pairs (R495 to R497). -/

namespace Sys2Proof.Machine

/-! ### Ports and candidates -/

/-- The port of a bank that carries a master's accesses (R484): port 0 the owner's, port 1 all others', and the surviving port every
access once the other has failed (R542). A bank both of whose ports have failed (2) has no port that answers. -/
def State.bankPortOf (s : State) (b master : Nat) : Nat :=
  match tget s.sup.bankPortBad b with
  | some f => if f = 2 then 2 else 1 - f
  | none => if fld (s.act (Reg.wbBank b)) 5 0 = master then 0 else 1

/-- Whether an access waits at a bank. -/
def MemReq.waitsAt (r : MemReq) (b : Nat) : Bool := r.dest == .bank b && !r.served

/-- Whether an access is the first that its master issued to the bank among those that wait there (R485). -/
def State.firstOfMaster (s : State) (b : Nat) (r : MemReq) : Bool :=
  (s.reqs.find? (fun q => q.waitsAt b && q.master == r.master)).any (fun q => q.id == r.id)

/-- An access as a request at a bank port: compute ports and the control island, and at a surviving port the owner, as one queue of
weight PORT_WEIGHT; inbound items under R472; a mover group's streams by their queues (R484, R542). -/
def State.bankCand (s : State) (b : Nat) (r : MemReq) : Cand :=
  let w := s.actFld Reg.wbCfg 7 0
  let owner := (tget s.sup.bankPortBad b).isSome && fld (s.act (Reg.wbBank b)) 5 0 == r.master
  if owner then { id := r.id, queue := 0x20000 + r.master, lc := r.lc, weight := w, bytes := r.len }
  else if r.master = fabMaster then
    { id := r.id, queue := inboundQueue, lc := r.lc, weight := fld (s.act Reg.fbCfg2) 15 8, bytes := r.len }
  else if 12 ≤ r.master ∧ r.master < 24 then
    { id := r.id, queue := r.queue, lc := r.lc, weight := (s.queue r.queue).weight, bytes := r.len }
  else { id := r.id, queue := 0x20000 + r.master, lc := true, weight := w, bytes := r.len }

/-- The accesses that a bank port may serve now: the first of each master whose accesses the port carries. -/
def State.bankReady (s : State) (b p : Nat) : List MemReq :=
  s.reqs.filter (fun r => r.waitsAt b && s.bankPortOf b r.master == p && s.firstOfMaster b r)

/-- Whether two accesses touch a granule in common and at least one of them writes (R493). -/
def MemReq.clashes (a b : MemReq) : Bool :=
  a.pa / 64 ≤ (b.pa + b.len - 1) / 64 && b.pa / 64 ≤ (a.pa + a.len - 1) / 64 && (a.kind != .read || b.kind != .read)

/-- Whether an access reads and writes its granules as one step, which takes its port two cycles (R491, R493). -/
def MemReq.isRmw (r : MemReq) : Bool := r.kind == .rmw || r.kind == .aliasSet || r.kind == .aliasClear

/-- Whether an access touches a granule of a span. -/
def MemReq.touches (r : MemReq) (g : Nat × Nat) : Bool :=
  r.pa / 64 ≤ (g.1 + g.2 - 1) / 64 && g.1 / 64 ≤ (r.pa + r.len - 1) / 64

/-- Whether an access of a port is held (R493): at port 1, because port 0 is about to access one of its granules and one of the two
writes; at either port, because the other port is in the second cycle of a read-modify-write of one of its granules. -/
def State.portHeld (s : State) (b p : Nat) (r : MemReq) : Bool :=
  (p == 1 && (s.bankReady b 0).any (fun q => q.clashes r)) || (tget s.win.rmws (2 * b + (1 - p))).any r.touches

/-- A read-modify-write of a port keeps its span until the port's next cycle, its second one (R491, R493). Its effect is that of its first
cycle, which no access to the span can tell apart from the second. -/
def State.keepRmw (s : State) (b p : Nat) (r : MemReq) : State :=
  if r.isRmw then { s with win := { s.win with rmws := tput s.win.rmws (2 * b + p) (r.pa, r.len) } } else s

/-- A held access of a compute port asserts the busy pin of that port in the cycle, which counts (R494, R571). -/
def State.busyPin (s : State) (r : MemReq) : State :=
  if r.master < 12 then (s.bump Reg.wbConflicts 63 32).emit (.busy r.master) else s

/-! ### ECC -/

/-- The 64-bit words of a window span, by the offset of their first byte. -/
def wordsOf (o len : Nat) : List Nat := (List.range (ceilDiv (o % 8 + len) 8)).map (fun i => o / 8 * 8 + 8 * i)

/-- Whether a write enables every byte of the word at a window offset (R499). -/
def MemReq.coversWord (r : MemReq) (o a : Nat) : Bool :=
  r.kind == .write && o ≤ a && a + 8 ≤ o + r.len && ((r.enables.drop (a - o)).take 8).all (fun e => e)

/-- Whether a write enables a byte of the word at a window offset. -/
def MemReq.writesIn (r : MemReq) (o a : Nat) : Bool :=
  (List.range 8).any (fun i => o ≤ a + i && a + i < o + r.len && r.enables.getD (a + i - o) false)

/-- Whether a word with an uncorrectable error stands in the way of an access (R498, R499): a read or an addition meets every word of its
span, a write the words that it writes in part, an alias write those that it writes at all. -/
def MemReq.meets (r : MemReq) (o a : Nat) : Bool :=
  a < o + r.len && o < a + 8 && (r.kind == .read || r.kind == .rmw || (r.writesIn o a && !r.coversWord o a))

/-- Whether a word with an uncorrectable error stops an access (R498, R499). -/
def State.stops (s : State) (r : MemReq) (o : Nat) : Bool := s.win.bad.any (r.meets o)

/-- The byte enables of a write without the words with an uncorrectable error that it meets: an addition writes nothing of its unit
(R178), another write leaves those words alone unchanged (R499). -/
def State.openEnables (s : State) (r : MemReq) (o : Nat) : List Bool :=
  r.enables.zipIdx.map (fun p => p.1 && r.kind != .rmw && !s.win.bad.any (fun a => r.meets o a && a ≤ o + p.2 && o + p.2 < a + 8))

/-- An error that an access finds: a new uncorrectable one damages one word of its span, which the spec does not name (a free value). -/
def State.damage (s : State) (o len : Nat) : State :=
  let ws := wordsOf o len
  let a := ws.getD (Config.openValue 9 s.free % max ws.length 1) o
  { s with win := { s.win with bad := if s.win.bad.contains a then s.win.bad else a :: s.win.bad } }.useFree

/-- The stream whose read or write an access is. -/
def MemReq.did (r : MemReq) : Option Nat :=
  match r.owner with
  | .src d _ _ _ => some d
  | .dst d _ _ _ => some d
  | .rmw d _ => some d
  | _ => none

/-- The ECC of an access (R498): what the bank finds and what is injected. -/
def State.bankEcc (s : State) (b : Nat) (r : MemReq) (o : Nat) (ecc : Ecc) : State :=
  let (s, e) := s.inject 1 b (if r.ctx = 0xFFFF then none else some r.ctx)
  let s := if ecc = .uncorrectable ∨ e = .uncorrectable then s.damage o r.len else s
  if ecc = .corrected ∨ e = .corrected then
    let s := s.countEcc 1 b false
    match r.did with
    | some d => s.addCorrected d true
    | none => s
  else s

/-! ### Effects -/

/-- The byte that an alias write leaves (R491). -/
def aliasByte (kind : Access) (x d : Byte) : Byte := if kind = .aliasSet then x ||| d else x &&& ~~~d

/-- The bytes that a write of a kind puts into the bank, over the old ones. -/
def MemReq.bankBytes (r : MemReq) (old : Bytes) : Bytes × Nat :=
  match r.kind with
  | .rmw => r.sumOf old
  | .write => (r.data, 0)
  | k => (List.zipWith (aliasByte k) old r.data, 0)

/-- A read at its bank: the data go to who asked; a read of the control island keeps them until its answer is taken. -/
def State.bankRead (s : State) (r : MemReq) (data : Bytes) (bad : Bool) : State :=
  if (useOf r.owner).isSome || (match r.owner with
      | .walk _ => true
      | _ => false) then
    { s with reqs := s.reqs.map (fun (q : MemReq) => if q.id = r.id then { q with served := true, data := data, again := bad } else q) }
  else if bad then s.lostAccess r 1
  else
    match r.owner with
    | .src did obj va off => (s.dropReq r.id).srcReturn did obj va off data
    | .cp g rsp off => (s.dropReq r.id).cpDone g rsp off data false
    | .cpAhead g => (s.dropReq r.id).aheadDone g (r.pa - windowBase) data
    | _ => s.dropReq r.id

/-- A write at its bank: the enabled bytes, and a word that it covers wholly loses its uncorrectable error (R499). -/
def State.bankWrite (s : State) (o : Nat) (r : MemReq) (new : Bytes) (enables : List Bool) : State :=
  { s with win := { s.win with ram := ramWrite s.win.ram o new enables, bad := s.win.bad.filter (fun a => !r.coversWord o a) } }

/-- A write has met a word with an uncorrectable error (R499): its master sees the outcome that R498 gives for a read, which for a CONSUMER
write is that of its index block, RING_FAULT. -/
def State.badWord (s : State) (r : MemReq) : State :=
  match r.owner with
  | .cons q => if q = 0 then s.lostAccess r 1 else (s.dropReq r.id).enterError q 3 (s.queue q).cons 0
  | _ => s.lostAccess r 1

/-- An accepted access takes effect (R491, R498, R499). -/
def State.bankServe (s : State) (b : Nat) (r : MemReq) (ecc : Ecc) : State :=
  let o := r.pa - windowBase
  let s := s.bankEcc b r o ecc
  let old := ramRead s.win.ram o r.len
  if s.stops r o then
    let s := (s.evWb 1).countEcc 1 b true
    if r.kind = .read then s.bankRead r [] true
    else (s.bankWrite o r (r.bankBytes old).1 (s.openEnables r o)).badWord r
  else if r.kind = .read then s.bankRead r old false
  else ((s.bankWrite o r (r.bankBytes old).1 r.enables).addReplaced r (r.bankBytes old).2).writeDone r

/-- The span that a region check covers: a window write of a compute port is checked as a whole, so that a refused one writes nothing
(R570). -/
def State.checkSpan (s : State) (r : MemReq) : Nat × Nat :=
  match r.kind, r.owner with
  | .read, _ => (r.pa - windowBase, r.len)
  | _, .cp g rsp _ =>
    (match (s.cport g).rsps.find? (fun x => x.id == rsp) with
     | some x => (x.base, x.len)
     | none => (r.pa - windowBase, r.len))
  | _, _ => (r.pa - windowBase, r.len)

/-- The access that a bank port has picked (R482, R486, R487, R493, R496, R539): an absent or retired bank and a failed region check
refuse it, a pair in retention starts to wake and holds it, a pair that is waking or not yet filled with zeros holds it, a collision holds
it, and otherwise it takes effect. -/
def State.bankAccess (s : State) (b p : Nat) (r : MemReq) (ecc : Ecc) : State :=
  let (o, len) := s.checkSpan r
  if !s.hasBank b then s.lostAccess r 7
  else if !s.regionOk r.master o len r.kind then (s.regionRefuse r.master (r.pa - windowBase) r.kind).lostAccess r 5
  else
    match (s.pair (b / 2)).state with
    | .on => if s.portHeld b p r then (s.bump Reg.wbConflicts 31 0).busyPin r else (s.keepRmw b p r).bankServe b r ecc
    | .retention => (s.wakePair (b / 2)).busyPin r
    | .waking => s.busyPin r
    | .off => s.busyPin r

/-- One cycle of a bank port (R484): the second cycle of a read-modify-write (R491), or the service of an access. -/
def State.bankCycle (s : State) (b p : Nat) (ecc : Ecc) : State :=
  if (tget s.win.rmws (2 * b + p)).isSome && p < 2 then { s with win := { s.win with rmws := tdel s.win.rmws (2 * b + p) } }
  else
    let rs := if p < 2 then s.bankReady b p else []
    let (t, pick) := s.arbitrate (bankPoint b p) 256 (rs.map (s.bankCand b))
    match pick.bind (fun c => rs.find? (fun r => r.id == c.id)) with
    | some r => ((t.bankAccess b p r ecc).settlePair (b / 2)).settleCores.pumpReplays.pump.wakeReady
    | none => s

/-- BANK_PORT_CYCLE (R484). -/
def execBankPortCycle (b p : Nat) (ecc : Ecc) (s : State) : Host.Outcome State Fault Refusal :=
  whenServing (fun s => s.bankCycle b p ecc) s

/-! ### Scrubbing -/

/-- One step of the scrub of a bank (R532): a granule is read, in address order, when no access waits for port 1 and the pair is on. -/
def State.scrubStep (s : State) (b : Nat) (ecc : Ecc) : State :=
  let busy := s.reqs.any (fun r => r.waitsAt b && s.bankPortOf b r.master != 0)
  if !s.hasBank b || busy || (s.pair (b / 2)).state != .on then s
  else
    let i := (tget s.win.scrub b).getD 0
    let o := 0x200000 * b + 64 * i
    let s := { s with win := { s.win with scrub := tput s.win.scrub b ((i + 1) % (s.bankBytes / 64)) } }
    let (s, e) := s.inject 1 b none
    let s := if ecc = .uncorrectable ∨ e = .uncorrectable then s.damage o 64 else s
    let s := if ecc = .corrected ∨ e = .corrected then s.countEcc 1 b false else s
    if s.spanBad o 64 then (s.evWb 1).countEcc 1 b true else s

/-- BANK_SCRUB (R532). -/
def execBankScrub (b : Nat) (ecc : Ecc) (s : State) : Host.Outcome State Fault Refusal := whenNormal (fun s => s.scrubStep b ecc) s

/-! ### Retention -/

/-- RETAIN_DONE (Table 17-7). -/
def State.retainDone (s : State) (p : Nat) (ok : Bool) : State := s.pmSend 0x84 (2 ^ 8 * p + 2 ^ 16 * b2n ok)

/-- A retention request of the power manager (R495): accepted for a pair that a wait report has offered and no wake of its group has
taken back, refused and counted otherwise. -/
def State.retainPair (s : State) (p : Nat) : State :=
  let x := s.pair p
  if 32 ≤ p then s
  else if x.offered && x.state != .off then
    (if x.state = .retention then s.retainDone p true else s.setPair p { x with retaining := true })
  else (((s.bump (Reg.wbPairStat p) 31 16).evWb 2).retainDone p false)

/-- RETAIN (R495). -/
def execRetain (p : Nat) (s : State) : Host.Outcome State Fault Refusal := whenNormal (fun s => s.retainPair p) s

/-- Whether an access waits at either bank of a pair. -/
def State.pairBusy (s : State) (p : Nat) : Bool := s.reqs.any (fun r => r.waitsAt (2 * p) || r.waitsAt (2 * p + 1))

/-- An accepted request takes effect once no port of the pair holds an access (R495). -/
def State.retention (s : State) (p : Nat) : State :=
  let x := s.pair p
  if x.retaining && x.state == .on && !s.pairBusy p then
    (s.setPair p { x with state := .retention, retaining := false }).pdAsk (pairDomain p) 2
  else s

/-- RETENTION_ENTRY (R495). -/
def execRetentionEntry (p : Nat) (s : State) : Host.Outcome State Fault Refusal := whenNormal (fun s => s.retention p) s

/-- WAKE (R496): a wake from the power manager. -/
def execWake (p : Nat) (s : State) : Host.Outcome State Fault Refusal := whenNormal (fun s => if p < 32 then s.wakePair p else s) s

/-- The wake of a pair ends (R496, Table 17-9): its domain must have reported on (R586); PAIR_AWAKE goes out. -/
def State.pairAwake (s : State) (p : Nat) : State :=
  let x := s.pair p
  if x.state == .waking && (tget s.sup.domains (pairDomain p)).any (fun d => d.got == 1) then
    (s.setPair p { x with state := .on }).pmSend 0x86 (2 ^ 8 * p)
  else s

/-- PAIR_WAKE_COMPLETE (R496). -/
def execPairWakeComplete (p : Nat) (s : State) : Host.Outcome State Fault Refusal := whenServing (fun s => s.pairAwake p) s

end Sys2Proof.Machine
end

