-- ==== Sys2Proof/Machine/Ports.lean ====
section
/-! DEFINITION. The compute ports: delivery of stream data (R566 to R568), window requests (R569, R570), and address words (R573). -/

namespace Sys2Proof.Machine

/-- Whether the die has a compute port. -/
def State.hasPort (s : State) (g : Nat) : Bool := g < 12 && g < s.nGroups && s.die.fuses.computePorts.testBit g

/-! ### Delivery -/

/-- The slots of a stream's next unit in a delivery queue, as far as they have come. -/
def unitSlots : List Slot → List Slot
  | [] => []
  | x :: r => if x.last then [x] else x :: unitSlots r

/-- A delivery queue without the first slots of a stream. -/
def dropSlots (did : Nat) : Nat → List (Nat × Slot) → List (Nat × Slot)
  | 0, l => l
  | _, [] => []
  | n + 1, p :: r => if p.1 = did then dropSlots did n r else p :: dropSlots did (n + 1) r

/-- The slots of a stream in a delivery queue. -/
def CPort.slotsOf (x : CPort) (did : Nat) : List Slot := (x.dlv.filter (fun p => p.1 == did)).map (·.2)

/-- The streams with slots in a delivery queue, in the order of their admission (R283), as requests at the compute port's arbitration
point: a request is one access unit. -/
def State.portCands (s : State) (x : CPort) : List Cand :=
  (s.descs.filter (fun d => x.dlv.any (fun p => p.1 == d.id))).map (fun d =>
    { id := d.id, queue := d.queue, lc := s.isLc d.queue, weight := (s.queue d.queue).weight,
      bytes := 64 * (unitSlots (x.slotsOf d.id)).length })

/-- The stream whose unit comes next: the one whose unit has gone out in part, since channels interleave only at unit boundaries
(R566), or the one that arbitration picks. A unit that was cut off because its stream ended gives way. -/
def State.nextStream (s : State) (g : Nat) : State × Option Nat :=
  let x := s.cport g
  let stuck := x.mid.any (fun did => (x.slotsOf did).isEmpty && (s.desc did).all (fun d => d.ended))
  let x := if stuck then { x with mid := none } else x
  match x.mid with
  | some did => (s, if (x.slotsOf did).isEmpty then none else some did)
  | none =>
    let (s, c) := s.arbitrate (cportPoint g) 1024 (s.portCands x)
    (s, c.map (·.id))

/-- Fills one transfer: up to `room` slots more. Answers the slots of the transfer with their streams. -/
def State.fillTransfer (g : Nat) : Nat → Nat → State → List (Nat × Slot) → State × List (Nat × Slot)
  | 0, _, s, out => (s, out)
  | fuel + 1, room, s, out =>
    if room = 0 then (s, out)
    else match s.nextStream g with
      | (s, none) => (s, out)
      | (s, some did) =>
        let x := s.cport g
        let u := (unitSlots (x.slotsOf did)).take room
        let ended := (u.getLast?).any (·.last)
        let x := { x with dlv := dropSlots did u.length x.dlv,
                          mid := if ended then none else some did }
        fillTransfer g fuel (room - u.length) (s.setCport g x) (out ++ u.map (fun y => (did, y)))

/-- One transfer of a compute port (R566): what it delivers has reached its point of coherence (Table 12-1), and the read-ahead buffer is
emptied (R429). -/
def State.deliver16 (s : State) (g : Nat) : State :=
  let (t, out) := State.fillTransfer g 17 16 s []
  if out.isEmpty then s
  else
    let t := (t.setCport g { t.cport g with ahead := [] }).emit (.delivery g (out.map (·.2)))
    ((out.map (·.1)).eraseDups.foldl State.freeIdx t.runAllLate).settleCores.pump

/-- CP_DELIVERY_TRANSFER (R566). -/
def execCpDeliveryTransfer (g : Nat) (s : State) : Host.Outcome State Fault Refusal := whenNormal (fun s => s.deliver16 g) s

/-! ### Window requests -/

def aliasSetBase : Nat := 0x08008000000
def aliasClearBase : Nat := 0x08010000000

/-- What a window address names (R490, R569): the kind of access and the window offset, or none outside the window and the aliases. -/
def windowAddr (a : Nat) (write : Bool) : Option (Access × Nat) :=
  let kind := fun (k : Access) => if write then k else Access.read
  if inWindow a then some (kind .write, a - windowBase)
  else if aliasSetBase ≤ a ∧ a < aliasSetBase + windowSize then some (kind .aliasSet, a - aliasSetBase)
  else if aliasClearBase ≤ a ∧ a < aliasClearBase + windowSize then some (kind .aliasClear, a - aliasClearBase)
  else none

/-- The bank of a window request, or none where its granules do not all lie in one bank that is there (R482, R569). -/
def State.requestBank (s : State) (o len : Nat) : Option Dest :=
  if o / 0x200000 = (o + len - 1) / 0x200000 then
    (match s.routePa (windowBase + o), s.routePa (windowBase + o + len - 1) with
     | some d, some _ => some d
     | _, _ => none)
  else none

/-- Adds a response that a compute port owes. -/
def State.oweRsp (s : State) (g : Nat) (r : CpReq) (base left : Nat) (parts : List (Nat × Bytes)) (err : Bool) : State :=
  let x := s.cport g
  (s.setCport g { x with rsps := x.rsps ++ [{ id := s.ids, tag := r.tag.toNat, write := r.write, base := base, len := 64 * r.len,
                                              left := left, parts := parts, err := err }] }).useId

/-- Issues the accesses of a span of a window request, at most 256 B each (R484). -/
def State.windowSpan (s : State) (g rsp base : Nat) (dest : Dest) (kind : Access) (data : Bytes) (en : List Bool)
    (spans : List (Nat × Nat)) : State :=
  spans.foldl (fun s p =>
    s.addReq (mkReq dest (windowBase + p.1) p.2 kind (.cp g rsp (p.1 - base)) g 0 0xFFFF none true
      ((data.drop (p.1 - base)).take p.2) ((en.drop (p.1 - base)).take p.2))) s

/-- The granules that a SEQ read fetches ahead (R569): those of the sixteen that follow in the same bank which the port may read and
neither holds nor fetches (DESIGN CHOICE, log entry 84: R569 allows up to sixteen). -/
def State.aheadSpan (s : State) (g o len : Nat) : List Nat :=
  ((List.range 16).map (fun i => (o + len) / 64 + i)).filter (fun k =>
    64 * k / 0x200000 == o / 0x200000 && (s.routePa (windowBase + 64 * k)).isSome && s.regionOk g (64 * k) 64 .read &&
      (tget (s.cport g).ahead k).isNone &&
      !s.reqs.any (fun r => r.owner == .cpAhead g && r.pa == windowBase + 64 * k))

/-- A read through a compute port (R428, R569). -/
def State.windowRead (s : State) (g : Nat) (r : CpReq) (o : Nat) (dest : Dest) : State :=
  let len := 64 * r.len
  let s := if r.isVolatile then s.dropAhead g o len else s
  let held := (granulesOf o len).filterMap (fun k => (tget (s.cport g).ahead k).map (fun b => (64 * k - o, b)))
  let spans := if held.isEmpty then pieces 16 o len
    else ((granulesOf o len).filter (fun k => (tget (s.cport g).ahead k).isNone)).map (fun k => (64 * k, 64))
  let id := s.ids
  let s := s.oweRsp g r o spans.length held false
  let s := s.windowSpan g id o dest .read [] [] spans
  let ahead := if r.seq then s.aheadSpan g o len else []
  let s := ahead.foldl (fun s k =>
    s.addReq (mkReq dest (windowBase + 64 * k) 64 .read (.cpAhead g) g 0 0xFFFF none true [] [])) s
  State.sendRsps g (s.cport g).rsps.length s

/-- A write or an alias write through a compute port (R429, R491). -/
def State.windowWrite (s : State) (g : Nat) (r : CpReq) (kind : Access) (o : Nat) (dest : Dest) : State :=
  let len := 64 * r.len
  let id := s.ids
  let ps := pieces 16 o len
  let en := (r.enables ++ List.replicate (len - r.enables.length) false).take len
  ((s.dropAhead g o len).oweRsp g r o ps.length [] false).windowSpan g id o dest kind (fitTo len r.data) en ps

/-- A word of cp_wreq (R569, R570): one that lies outside the window and the aliases, crosses a bank or names an absent bank is refused
with ERR 1. A LEN outside 1 to 16 is no request. -/
def State.windowRequest (s : State) (g : Nat) (r : CpReq) : State :=
  if !s.hasPort g || r.len == 0 || 16 < r.len then s
  else
    let refuse := fun (s : State) => State.sendRsps g ((s.cport g).rsps.length + 1) (s.oweRsp g r 0 0 [] true)
    match windowAddr (r.addr.toNat / 64 * 64) r.write with
    | none => refuse s
    | some (kind, o) =>
      match s.requestBank o (64 * r.len) with
      | none => refuse s
      | some dest => if r.write then s.windowWrite g r kind o dest else s.windowRead g r o dest

/-- CP_WINDOW_REQUEST (R569). -/
def execCpWindowRequest (g : Nat) (r : CpReq) (s : State) : Host.Outcome State Fault Refusal :=
  whenNormal (fun s => s.windowRequest g r) s

/-! ### Address words -/

/-- A word of cp_aix (R290, R573): its indices join the channel for one credit; a word without a credit is discarded. -/
def State.aixWord (s : State) (g c : Nat) (vals : List (BitVec 32)) : State :=
  let ch := (s.cport g).chan c
  if !s.hasPort g || 16 ≤ c || vals.isEmpty || 16 < vals.length || ch.credits == 0 then s
  else
    (s.setChan g c { ch with idx := ch.idx ++ vals.map BitVec.toInt, words := ch.words ++ [vals.length], credits := ch.credits - 1 }).wakeReady

/-- CP_AIX_WORD (R573). -/
def execCpAixWord (g c : Nat) (vals : List (BitVec 32)) (s : State) : Host.Outcome State Fault Refusal :=
  whenNormal (fun s => s.aixWord g c vals) s

end Sys2Proof.Machine
end

