-- ==== Sys2Proof/Machine/Admin.lean ====
section
/-! DEFINITION. The admin queue: its registers (R331), its commands (R333 to R338, R610, R612), and the placement of resumed streams
(R203, R204, R269, R278, R281, R303). -/

namespace Sys2Proof.Machine

/-! ### Power domains of units -/

/-- Domains of Table 1-3 that belong to a group: its movers, its lens and its expander cluster, of those that are present. -/
def State.groupDomains (s : State) (g : Nat) : List Nat :=
  s.groupMovers g ++ (if s.hasGroup g && s.lensFuse g && !s.lensRetired g then [48 + g] else []) ++
    (if s.hasExp g then [60 + g] else [])

/-- The domains of the present lift units. -/
def State.liftDomains (s : State) : List Nat := ((List.range 16).filter s.hasLift).map (72 + ·)

/-- The group of a CREATE_QUEUE that waits for its power domains. -/
def State.creating (s : State) : Option Nat :=
  match s.admin.cmds with
  | c :: _ => if leAt c.entry 0 1 = 0x40 ∧ c.begun then some (leAt c.entry 20 1) else none
  | [] => none

/-- Whether a group has a queue bound to it, or is about to (R230). -/
def State.groupInUse (s : State) (g : Nat) : Bool :=
  s.creating == some g || s.queues.any (fun p => p.1 != 0 && p.2.state != .absent && p.2.group == g)

/-- Whether a leading line uses a link (R33): a block waits on it or is not acknowledged, or a line that has not ended goes to a chip whose
link sets name it. -/
def State.linkUsed (s : State) (l : Nat) : Bool :=
  let x := s.link l
  !x.queue.isEmpty || !x.replay.isEmpty || s.fab.out.any (fun p =>
    let v := (s.routeEntry p.2.chip).2
    bit v 63 && ((linkSetOf s s.cfg.active (fld v 5 0)).contains l || (bit v 62 && (linkSetOf s s.cfg.active (fld v 13 8)).contains l)))

/-- The domains that are to be on in normal mode: those of a group with a queue (R230), of the lift units while a queue exists (R258), of
a link group with a present link that is not ADMIN_DOWN (R445) or that a leading line uses (R33), and of the queue manager, the translation
unit and the sync unit. -/
def State.domainWanted (s : State) (d : Nat) : Bool :=
  s.normal &&
    ((List.range 12).any (fun g => s.groupInUse g && (s.groupDomains g).contains d) ||
     ((s.creating.isSome || s.tenants) && s.liftDomains.contains d) ||
     (120 ≤ d && d < 144 && (List.range 4).any (fun k =>
       let l := 4 * (d - 120) + k
       s.hasLink l && (!s.adminDown l || s.linkUsed l))) ||
     d == 144 || d == 145 || d == 146)

/-- Every power switch but those of the bank pairs is asked for what R33 wants of it. -/
def State.settleDomains (s : State) : State :=
  (List.range 147).foldl (fun s d => if 88 ≤ d ∧ d < 120 then s else s.pdAsk d (b2n (s.domainWanted d))) s

/-- Whether a power domain is on. -/
def State.domainOn (s : State) (d : Nat) : Bool := (tget s.sup.domains d).any (fun x => x.want == 1 && x.got == 1)

/-! ### Running a command -/

/-- Word 1 of INDEX_RANGE for a field of an admin command (R334). -/
def adminRange (off v : Nat) : Nat × Word := (0x14, word (off + 2 ^ 32 * (v % 2 ^ 32)))

/-- The outcome of an admin command that is refused: status and word 1. -/
abbrev AdminStop := Nat × Word

/-- What every command but CREATE_QUEUE checks first (R336, R612 items 1 and 2): the queue number, queue 0, and the state. -/
def State.adminGate (s : State) (e : Bytes) (ok : Queue → Bool) : Option AdminStop :=
  let q := leAt e 16 2
  if s.nQueues ≤ q then some (adminRange 16 q)
  else if q = 0 ∨ ok (s.queue q) = false then some (0x13, fieldWord 16)
  else none

/-- The command at the head of the list runs (R333): one at a time, once the record of the one before it is written. A refused command
ends with its status and no side effect (R334). -/
def State.adminRun (s : State) (code : Nat) (check : State → Bytes → Option AdminStop) (run : State → AdminCmd → State) : State :=
  match s.admin.cmds with
  | c :: _ =>
    let recording := s.reqs.any (fun r => match r.owner with
      | .rcd d _ => d == 0
      | _ => false)
    if leAt c.entry 0 1 = code ∧ !c.begun ∧ !recording then
      (match check s c.entry with
       | some (st, w) => s.adminRecord c st w
       | none => run s c).pumpReplays.pump
    else s
  | [] => s

/-- The command at the head of the list has begun and waits. -/
def State.adminWait (s : State) : State :=
  { s with admin := { s.admin with cmds := match s.admin.cmds with
      | c :: r => { c with begun := true } :: r
      | [] => [] } }

/-- A field that must lie in a range: INDEX_RANGE with its offset and value otherwise (R334). -/
def needRange (ok : Bool) (off v : Nat) (rest : Option AdminStop) : Option AdminStop := if ok then rest else some (adminRange off v)

/-! ### CREATE_QUEUE -/

/-- Fields of CREATE_QUEUE out of range, the lowest offset first (R337, R612 item 5). RING_BASE and IDX_BASE have no bound here: a base beyond
the 56 bits of a context virtual address is taken as written (DESIGN CHOICE, log entry 117). -/
def State.createRange (s : State) (e : Bytes) (rest : Option AdminStop) : Option AdminStop :=
  let g := leAt e 20 1
  let lim := leAt e 23 1
  let base := leAt e 48 8
  needRange (leAt e 18 2 < s.nContexts) 18 (leAt e 18 2)
    (needRange (leAt e 21 1 ≤ 1) 21 (leAt e 21 1)
      (needRange (1 ≤ leAt e 22 1) 22 (leAt e 22 1)
        (needRange (1 ≤ lim && lim ≤ s.groupSlots g) 23 lim
          (needRange (4 ≤ leAt e 24 1 && leAt e 24 1 ≤ 16) 24 (leAt e 24 1)
            (needRange (leAt e 25 1 ≤ 3) 25 (leAt e 25 1)
              (needRange (leAt e 26 2 / 256 % 128 == 0) 26 (leAt e 26 2)
                (needRange (base + 256 * lim ≤ 2 ^ 30 * s.die.straps.t0Size && base + 256 * lim ≤ windowBase) 48 base rest)))))))

/-- The checks of CREATE_QUEUE in the order of R612. -/
def State.createCheck (s : State) (e : Bytes) : Option AdminStop :=
  match s.adminGate e (fun x => x.state == .absent) with
  | some r => some r
  | none =>
    if leAt e 32 8 % 128 ≠ 0 then some (0x11, fieldWord 32)
    else if leAt e 40 8 % 64 ≠ 0 then some (0x11, fieldWord 40)
    else if leAt e 48 8 % 256 ≠ 0 then some (0x11, fieldWord 48)
    else if !s.hasGroup (leAt e 20 1) then some (0x12, fieldWord 20)
    else
      s.createRange e
        (if !bit (s.act (rkey Reg.cfCtxRing (leAt e 18 2))) 15 then some (0x13, fieldWord 18)
         else if s.tgRuns then some (0x13, fieldWord 16)
         else none)

/-- The queue that a CREATE_QUEUE makes (Table 9-4, R338). -/
def createdQueue (e : Bytes) : Queue :=
  let i := leAt e 28 4
  { Queue.blank with
    state := if nbit (leAt e 25 1) 1 then .enabled else .disabled, ctx := leAt e 18 2, group := leAt e 20 1,
    bulk := leAt e 21 1 == 1, stopMode := nbit (leAt e 25 1) 0, weight := leAt e 22 1, limit := leAt e 23 1, log2 := leAt e 24 1,
    eventFq := leAt e 26 2 % 256, eventEn := nbit (leAt e 26 2) 15, ring := leAt e 32 8, idx := leAt e 40 8, save := leAt e 48 8,
    pr := i, cons := i, next := i, spec := i, consWritten := i }

/-- CREATE_QUEUE (R338): the domains of its group are asked for, and once they are on the queue exists, CONSUMER is written, and with
START_ENABLED the index block is read once. -/
def State.createRun (s : State) (c : AdminCmd) : State :=
  let e := c.entry
  let q := leAt e 16 2
  let s := s.adminWait.settleDomains
  if (s.groupDomains (leAt e 20 1) ++ s.liftDomains).all s.domainOn then
    let x := createdQueue e
    let s := (s.setQueue q x).setReg (rkey Reg.qmQcnt q) 0
    let s := s.qmSend (qmWrite q (x.idx + 32) (leBytes 4 x.cons) .consWrite)
    let s := if x.state = .enabled then (s.onQueue q (fun x => { x with idxAgain := true })).wantFetch q else s
    s.adminRecord c 0 0
  else s

/-- A CREATE_QUEUE that waits for its domains looks again: they may be on, or its group may have been retired. -/
def State.createAgain (s : State) : State :=
  match s.admin.cmds with
  | c :: _ =>
    if leAt c.entry 0 1 = 0x40 ∧ c.begun then
      (match s.createCheck c.entry with
       | some (st, w) => s.adminRecord c st w
       | none => s.createRun c)
    else s
  | [] => s

/-- CREATE_QUEUE (R337, R338). -/
def execCreateQueue (s : State) : Host.Outcome State Fault Refusal :=
  whenIssuing (fun s => s.adminRun 0x40 State.createCheck State.createRun) s

/-! ### Queue states -/

/-- A queue that may be destroyed or reset: DISABLED or ERROR, and idle. -/
def Queue.quiet (x : Queue) : Bool := (x.state == .disabled || x.state == .error) && x.idle

/-- DESTROY_QUEUE returns the queue to ABSENT. A walk of its queue manager accesses that is still out ends without a result. -/
def State.destroyRun (s : State) (c : AdminCmd) : State :=
  let q := leAt c.entry 16 2
  let s := { s with queues := tdel s.queues q, qmResults := tdel s.qmResults q,
                    fetchOrder := s.fetchOrder.filter (· != q),
                    xl := { s.xl with walks := s.xl.walks.map (fun (w : Walk) =>
                      if w.did.isNone ∧ w.queue = q then { w with cancelled := true } else w) } }
  (s.adminRecord c 0 0).settleDomains

/-- DESTROY_QUEUE (Table 9-3). -/
def execDestroyQueue (s : State) : Host.Outcome State Fault Refusal :=
  whenIssuing (fun s => s.adminRun 0x41 (fun s e => s.adminGate e Queue.quiet) State.destroyRun) s

/-- ENABLE_QUEUE enters ENABLED and reads the index block once. -/
def State.enableRun (s : State) (c : AdminCmd) : State :=
  let q := leAt c.entry 16 2
  let s := (s.onQueue q (fun x => { x with state := .enabled, idxAgain := true })).readAhead q
  (s.wantFetch q).adminRecord c 0 0

/-- ENABLE_QUEUE (Table 9-3). -/
def execEnableQueue (s : State) : Host.Outcome State Fault Refusal :=
  whenIssuing (fun s => s.adminRun 0x42 (fun s e => s.adminGate e (fun x => x.state == .disabled)) State.enableRun) s

/-- The checks of DISABLE_QUEUE (R610, R612): an enabled IDLE_SIG must add or subtract on a mapped buoy that is not poisoned, here and at
once. -/
def State.disableCheck (s : State) (e : Bytes) : Option AdminStop :=
  match s.adminGate e (fun x => x.state == .enabled) with
  | some r => some r
  | none =>
    let w := leAt e 24 8
    if !nbit w 15 then none
    else if 1 < nfld w 14 12 || nfld w 49 48 != 0 || w / 2 ^ 54 != 0 then some (adminRange 24 w)
    else match s.physOf (s.queue (leAt e 16 2)).ctx (nfld w 11 0) with
      | none => some (0x13, fieldWord 24)
      | some b => if (s.buoy b).poison then some (0x13, fieldWord 24) else none

/-- DISABLE_QUEUE reads the index block a last time (Table 9-8, step 2); the command ends with that read. -/
def State.disableRun (s : State) (c : AdminCmd) : State :=
  let q := leAt c.entry 16 2
  let w := leAt c.entry 24 8
  ((s.adminWait.onQueue q (fun x => { x with lastRead := true, idxAgain := true,
                                             idleSig := if nbit w 15 then some (word w) else none })).wantFetch q)

/-- DISABLE_QUEUE (R610). -/
def execDisableQueue (s : State) : Host.Outcome State Fault Refusal :=
  whenIssuing (fun s => s.adminRun 0x43 State.disableCheck State.disableRun) s

/-- A queue set to START_INDEX (Table 9-3): indices, error record and parameter registers. -/
def resetQueueTo (i : Nat) (x : Queue) : Queue :=
  { x with state := .disabled, pr := i, cons := i, next := i, spec := i, consWritten := i, halfEntry := none, part := [], chains := [],
           final := [], markOpen := false, entStale := false, slotAsk := 0, lost := false, errReason := 0, errStatus := 0, errIndex := 0, params := [] }

/-- RESET_QUEUE. CONSUMER is not written: R338 names the write for CREATE_QUEUE alone. -/
def State.resetRun (s : State) (c : AdminCmd) : State :=
  (s.onQueue (leAt c.entry 16 2) (resetQueueTo (leAt c.entry 28 4))).adminRecord c 0 0

/-- RESET_QUEUE (Table 9-3). -/
def execResetQueue (s : State) : Host.Outcome State Fault Refusal :=
  whenIssuing (fun s => s.adminRun 0x44 (fun s e => s.adminGate e Queue.quiet) State.resetRun) s

/-- The checks of MODIFY_QUEUE: any state but ABSENT, and for the class DISABLED with IDLE 1. -/
def State.modifyCheck (s : State) (e : Bytes) : Option AdminStop :=
  let cls := nbit (leAt e 25 1) 0
  match s.adminGate e (fun x => x.state != .absent && (!cls || (x.state == .disabled && x.idle))) with
  | some r => some r
  | none =>
    needRange (leAt e 21 1 ≤ 1) 21 (leAt e 21 1)
      (needRange (1 ≤ leAt e 22 1) 22 (leAt e 22 1) (needRange (leAt e 25 1 ≤ 1) 25 (leAt e 25 1) none))

/-- MODIFY_QUEUE sets WEIGHT, and CLASS when CLASS_EN is set. -/
def State.modifyRun (s : State) (c : AdminCmd) : State :=
  let e := c.entry
  (s.onQueue (leAt e 16 2) (fun x =>
    { x with weight := leAt e 22 1, bulk := if nbit (leAt e 25 1) 0 then leAt e 21 1 == 1 else x.bulk })).adminRecord c 0 0

/-- MODIFY_QUEUE (Table 9-3). -/
def execModifyQueue (s : State) : Host.Outcome State Fault Refusal :=
  whenIssuing (fun s => s.adminRun 0x45 State.modifyCheck State.modifyRun) s

/-! ### Halted streams -/

/-- The halted streams of the descriptor at a ring slot, a halted REPLAY among them (R302, R613). -/
def State.haltedAtSlot (s : State) (q slot : Nat) : List Desc :=
  s.descs.filter (fun d => d.queue == q && d.first % 2 ^ (s.queue q).log2 == slot && d.phase == .halted)

/-- The checks of RESUME_STREAM and ABANDON_STREAM (R336, R612). -/
def State.haltedCheck (s : State) (e : Bytes) : Option AdminStop :=
  match s.adminGate e (fun x => x.state != .absent) with
  | some r => some r
  | none =>
    let slot := leAt e 28 4
    needRange (slot < 2 ^ (s.queue (leAt e 16 2)).log2) 28 slot
      (if (s.haltedAtSlot (leAt e 16 2) slot).isEmpty then some (0x13, fieldWord 28) else none)

/-- A halted stream's record is read (Table 8-3, step 5); a halted REPLAY goes on at the entry where it halted (R613). -/
def State.resumeOne (s : State) (d : Desc) : State :=
  if opcodeOf d.entries = 0x0E then s.setDesc { d with phase := .running, replayFault := none }
  else
    let pa := (s.queue d.queue).save + 256 * d.recIdx
    match s.routePa pa with
    | some dest => s.addReq (mkReq dest pa 256 .read (.saveRead d.id) ctlMaster d.queue 0xFFFF none (s.isLc d.queue) [] [])
    | none => s.recordBad d.id

/-- RESUME_STREAM resumes every halted stream of the descriptor (R302); the command ends once their records have been read. -/
def State.resumeRun (s : State) (c : AdminCmd) : State :=
  ((s.haltedAtSlot (leAt c.entry 16 2) (leAt c.entry 28 4)).foldl State.resumeOne s.adminWait).resumeRead

/-- RESUME_STREAM (R302). -/
def execResumeStream (s : State) : Host.Outcome State Fault Refusal :=
  whenIssuing (fun s => s.adminRun 0x46 State.haltedCheck State.resumeRun) s

/-- A halted stream is abandoned (R305): it completes with PROTECTION and its fault's address, its channel's indices are discarded and
the channel is free; a halted REPLAY ends with the entry's address (R613). -/
def State.abandonOne (s : State) (d : Desc) : State :=
  if opcodeOf d.entries = 0x0E then
    s.setDesc { d with phase := .running, replayFault := none, replayEnded := true,
                       replayStatus := if d.replayStatus = 0 then 0x21 else d.replayStatus,
                       replayWord1 := if d.replayStatus = 0 then word (d.replayFault.getD 0) else d.replayWord1 }
  else
    let g := s.groupOf d.queue
    let s := match d.chan with
      | some c => (s.releaseIdx g c ((s.cport g).chan c).idx.length).freeChan d
      | none => s
    s.setDesc { endWith d.dropStaging 0x21 (word ((d.fault.map (·.va)).getD 0)) with chan := none }

/-- ABANDON_STREAM abandons them. -/
def State.abandonRun (s : State) (c : AdminCmd) : State :=
  ((s.haltedAtSlot (leAt c.entry 16 2) (leAt c.entry 28 4)).foldl State.abandonOne s).adminRecord c 0 0

/-- ABANDON_STREAM (R305). -/
def execAbandonStream (s : State) : Host.Outcome State Fault Refusal :=
  whenIssuing (fun s => s.adminRun 0x47 State.haltedCheck State.abandonRun) s

/-! ### Placement of resumed streams -/

/-- R281 among resumed streams: the latency-critical ones first, in the order in which they were resumed. -/
def State.resumeTurn (s : State) (d : Desc) : Bool :=
  let rs := s.resumeRequests (s.groupOf d.queue)
  rs.any (fun e => e.id == d.id) && rs.all (fun e => e.id == d.id ||
    (s.isLc d.queue && !s.isLc e.queue) || (s.isLc d.queue == s.isLc e.queue && d.resumeStamp < e.resumeStamp))

/-- The place from which a resumed stream reads: the start of its limb, of its band, or its saved position (R203, R204, R303). -/
def Geo.rereadFrom (g : Geo) (pos : Nat) : Nat :=
  if g.wholeLimb then pos / g.limbLen * g.limbLen
  else if g.band then
    let l := max (g.dst.n.getD 1 0) 1
    let tl := max (g.dst.n.getD 0 0 / 128 * l) 1
    let k := pos / 128
    128 * (k / tl * tl + k % tl / (16 * l) * (16 * l))
  else pos

/-- The side record that goes with the saved position of a LIFT past the first tile of its row: it is read again (R269). -/
def Desc.sideAgain (d : Desc) : List FUnit :=
  let i := d.geo.indexAt d.pos
  if i.getD 0 0 = 0 then [] else d.geo.sideNeeds (i.set 0 0)

/-- A stream as its mover takes it up again (R203, R269, R302, R303, R519): it keeps the staging that it still holds or asks for it
again, asks for its lift slot again, and reads its index list again. -/
def Desc.runAgain (d : Desc) (epoch : Nat) : Desc :=
  let g := d.geo
  let lift := g.op == 8 || g.op == 9
  let lo := g.rereadFrom d.pos
  let held := g.wholeLimb && d.staged
  let e := { d with
    phase := .running, wr := none, rmwOut := false, rdPos := if held then d.rdPos else lo, rdDone := if held then d.rdDone else 0,
    recent := [], runs := [], outDone := false, epoch := epoch, holdLeft := false, stagingWait := d.stagingKib != 0 && !d.staged,
    liftWait := lift, liftSlot := none, liftPos := if d.staged then d.liftPos else lo, idxScan := 0,
    ins := d.ins.filter (fun u => u.unit.obj != 2) }
  d.sideAgain.foldl Desc.want e

/-- A resumed stream on its mover. One that halted at the lookup of its REMOTE signal has not begun: it begins now (R94, R291). -/
def Desc.resumed (d : Desc) (m epoch : Nat) : Desc :=
  let d := { d with mover := some m, fault := none, faultIsHalt := false, faultCause := 0, results := [], resumeStamp := 0,
                    slotWaited := false }
  if d.began then d.runAgain epoch else { d with phase := .ready }

/-- A resumed stream is placed on a mover (Table 8-3, step 6), in its turn. On a retired group it ends with ABSENT_UNIT (R538). Each
limb that it reads again counts (R203); one that it expands again does not (R231). -/
def State.placeResumed (s : State) (did : Nat) : State :=
  match s.desc did with
  | none => s
  | some d =>
    let g := s.groupOf d.queue
    if d.phase != .resuming || d.resumeStamp == 0 then s
    else if !s.hasGroup g then s.setDesc (endWith d 0x12 0)
    else
      match s.resumeTurn d, s.pickMover g with
      | true, some m =>
        let s := s.setDesc (d.resumed m s.commit.epoch)
        if d.staged ∨ d.stagedLimbs = 0 then s else s.bump (Reg.lnCnt g) 63 48 d.stagedLimbs
      | _, _ =>
        if d.slotWaited then s else (s.setDesc { d with slotWaited := true }).bump (Reg.mvCnt g) 31 16

/-- RESUME_PLACEMENT (R278, R281, R303). -/
def execResumePlacement (did : Nat) (s : State) : Host.Outcome State Fault Refusal :=
  whenIssuing (fun s => (s.placeResumed did).settleCores.pump.wakeReady) s

/-! ### Registers of the admin queue -/

/-- Whether QM_ADMIN_RING and QM_ADMIN_IDX take writes (R331): while ENABLE is 0 and the queue is idle. -/
def State.adminOpen (s : State) : Bool := (s.queue 0).state != .enabled && (s.queue 0).idle

/-- A write of QM_ADMIN_RING (R331): a LOG2_SIZE outside 4 to 12 leaves the field, and BASE takes effect. -/
def State.adminRing (s : State) (p : Port) (part : Part) (v : Word) : State :=
  if fromCompute p || !s.adminOpen then s
  else
    let old := s.regFld Reg.qmAdminRing 51 48
    let s := s.writeFields p Reg.qmAdminRing part v
    let k := s.regFld Reg.qmAdminRing 51 48
    if 4 ≤ k ∧ k ≤ 12 then s else s.setFld Reg.qmAdminRing 51 48 old

/-- A write of QM_ADMIN_IDX (R331): its START is taken at the next setting of ENABLE. -/
def State.adminIdx (s : State) (p : Port) (part : Part) (v : Word) : State :=
  if fromCompute p || !s.adminOpen then s
  else
    let s := s.writeFields p Reg.qmAdminIdx part v
    { s with admin := { s.admin with fresh := true } }

/-- ENABLE is set (R331): the first time since a reset, and after a write of QM_ADMIN_IDX, the queue takes START as its indices; it reads
the index block once. -/
def State.adminEnable (s : State) (p : Port) : State :=
  let x := s.queue 0
  if fromCompute p || (x.state == .enabled && !x.lastRead) then s
  else
    let i := s.regFld Reg.qmAdminIdx 63 44
    let x := { x with state := .enabled, lastRead := false, idxAgain := true, log2 := s.regFld Reg.qmAdminRing 51 48,
                      ring := s.regFld Reg.qmAdminRing 43 7 * 128, idx := s.regFld Reg.qmAdminIdx 43 6 * 64 }
    let x := if s.admin.fresh then { x with pr := i, cons := i, next := i, spec := i, consWritten := i } else x
    ({ s.setQueue 0 x with admin := { s.admin with fresh := false } } : State).wantFetch 0 |>.pump

/-- ENABLE is cleared (R331): as DISABLE_QUEUE, the index block is read a last time and every owned command completes. -/
def State.adminDisable (s : State) (p : Port) : State :=
  let x := s.queue 0
  if fromCompute p || x.state != .enabled || x.lastRead then s
  else ((s.setQueue 0 { x with lastRead := true, idxAgain := true }).wantFetch 0).pump

/-- QM_ADMIN_RING_WRITE (R331). -/
def execQmAdminRingWrite (p : Port) (part : Part) (v : Word) (s : State) : Host.Outcome State Fault Refusal :=
  whenNormal (fun s => s.adminRing p part v) s

/-- QM_ADMIN_ENABLE (R331). -/
def execQmAdminEnable (p : Port) (s : State) : Host.Outcome State Fault Refusal := whenNormal (fun s => s.adminEnable p) s

/-- QM_ADMIN_DISABLE (R331). -/
def execQmAdminDisable (p : Port) (s : State) : Host.Outcome State Fault Refusal := whenNormal (fun s => s.adminDisable p) s

end Sys2Proof.Machine
end

