-- ==== Sys2Proof/Machine/Reliability.lean ====
section
/-! DEFINITION. Reliability and ageing: failed memory and bank ports (R540 to R543), retirement on request (R536 to R539), ageing
(R544 to R546), repair (R535), and the fatal halt with its dump (R554 to R556). -/

namespace Sys2Proof.Machine

/-- What a retirement leaves to be done: power domains, a CREATE_QUEUE that waits, the links' blocks, the streams that ended. -/
def State.afterRetire (s : State) : State := ((s.settleDomains.createAgain).settleFabric).settleCores.pumpReplays.pump

/-! ### Memory ports -/

/-- Whether an access was issued on a memory port. -/
def MemReq.onPort (r : MemReq) (p : Nat) : Bool := r.dest == .mport p

/-- A memory port is declared failed (R540, Table 17-6, step 1): it issues nothing more, and the quiesce handshake starts. -/
def State.failPort (s : State) (p : Nat) : State :=
  if s.hasMport p && (tget s.sup.ports p).isNone then
    (({ s with sup := { s.sup with ports := tput s.sup.ports p .quiescing } } : State).evHm 2).emit (.quiesce p)
  else s

/-- An access that was outstanding on a failed port (R541): a read-modify-write ends its descriptor with DATA_CHECK, any other access
is issued again on the partner port; where no port is left to serve it, it ends as an unreadable access does. -/
def State.movePort (s : State) (r : MemReq) : State :=
  if (r.atomic && !r.held) || (s.routePa r.pa).isNone then s.lostAccess r 1 else s.reissue r

/-- The handshake has ended (R541): the port is retired, and its accesses go on in their original order. -/
def State.portDrained (s : State) (p : Nat) : State :=
  if tget s.sup.ports p = some .quiescing then
    let s := { s with sup := { s.sup with ports := tput s.sup.ports p .drained } }
    let s := s.retire 6 p
    ((s.reqs.filter (fun r => r.onPort p)).foldl State.movePort s).afterRetire
  else s

/-- The handshake has not ended within 20 µs (R541): both ports of the pair are retired, and everything outstanding on them is lost. -/
def State.portStuck (s : State) (p : Nat) : State :=
  if tget s.sup.ports p = some .quiescing then
    let q := partner p
    let s := { s with sup := { s.sup with ports := tput s.sup.ports p .drained } }
    let s := (s.retire 6 p).retire 6 q
    ((s.reqs.filter (fun r => r.onPort p || r.onPort q)).foldl (fun s r => s.lostAccess r 1) s).afterRetire
  else s

/-- MEMORY_PORT_TIMEOUT (R540): a request of the port has waited longer than PORT_TIMEOUT_US. -/
def execMemoryPortTimeout (p : Nat) (s : State) : Host.Outcome State Fault Refusal :=
  whenNormal (fun s => if s.reqs.any (fun r => r.onPort p && !r.held) then s.failPort p else s) s

/-- MP_FAILED (R540): the HBM controller declares the port failed. -/
def execMpFailed (p : Nat) (s : State) : Host.Outcome State Fault Refusal := whenNormal (fun s => s.failPort p) s

/-- MP_DRAINED (R541). -/
def execMpDrained (p : Nat) (s : State) : Host.Outcome State Fault Refusal := whenNormal (fun s => s.portDrained p) s

/-- QUIESCE_TIMEOUT (R541). -/
def execQuiesceTimeout (p : Nat) (s : State) : Host.Outcome State Fault Refusal := whenNormal (fun s => s.portStuck p) s

/-! ### Bank ports -/

/-- An alias write or a read-modify-write. -/
def MemReq.modifies (r : MemReq) : Bool := r.kind == .rmw || r.kind == .aliasSet || r.kind == .aliasClear

/-- A bank port that leaves an accepted access without an answer has failed (R542): the surviving port carries every access; an alias
write or SCATTER_ADD that was outstanding on the failed port ends with an error, and the others are issued again in their order. -/
def State.bankPortFailed (s : State) (b p : Nat) : State :=
  let waiting := s.bankReady b p
  if waiting.isEmpty || !s.hasBank b || 2 ≤ p then s
  else
    let lost := s.reqs.filter (fun r => r.waitsAt b && s.bankPortOf b r.master == p && r.modifies)
    let bad := if (tget s.sup.bankPortBad b).isSome then 2 else p
    let s := { s with sup := { s.sup with bankPortBad := tput s.sup.bankPortBad b bad } }
    let s := (s.setReg Reg.hmFailedBport (putBit (s.reg Reg.hmFailedBport) b true)).evHm 2
    (lost.foldl (fun s r => s.lostAccess r 1) s).settleCores.pumpReplays.pump

/-- BANK_PORT_TIMEOUT (R542). -/
def execBankPortTimeout (b p : Nat) (s : State) : Host.Outcome State Fault Refusal := whenNormal (fun s => s.bankPortFailed b p) s

/-! ### Retirement on request and by limits -/

/-- A write of HM_RETIRE_REQ (R536): KIND and INDEX lie in the lower half. -/
def State.retireReq (s : State) (p : Port) (part : Part) (v : Word) : State :=
  if fromCompute p || part == .hi then s
  else
    let kind := fld v 15 8
    let i := fld v 7 0
    if 1 ≤ kind ∧ kind ≤ 7 ∧ s.hasUnit kind i then (s.retire kind i).afterRetire else s.evHm 5

/-- HM_RETIRE_REQ (R536). -/
def execHmRetireReq (p : Port) (part : Part) (v : Word) (s : State) : Host.Outcome State Fault Refusal :=
  whenNormal (fun s => s.retireReq p part v) s

/-- LIMIT_WINDOW_EXPIRY (R536): a period of HM_CFG.WINDOW_MS has ended, and the counts against the limits start again. -/
def execLimitWindowExpiry (s : State) : Host.Outcome State Fault Refusal :=
  whenNormal (fun s => { s with sup := { s.sup with ceWin := [], ueWin := [] } }) s

/-! ### Ageing -/

/-- The units of an island (Retirement of an island). -/
def islandUnits (i : Nat) : List (Nat × Nat) :=
  if i < 12 then [(2, i)]
  else if i < 16 then (List.range 4).map (fun k => (4, 4 * (i - 12) + k))
  else if i < 24 then (List.range 8).map (fun k => (5, 8 * (i - 16) + k))
  else if i < 30 then (List.range 16).map (fun k => (7, 16 * (i - 24) + k))
  else []

/-- Retirement of an island: its units are retired; for the control island this is fatal with reason AGEING. -/
def State.retireIsland (s : State) (i : Nat) : State :=
  if i = 30 then s.raiseFatal 0x14 0 else (islandUnits i).foldl (fun s u => s.retire u.1 u.2) s

/-- The datapath islands of the die. -/
def State.datapath (s : State) : List Nat := s.tokenOrder.filter (· != 31)

/-- A re-plan of an island (R545): the ceiling falls by STEP_MHZ, but not below 1800 MHz, where the island's units are retired; it is
counted, logged (DETAIL the spec does not state, a free value) and reported to the power manager. -/
def State.replan (s : State) (i : Nat) : State :=
  let k := Reg.hmAge i
  let c := s.regFld k 55 44
  let step := s.actFld Reg.hmAgeCfg 7 0
  let low := decide (c < 1800 + step)
  let new := if low then 1800 else c - step
  let s := ((s.setFld k 55 44 new).bump k 63 56).evHm 3
  let s := s.logObj 0x0D keeperOrigin i (leBytes 20 (Config.openValue 6 s.free))
  let s := s.pmSend 0x85 (2 ^ 8 * i + 2 ^ 16 * new)
  if low then s.retireIsland i else s

/-- A reading of an island's monitors (R545). MARGIN_PS holds 12 bits. -/
def State.readMargin (s : State) (i m : Nat) : State :=
  let m := min m 0xFFF
  let s := s.setFld (Reg.hmAge i) 11 0 m
  if m < s.actFld Reg.hmAgeCfg 15 8 then s.replan i else s

/-- The keeper's own work reads its code memory (Table 16-2, index 9, UNIT 0): an injected uncorrectable error damages one word, which
the spec does not name (a free value), until its repair (R535). -/
def State.codeEcc (s : State) : State :=
  match s.inject 9 0 none with
  | (s, .clean) => s
  | (s, .corrected) => s.countEcc 9 0 false
  | (s, .uncorrectable) =>
    let im := s.image 0
    let k := 2 ^ 20 * im.active + Config.openValue 9 s.free % (imageBytes 0 / 8)
    (({ s with images := tput s.images 0 { im with damaged := [k] } } : State).useFree).countEcc 9 0 true

/-- AGEING_PERIOD (R545): the margins of the islands, by the index of Table 16-4. -/
def execAgeingPeriod (margins : List Nat) (s : State) : Host.Outcome State Fault Refusal :=
  whenIssuing (fun s =>
    (s.datapath.foldl (fun s i => match margins[i]? with
      | some m => s.readMargin i m
      | none => s) s.codeEcc).afterRetire) s

/-! ### Repair -/

/-- Whether the light list in force holds an image record of a memory that covers a byte of its bank (R535): records from a place on. -/
def imageCovers (list : Bytes) (mem off : Nat) : Nat → Nat → Bool
  | 0, _ => false
  | fuel + 1, at' =>
    if leAt list 20 4 ≤ at' then false
    else
      let n := leAt list (at' + 4) 4
      (leAt list at' 2 == 2 && leAt list (at' + 8) 8 == mem && decide (off < n)) || imageCovers list mem off fuel (at' + 16 + ceilDiv n 8 * 8)

/-- A repair of a memory has ended (R535): the damaged words are right again where the cached list holds an image for them and they read
back sound; otherwise the group is retired, or, for the code memory, the error is fatal with reason KEEPER_CODE. -/
def State.repairDone (s : State) (mem : Nat) (ok : Bool) : State :=
  let im := s.image mem
  if im.damaged.isEmpty then s
  else
    let held := im.damaged.all (fun k => imageCovers s.kp.list mem (8 * (k % 2 ^ 20)) (leAt s.kp.list 12 4) 64)
    let s := { s with images := tput s.images mem { im with damaged := [] } }
    if ok && held then s
    else if mem = 0 then s.raiseFatal 0x11 0
    else (s.retire 2 (mem - 0x10)).afterRetire

/-- MEMORY_REPAIR_DONE (R535). -/
def execMemoryRepairDone (mem : Nat) (ok : Bool) (s : State) : Host.Outcome State Fault Refusal :=
  whenNormal (fun s => s.repairDone mem ok) s

/-! ### Fatal -/

/-- KEEPER_WATCHDOG (R555). -/
def execKeeperWatchdog (s : State) : Host.Outcome State Fault Refusal := outOfReset (fun s => s.raiseFatal 0x12 0) s

/-- COMMIT_STALL (R555): a commit token has not returned within 1 ms. -/
def execCommitStall (s : State) : Host.Outcome State Fault Refusal :=
  whenNormal (fun s => if s.commit.phase = .prepare ∨ s.commit.phase = .switch then s.raiseFatal 0x13 0 else s) s

/-- A register as the dump holds it: as a read in mode NORMAL would give it. -/
def State.dumpReg (s : State) (off : Nat) : Word :=
  if off < 0x10000 ∨ (0x20000 ≤ off ∧ off < 0x30000) then s.readReg .host off
  else ({ s with kp := { s.kp with mode := .normal } } : State).readReg .host off

/-- The registers of the dump's snapshot in order (Table 16-7). -/
def dumpRegs : List Nat :=
  [Reg.idGrade, Reg.kpBoot, Reg.cfStat, Reg.cfCheckInfo, Reg.qmAdminRing, Reg.qmAdminIdx, Reg.qmAdminCtrl, Reg.qmEvent,
   Reg.atFaultInfo, Reg.atFaultVa, Reg.atInvStat, Reg.byEvent, Reg.fqPool, Reg.fbChip, Reg.fbEvent, Reg.wbEvent, Reg.hmEvent,
   Reg.hmRetiredUnit, Reg.hmRetiredMover, Reg.hmRetiredBank, Reg.hmRetiredLink0, Reg.hmRetiredLink1, Reg.hmRetiredMport,
   Reg.hmFailedBport]

/-- The 16 admin entries that end at the one being fetched, or at the one fetched last, oldest first, as read (Table 16-7). -/
def State.dumpEntries (s : State) : Bytes :=
  (List.range 16).flatMap (fun k =>
    let last := (s.queue 0).entOut.getD (((s.admin.recent.getLast?).map (·.1)).getD 0)
    let i := (last + 2 ^ 32 + k - 15) % 2 ^ 32
    fitTo 128 ((s.admin.recent.find? (fun p => p.1 == i)).map (·.2) |>.getD []))

/-- A queue in the dump's queue table (Table 16-7). -/
def State.dumpQueue (s : State) (q : Nat) : Bytes :=
  let x := s.queue q
  let halted := (s.descsOf q).any Desc.isHalted
  leBytes 4 (2 ^ 16 * (x.cons % 2 ^ 16) + min x.owned 0xFFF * 16 + b2n halted * 8 + b2n x.idle * 4 + stateCode x.state)

/-- The admin index being fetched at the halt, or 0 (Table 16-7): of ADMIN_FRAMING and ADMIN_ENTRY that of the entry at fault. -/
def State.fatalIndex (s : State) (reason obj : Nat) : Nat :=
  if reason = 1 ∨ reason = 2 then obj else (s.queue 0).entOut.getD 0

/-- The dump from its byte 0x40 on (Table 16-7), with the keeper's trap record. -/
def State.dumpTail (s : State) (trap : Bytes) : Bytes :=
  dumpRegs.flatMap (fun r => leBytes 8 (s.dumpReg r).toNat) ++ s.dumpEntries ++
    (List.range 16).flatMap (fun i => leBytes 8 (s.dumpReg (Reg.hmEcc i)).toNat) ++
    (List.range 96).flatMap (fun l => leBytes 8 (s.dumpReg (Reg.fbLinkStat l)).toNat) ++ fitTo 128 trap ++ zeros 0x300 ++
    (List.range 4096).flatMap s.dumpQueue ++ zeros 0x3000

/-- The dump's bytes 0 to 27 (Table 16-7). ORIGIN is the keeper, which the spec does not say. CYCLES is a free value. -/
def State.dumpHead (s : State) (reason index : Nat) : Bytes :=
  [0x56, 0x46, 0x44, 0x31] ++ leBytes 2 s.kp.epoch ++ leBytes 1 reason ++ leBytes 1 keeperOrigin ++ leBytes 8 (Config.cycles s.free) ++
    leBytes 4 s.kp.nextSeq ++ leBytes 4 index ++ zeros 4

/-- The dump of a fatal event (R556). -/
def State.dumpOf (s : State) (reason obj : Nat) (trap : Bytes) : Bytes :=
  let head := s.dumpHead reason (s.fatalIndex reason obj)
  let rest := zeros 0x20 ++ s.dumpTail trap
  head ++ leBytes 4 (crc32c (head ++ rest)) ++ rest

/-- The keeper has written the dump (Table 16-5, step 4): the FATAL log record follows, and MODE is HALTED. -/
def State.fatalDone (s : State) (trap : Bytes) : State :=
  match s.kp.fatal with
  | none => s
  | some (reason, obj) =>
    if s.kp.mode = .halted then s
    else
      let d := s.dumpOf reason obj trap
      let s := { s with kp := { s.kp with dump := d, dumpValid := true, dumpReason := reason, dumpEpoch := s.kp.epoch,
                                          dumps := (s.kp.dumps + 1) % 2 ^ 16 } }
      let s := s.useFree
      let s := s.logObj 0x0C keeperOrigin (Config.openValue 7 s.free % 2 ^ 32) (leBytes 20 (Config.openValue 6 s.free))
      { s with kp := { s.kp with mode := .halted } }

/-- FATAL_DUMP_WRITTEN (R554). -/
def execFatalDumpWritten (trap : Bytes) (s : State) : Host.Outcome State Fault Refusal := outOfReset (fun s => s.fatalDone trap) s

end Sys2Proof.Machine
end

