-- ==== Sys2Proof/Machine/Power.lean ====
section
/-! DEFINITION. Operating points (R28, R29, R546, R584), power domains (R586), and the reference clock (R587). -/

namespace Sys2Proof.Machine

/-! ### Operating points -/

/-- The limit of an island (R546): the lower of CAP_MHZ and CEILING_MHZ. -/
def State.opLimit (s : State) (i : Nat) : Nat := min (s.actFld (Reg.hmAge i) 31 20) (s.regFld (Reg.hmAge i) 55 44)

/-- A frequency rounded down to a multiple of 25 MHz (R584). -/
def mhz25 (f : Nat) : Nat := f / 25 * 25

/-- SET_OP (R546, R583, R584): a frequency above the limit gives the limit and sets AGE_CLAMP; the request takes the place of one that
has not been answered. An island that is not there, or a frequency below 1800 MHz, is a field out of range. -/
def State.setOp (s : State) (i freq seq : Nat) : State :=
  if !s.datapath.contains i || freq < 1800 || 0xFFF < freq || 0xFFFF < seq then s
  else
    let lim := s.opLimit i
    let s := if lim < freq then s.evHm 4 else s
    { s with sup := { s.sup with ops := tput s.sup.ops i { freq := mhz25 (min freq lim), seq := seq } } }

/-- SET_OP (R584). -/
def execSetOp (island freq seq : Nat) (s : State) : Host.Outcome State Fault Refusal := whenNormal (fun s => s.setOp island freq seq) s

/-- A quiet point of an island (R29, R545): it runs at the frequency of its request, which is answered, or, with no request, comes down to
a limit that has fallen below its frequency. -/
def State.opChange (s : State) (i : Nat) : State :=
  let k := Reg.hmAge i
  let lim := mhz25 (s.opLimit i)
  match tget s.sup.ops i with
  | some r =>
    let f := min r.freq lim
    let s := (s.setFld k 43 32 f).pmSend 0x81 (2 ^ 8 * i + 2 ^ 16 * f + 2 ^ 32 * r.seq)
    { s with sup := { s.sup with ops := tdel s.sup.ops i } }
  | none => if s.datapath.contains i ∧ lim < s.regFld k 43 32 then s.setFld k 43 32 lim else s

/-- OPERATING_POINT_CHANGE (R29). -/
def execOperatingPointChange (island : Nat) (s : State) : Host.Outcome State Fault Refusal :=
  whenNormal (fun s => s.opChange island) s

/-! ### Power domains -/

/-- A power switch reports the state it has reached (R586): a bank pair that has reached retention answers its request (Table 17-9), and
a CREATE_QUEUE that waits for its domains looks again. -/
def State.pdAck (s : State) (d st : Nat) : State :=
  match tget s.sup.domains d with
  | none => s
  | some x =>
    if x.got = st ∨ x.want ≠ st then s
    else
      let s := { s with sup := { s.sup with domains := tput s.sup.domains d { x with got := st } } }
      if !s.normal then s
      else
        let s := if 88 ≤ d ∧ d < 120 ∧ st = 2 ∧ (s.pair (d - 88)).state = .retention then s.retainDone (d - 88) true else s
        s.createAgain.pump

/-- PD_ACK (R586). -/
def execPdAck (d st : Nat) (s : State) : Host.Outcome State Fault Refusal := outOfReset (fun s => s.pdAck d st) s

/-- The units of a power domain that a switch failure retires (R586). -/
def domainUnits (d : Nat) : List (Nat × Nat) :=
  if d < 48 then [(1, d)]
  else if d < 60 then [(8, d - 48)]
  else if d < 72 then [(3, d - 60)]
  else if d < 88 then [(4, d - 72)]
  else if d < 120 then [(5, 2 * (d - 88)), (5, 2 * (d - 88) + 1)]
  else if d < 144 then (List.range 4).map (fun k => (7, 4 * (d - 120) + k))
  else []

/-- A power switch has not reported the state asked for within 20 µs (R586): its domain's units are retired. -/
def State.pdTimeout (s : State) (d : Nat) : State :=
  match tget s.sup.domains d with
  | none => s
  | some x =>
    if x.want = x.got then s
    else ((domainUnits d).foldl (fun s u => s.retire u.1 u.2) s).afterRetire

/-- PD_ACK_TIMEOUT (R586). -/
def execPdAckTimeout (d : Nat) (s : State) : Host.Outcome State Fault Refusal := whenNormal (fun s => s.pdTimeout d) s

/-! ### Reference clock -/

/-- REF_CLOCK_LOSS (R587): every generator goes into holdover. -/
def execRefClockLoss (s : State) : Host.Outcome State Fault Refusal :=
  outOfReset (fun s => { s with sup := { s.sup with holdover := true } }) s

/-- REF_CLOCK_RETURN (R587). -/
def execRefClockReturn (s : State) : Host.Outcome State Fault Refusal :=
  outOfReset (fun s => { s with sup := { s.sup with holdover := false } }) s

end Sys2Proof.Machine
end

