-- ==== Sys2Proof/Machine/Access.lean ====
section
/-! DEFINITION. A register write at any offset, by the class of the register and the authority of the port (R512, R572, R598, R603), the
parameter registers (R121), and the output pins that show states (R564, R565). -/

namespace Sys2Proof.Machine

/-! ### Parameters -/

/-- A parameter register of a queue after a write of some of its bits. -/
def putParam (f : RegFile) (i : Nat) (m v : Word) : RegFile :=
  let new := merge ((tget f i).getD 0) v m
  if new = 0 then tdel f i else tput f i new

/-- A write of PR_PARAM[i] (R121): refused while the selected queue is ENABLED or ABSENT, ignored for a queue number out of range. -/
def State.prParam (s : State) (p : Port) (i : Nat) (part : Part) (v : Word) : State :=
  let q := s.regFld Reg.prQsel 11 0
  if fromCompute p || 64 ≤ i || s.nQueues ≤ q then s
  else
    match (s.queue q).state with
    | .disabled | .error => s.onQueue q (fun x => { x with params := putParam x.params i (partMask part) (partVal part v) })
    | _ => s.event Reg.prStat 0 Reg.prStat 63 32

/-- PR_PARAM_WRITE (R121). -/
def execPrParamWrite (p : Port) (i : Nat) (part : Part) (v : Word) (s : State) : Host.Outcome State Fault Refusal :=
  whenNormal (fun s => s.prParam p i part v) s

/-! ### Writes with an effect of their own -/

/-- CF_CTRL (Table 15-13): a write whose OP is 0, or that does not cover OP, does nothing. -/
def State.cfCtrl (s : State) (p : Port) (part : Part) (v : Word) : State :=
  if part = .hi then s
  else
    match fld v 1 0 with
    | 1 => s.cfCtrlGate p (fun s => s.checkOp (originOf p) false)
    | 2 => s.cfCtrlGate p (fun s => s.checkOp (originOf p) true)
    | 3 => s.cfCtrlGate p State.discardShadow
    | _ => s

/-- QM_ADMIN_CTRL (R331): ENABLE as written. -/
def State.adminCtrl (s : State) (p : Port) (part : Part) (v : Word) : State :=
  if part = .hi then s else if bit v 0 then s.adminEnable p else s.adminDisable p

/-- FB_LINK_STAT[l] (Table 13-18): ADMIN_DOWN is staged, and RESTORE acts at once (R513). -/
def State.linkStatWrite (s : State) (p : Port) (l : Nat) (part : Part) (v : Word) : State :=
  let s := s.writeFields p (Reg.fbLinkStat l) part v
  if bit (partVal part v &&& partMask part) 63 then s.restoreLink l else s

/-- A write of a register outside the KP window by a party with authority over it: the registers that act, and all others (R598). -/
def State.writeActing (s : State) (p : Port) (off : Nat) (part : Part) (v : Word) : State :=
  if off = Reg.cfCtrl then s.cfCtrl p part v
  else if off = Reg.cfImgData then s.imgData p part v
  else if off = Reg.qmAdminRing then s.adminRing p part v
  else if off = Reg.qmAdminIdx then s.adminIdx p part v
  else if off = Reg.qmAdminCtrl then s.adminCtrl p part v
  else if off = Reg.atInv then s.atInv part v
  else if off = Reg.atTable then s.atTable p part v
  else if off = Reg.bySignal then s.bySignal p part v
  else if off = Reg.bySet then s.bySet p part v
  else if off = Reg.byArmHi then s.byArm p part v
  else if off = Reg.byDisarm then s.byDisarm p part v
  else if isInst off (Reg.fqCtrl 0) 8 256 then
    (if part = .hi then s else s.fqCtrl p ((off - Reg.fqCtrl 0) / 8) (fld v 7 0))
  else if off = Reg.hmRetireReq then s.retireReq p part v
  else if off = Reg.tpLock then (if part ≠ .hi ∧ bit v 2 then s.tpLock p else s.tpPlain p off part v)
  else if off = Reg.tpInj then s.tpInj p part v
  else if isInst off (Reg.tpTgCtrl 0) 0x20 64 then s.tgWrite p ((off - Reg.tpTgCtrl 0) / 0x20) part v
  else if 0x70000 ≤ off ∧ off < 0x80000 ∧ (regRow off).isSome then s.tpPlain p off part v
  else if isInst off (Reg.fbLinkStat 0) 8 96 then s.linkStatWrite p ((off - Reg.fbLinkStat 0) / 8) part v
  else if isInst off (Reg.prParam 0) 8 64 then s.prParam p ((off - Reg.prParam 0) / 8) part v
  else s.writeFields p off part v

/-- A register write in normal mode (R512): through a compute port only what it may write, with a refusal recorded for a register of the
CF window. The KP window is not written here. -/
def State.writeNormal (s : State) (p : Port) (off : Nat) (part : Part) (v : Word) : State :=
  if fromCompute p then
    (if computeMay off then s.writeActing p off part v
     else if 0x10000 ≤ off ∧ off < 0x20000 ∧ (regRow off).isSome then s.refuseWrite (originOf p) 4 off
     else s)
  else s.writeActing p off part v

/-! ### Output pins -/

/-- A W1C register with a bit set. -/
def State.anyOf (s : State) (ks : List Nat) : Bool := ks.any (fun k => s.reg k != 0)

/-- hp_irq_fq, and cp_irq_fq of compute port g, as the FQ_IRQ bits of the queues whose IRQ_PORT is 0, or 1 + g (R565, Table 17-3). -/
def State.irqFq (s : State) (port : Nat) : Bool :=
  (List.range 256).any (fun f => bit (s.reg (Reg.fqIrq (f / 64))) (f % 64) && fld (s.act (rkey Reg.fqCfg f)) 51 48 == port)

/-- hp_irq_event (Table 17-3). -/
def State.hpIrqEvent (s : State) : Bool :=
  !s.rst.inEffect && (s.anyOf [Reg.cfEvent, Reg.kpEvent, Reg.qmEvent, Reg.atEvent, Reg.byEvent, Reg.fbEvent, Reg.wbEvent, Reg.hmEvent] ||
    (List.range 256).any (fun f => bit (s.reg (rkey Reg.fqStat f)) 63 || bit (s.reg (rkey Reg.fqStat f)) 62))

/-- hp_fatal (Table 17-3): from the halt until a block reset. -/
def State.hpFatal (s : State) : Bool := !s.rst.inEffect && s.kp.mode == .halted

/-- hp_ready (Table 17-3): once the boot has ended. -/
def State.hpReady (s : State) : Bool := !s.rst.inEffect && s.kp.mode != .booting

end Sys2Proof.Machine
end

