-- ==== Sys2Proof/Machine/Boot.lean ====
section
/-! DEFINITION. The keeper's boot (R501 to R511, R544): the NOR and its epoch sectors, the light list, the service floor, the boot commit,
and the verification jobs at the security port (R523, R582). -/

namespace Sys2Proof.Machine

/-! ### Epochs -/

/-- The successor of an epoch (R504). -/
def nextEpoch (e : Nat) : Nat := e % 0xFFFF + 1

/-- Whether an epoch is newer than another (R504). -/
def newerEpoch (e' e : Nat) : Bool := 1 ≤ (e' + 0xFFFF - e) % 0xFFFF && (e' + 0xFFFF - e) % 0xFFFF ≤ 32767

/-- Record `i` of the epoch sectors, 256 to a sector (R502): epoch and SEQUENCE, where its CRC is right. The record is laid out as epoch at
byte 0, SEQUENCE at byte 4 and the CRC of bytes 0 to 11 at byte 12 (PRESUMED, log entry 24). -/
def epochRecord (sectors : Bytes) (i : Nat) : Option (Nat × Nat) :=
  let b := (sectors.drop (16 * i)).take 16
  if b.length = 16 ∧ leAt b 12 4 = crc32c (b.take 12) ∧ leAt b 0 2 ≠ 0 then some (leAt b 0 2, leAt b 4 4) else none

/-- The bytes of an epoch record. -/
def epochBytes (epoch seq : Nat) : Bytes :=
  let b := leBytes 2 epoch ++ zeros 2 ++ leBytes 4 seq ++ zeros 4
  b ++ leBytes 4 (crc32c b)

/-- The valid records of the epoch sectors with their places. -/
def epochRecords (sectors : Bytes) : List (Nat × Nat × Nat) :=
  (List.range 512).filterMap (fun i => (epochRecord sectors i).map (fun r => (i, r.1, r.2)))

/-- The newest record (R503, R504). -/
def newestEpoch : List (Nat × Nat × Nat) → Option (Nat × Nat × Nat)
  | [] => none
  | r :: rest =>
    match newestEpoch rest with
    | none => some r
    | some x => if newerEpoch r.2.1 x.2.1 then some r else some x

/-- The epoch in force before a cold reset (R503). -/
def epochBefore (sectors : Bytes) : Nat := ((newestEpoch (epochRecords sectors)).map (·.2.1)).getD 0

/-- The highest SEQUENCE accepted, by the epoch sectors (R507). -/
def highestSeq (sectors : Bytes) : Nat := (epochRecords sectors).foldl (fun m r => max m r.2.2) 0

/-- Whether record `i` of the epoch sectors is erased. -/
def erasedAt (sectors : Bytes) (i : Nat) : Bool := ((sectors.drop (16 * i)).take 16).all (fun b => b == 0xFF)

/-- The next step of the epoch writer (R503): the record goes to the first erased place of the current sector; when that sector is full,
the other one is erased and takes it. -/
def epochPlace (sectors : Bytes) : EpochJob :=
  let cur := ((newestEpoch (epochRecords sectors)).map (fun r => r.1 / 256)).getD 0
  match searchUp (fun k => erasedAt sectors (256 * cur + k)) 256 0 with
  | some k => { sector := cur, erase := false, slot := k }
  | none => { sector := 1 - cur, erase := true, slot := 0 }

/-- Offset of an epoch sector in the NOR (Table 15-2). -/
def sectorAt (k : Nat) : Nat := 0x1000 + 0x1000 * k

/-- The read of the NOR's SFDP area (Table 15-1, discovery): 0x5A in mode 1-1-1, a 3-byte address and 8 dummy cycles. -/
def sfdpRead : Out := .nvmRead 0x5A 8 1 3 0 0x1000

/-- A bulk read (Table 15-1): the 1-1-4 read of the BFPT or the fallback, with a 4-byte address above 16 MiB. -/
def NorInfo.bulk (n : NorInfo) (addr len : Nat) : Out :=
  .nvmRead n.op n.dummy n.lanes (if n.four && 0x1000000 < addr + len then 4 else 3) addr len

/-- The epoch record goes to the NOR: Write Enable (0x06), then Page Program (0x02). -/
def State.programEpoch (s : State) (j : EpochJob) : State :=
  (({ s with kp := { s.kp with epochJob := some { j with erase := false } } } : State).emit .nvmEnable).emit
    (.nvmProgram (sectorAt j.sector + 16 * j.slot) (epochBytes s.kp.epoch s.kp.maxSeq))

/-- The epoch record of this boot is written, where the keeper knows the sectors (R503). -/
def State.startEpoch (s : State) : State :=
  if s.kp.sectors.length ≠ 0x2000 then s
  else
    let j := epochPlace s.kp.sectors
    if j.erase then
      (({ s with kp := { s.kp with epochJob := some j } } : State).emit .nvmEnable).emit (.nvmErase s.kp.nor.erase (sectorAt j.sector))
    else s.programEpoch j

/-- A step of the epoch writer has ended. One that failed ends the writing: the CRC of the records makes that harmless (R589). -/
def State.epochStep (s : State) (j : EpochJob) (ok : Bool) : State :=
  if !ok then { s with kp := { s.kp with epochJob := none } }
  else if j.erase then
    let b := s.kp.sectors.take (0x1000 * j.sector) ++ List.replicate 0x1000 0xFF ++ s.kp.sectors.drop (0x1000 * j.sector + 0x1000)
    ({ s with kp := { s.kp with sectors := b } } : State).programEpoch j
  else
    let b := overlay s.kp.sectors (0x1000 * j.sector + 16 * j.slot) (epochBytes s.kp.epoch s.kp.maxSeq)
    { s with kp := { s.kp with sectors := b, epochJob := none } }

/-! ### End of a boot -/

/-- A boot ends (R509, R511): the mode, the reason, the time it took (a free value), and the BOOT record; the epoch sector follows. -/
def State.endBoot (s : State) (mode : KpMode) (reason : Nat) : State :=
  let s := { s with kp := { s.kp with mode := mode, reason := reason, stage := .none, job := .none, bootUs := Config.bootUs s.free } }
  let s := s.useFree
  let s := s.logObj 0x01 keeperOrigin (leAt s.kp.list 16 4)
    (leBytes 1 (modeCode mode) ++ leBytes 1 s.kp.source ++ leBytes 1 reason)
  s.startEpoch

/-- The boot ends in keeper-only mode (R511). -/
def State.keeperOnly (s : State) (reason : Nat) : State := s.endBoot .keeperOnly reason

/-! ### The light list -/

/-- A record of a light list (R506). -/
structure ListRec where
  type : Nat
  target : Nat
  body : Bytes
deriving DecidableEq, Repr

/-- The records of a list from a place on, or none where one runs past SIG_OFFSET, has an unknown TYPE or flags (R506, R507). -/
def listRecs (b : Bytes) (sigOff : Nat) : Nat → Nat → Option (List ListRec)
  | 0, _ => some []
  | n + 1, at' =>
    let t := leAt b at' 2
    let len := leAt b (at' + 4) 4
    if sigOff < at' + 16 + len ∨ t < 1 ∨ 3 < t ∨ leAt b (at' + 2) 2 ≠ 0 then none
    else
      (listRecs b sigOff n (at' + 16 + ceilDiv len 8 * 8)).map (fun r =>
        { type := t, target := leAt b (at' + 8) 8, body := (b.drop (at' + 16)).take len } :: r)

/-- The records of a list. -/
def recsOf (b : Bytes) : Option (List ListRec) := listRecs b (leAt b 20 4) (leAt b 12 4) 64

/-- The signature of a list, and its signed bytes. -/
def sigOf (b : Bytes) : Bytes := (b.drop (leAt b 20 4)).take (leAt b 24 4)

/-- The header checks of R505 and R507 on a list that its directory entry gives a length. -/
def listSound (b : Bytes) (len : Nat) : Bool :=
  leAt b 0 4 == 0x314C4C56 && leAt b 4 2 == 1 && leAt b 28 4 == crc32c (b.take 28) && leAt b 8 4 == len && len ≤ 0x400000 &&
    b.length == len && leAt b 20 4 % 8 == 0 && 1 ≤ leAt b 24 4 && leAt b 24 4 ≤ 8192 && leAt b 20 4 + leAt b 24 4 == len &&
    64 ≤ leAt b 20 4 && (recsOf b).isSome

/-- The reason for which the keeper refuses a list that it has read, 0 where it goes on to the signature (R507, Table 15-6). -/
def State.listRefusal (s : State) (b : Bytes) (len : Nat) : Nat :=
  if !listSound b len then 0x02
  else if !(leAt b 6 1).testBit s.grade then 0x04
  else if leAt b 16 4 < s.kp.maxSeq then 0x05
  else 0

/-- How far a refusal of Table 15-6 lies along the checks of a list: the reason shown is that of the list that came furthest. -/
def refusalRank (reason : Nat) : Nat :=
  if reason = 0x03 then 4 else if reason = 0x05 then 3 else if reason = 0x04 then 2 else if reason = 0x02 then 1 else 0

/-- Reads the next slot's list, or ends the boot when no slot is left (R507, R509). -/
def State.nextSlot (s : State) : State :=
  match s.kp.slots with
  | [] => s.keeperOnly (if s.kp.worst = 0 then 0x02 else s.kp.worst)
  | e :: rest =>
    ({ s with kp := { s.kp with slots := rest, stage := .list e } } : State).emit (s.kp.nor.bulk e.offset e.length)

/-- A list is refused: the other slot is tried (R507). -/
def State.refuseList (s : State) (reason : Nat) : State :=
  ({ s with kp := { s.kp with worst := if refusalRank s.kp.worst < refusalRank reason then reason else s.kp.worst } } : State).nextSlot

/-- The values of a REG_BLOCK are written as host writes (R506); an operation of CF_CTRL starts nothing during the boot. -/
def State.listBlock (s : State) (target : Nat) (body : Bytes) : State :=
  (List.range (body.length / 8)).foldl (fun s i =>
    let off := target + 8 * i
    if off = Reg.cfCtrl ∨ off < 0x10000 ∨ (0x20000 ≤ off ∧ off < 0x30000) then s
    else s.writeNormal .host off .whole (wordAt body i)) s

/-- An IMAGE record (R506): its bytes go to the shadow bank from offset 0, and SWAP is staged. A warm reset keeps the keeper's active code
bank (Table 15-12), so the code image of a cached list is not loaded again. -/
def State.listImage (s : State) (mem : Nat) (body : Bytes) (warm : Bool) : State :=
  if !s.isImage mem || (warm && mem == 0) then s
  else
    let im := s.image mem
    let n := min (ceilDiv body.length 8) (imageBytes mem / 8)
    let s := (List.range n).foldl (fun s i => s.putImage mem (1 - im.active) i (wordAt (fitTo (8 * n) body) i)) s
    let k := rkey Reg.cfImgCtrl mem
    s.setShadow k (putBit (s.shadow k) 31 true)

/-- Applies a record of the list; LOCK records are taken up after the boot commit. -/
def State.listRecord (warm : Bool) (s : State) (r : ListRec) : State :=
  if r.type = 1 then s.listBlock r.target r.body
  else if r.type = 2 then s.listImage r.target r.body warm
  else s

/-- The lock ranges of a list (R506, R513). -/
def locksOf (rs : List ListRec) : List (Nat × Nat) :=
  (rs.filter (fun r => r.type == 3)).flatMap (fun r =>
    (List.range (r.body.length / 8)).map (fun i => (leAt r.body (8 * i) 4, leAt r.body (8 * i + 4) 4)))

/-- Whether a list value may land at an offset (R508). -/
def targetOk (off : Nat) : Bool :=
  let named := (0x10000 ≤ off && off < 0x20000) || (0x30000 ≤ off && off < 0x70000) || (0x80000 ≤ off && off < 0x90000) || 0x100000 ≤ off
  off % 8 == 0 && named && (match regRow off with
    | some r => (r.st ||| r.rw ||| r.wo) != 0
    | none => false)

/-- LIST_TARGET (R508): the offsets of the list's values that may not land there. -/
def badTargets (rs : List ListRec) : List CheckFail :=
  (rs.filter (fun r => r.type == 1)).flatMap (fun r =>
    ((List.range (r.body.length / 8)).filter (fun i => !targetOk (r.target + 8 * i))).map (fun i =>
      { code := 0x0B, off := (r.target + 8 * i) % 2 ^ 24, sel := 0, sel2 := 0 }))

/-! ### Measurement and floor -/

/-- The ceiling of an island by its measurement (R544): the highest of 2700 MHz and the steps below it that passed, or 1800 with the
island retired. -/
def State.setCeiling (s : State) (i measured : Nat) : State :=
  let step := max (s.actFld Reg.hmAgeCfg 7 0) 1
  let c := 2700 - ceilDiv (2700 - min measured 2700) step * step
  if c < 1800 ∨ measured < 1800 then (s.setFld (Reg.hmAge i) 55 44 1800).retireIsland i
  else s.setFld (Reg.hmAge i) 55 44 c

/-- CEILING_MEASUREMENT (R544), before the boot commit. An island with no measurement is taken to have passed at 2700 MHz. The keeper
island runs at 400 MHz. The spec does not state at which frequency the other islands start: each is a free value in the steps of 25 MHz
from 1800 MHz (R6, R584) to the island's ceiling. -/
def State.measure (s : State) : State :=
  let s := s.datapath.foldl (fun s i => s.setCeiling i (s.kp.ceilings.getD i 2700)) s
  let s := (s.datapath.foldl (fun s i =>
    let steps := (s.regFld (Reg.hmAge i) 55 44 - 1800) / 25 + 1
    s.setFld (Reg.hmAge i) 43 32 (1800 + 25 * (Config.openValue 10 (32 * s.free + i) % steps))) s).useFree
  s.setFld (Reg.hmAge 31) 43 32 400

/-- The service floor (R510), as far as it lies in the block: the reference clock (R587), the start-up tests with the host port's
handshake, a group with a mover, and a memory port. -/
def State.floorOk (s : State) : Bool :=
  s.kp.refClock && s.kp.startup && (List.range 12).any (fun g => s.hasGroup g && !(s.groupMovers g).isEmpty) &&
    (List.range 64).any s.hasMport

/-! ### Boot commit -/

/-- The boot commit (Table 15-5, steps 6 and 7; R525): the shadow set becomes active at once, images swap, bank pairs and links follow, and
the block is in normal mode with its lock ranges in force. -/
def State.bootCommit (s : State) (rs : List ListRec) : State :=
  let s := s.swaps.foldl (fun s p => s.swapImage p.1 p.2) s
  let a := clearSwaps s.grade s.cfg.shadow
  let old := s.cfg.active
  let s := { s with cfg := { shadow := a, pending := a, active := a, old := old },
                    commit := { s.commit with phase := .idle, epoch := 1, result := 0 } }
  let s := s.evCf 0
  let s := (List.range 32).foldl State.powerPair s
  let s := ((List.range 6).map (24 + ·)).foldl State.fabricCommit s
  let s := { s with cfg := { s.cfg with old := s.cfg.active }, kp := { s.kp with locks := locksOf rs } }
  ((s.endBoot .normal 0).settleDomains).pump

/-- The rest of the boot CHECK, after the images (R508, R516), and the commit. -/
def State.bootTargets (s : State) : State :=
  let rs := (recsOf s.kp.list).getD []
  match lowest (badTargets rs) with
  | some f => (s.checkFailed keeperOrigin f).keeperOnly 0x06
  | none => s.bootCommit rs

/-- A list has been accepted (Table 15-5, steps 5 and 6): its records are applied, the islands measured, the floor tested, and CHECK run.
A code image asks the security port first (R523). -/
def State.bootList (s : State) (list : Bytes) (source : Nat) : State :=
  let s := { s with kp := { s.kp with list := list, source := source, cached := list, maxSeq := max s.kp.maxSeq (leAt list 16 4),
                                      cachedSlot := if source = 2 then s.kp.cachedSlot else source } }
  let s := ((recsOf list).getD []).foldl (State.listRecord (source == 2)) s
  let s := s.measure
  if s.kp.fatal.isSome then s
  else if !s.floorOk then s.keeperOnly 0x07
  else match runCheck s with
    | some f => (s.checkFailed keeperOrigin f).keeperOnly 0x06
    | none =>
      match s.swaps.find? (fun p => p.1 == 0) with
      | some (_, v) => s.askCode true keeperOrigin v
      | none => s.bootTargets

/-! ### The NOR -/

/-- The parameter header of the Basic Flash Parameter Table in an SFDP area (R501): its table pointer. The places of the fields are those of
JESD216 (PRESUMED, log entry 25). -/
def bfptAt (b : Bytes) : Option Nat :=
  if leAt b 0 4 ≠ 0x50444653 then none
  else
    ((List.range (leAt b 6 1 + 1)).find? (fun k =>
      leAt b (8 + 8 * k) 1 == 0x00 && leAt b (15 + 8 * k) 1 == 0xFF && leAt b (10 + 8 * k) 1 == 1)).map (fun k => leAt b (12 + 8 * k) 3)

/-- What the BFPT at a place of an SFDP area says (R501): address bytes, 1-1-4 read, 4 KiB erase and density, where JESD216 has them
(PRESUMED, log entry 25). Without a 1-1-4 read the keeper reads by Fast Read, 0x0B. -/
def norOf (b : Bytes) (at' : Nat) : NorInfo :=
  let d1 := leAt b at' 4
  let d2 := leAt b (at' + 4) 4
  let d3 := leAt b (at' + 8) 4
  let size := if nbit d2 31 then 2 ^ min (nfld d2 30 0) 64 else d2 + 1
  let fast : NorInfo := { four := nfld d1 18 17 != 0, op := 0x0B, dummy := 8, lanes := 1, erase := nfld d1 15 8, size := size / 8 }
  if nbit d1 22 then { fast with op := nfld d3 31 24, dummy := nfld d3 20 16 + nfld d3 23 21, lanes := 4 } else fast

/-- A slot entry of the directory (Table 15-2): entry 0 at byte 4, entry 1 at byte 20. -/
def slotEntry (b : Bytes) (k : Nat) : Option SlotEntry :=
  let e := (b.drop (4 + 16 * k)).take 16
  if leAt e 12 4 = crc32c (e.take 12) ∧ e.length = 16 then
    some { slot := k, offset := leAt e 0 4, length := leAt e 4 4, sequence := leAt e 8 4 }
  else none

/-- The slots that the keeper may read, the higher SEQUENCE first (Table 15-5, step 2). A list lies within the NOR, one above 16 MiB needs
4-byte addresses, and a LENGTH is at most 4 MiB. -/
def State.slotsOf (s : State) (b : Bytes) : List SlotEntry :=
  if leAt b 0 4 ≠ 0x52494456 then []
  else
    let es := ([0, 1].filterMap (slotEntry b)).filter (fun e =>
      e.length ≤ 0x400000 && e.offset + e.length ≤ s.kp.nor.size && (s.kp.nor.four || e.offset + e.length ≤ 0x1000000))
    match es with
    | [x, y] => if x.sequence < y.sequence then [y, x] else [x, y]
    | l => l

/-- The directory has been read: the epoch sectors are next, unless the keeper kept its epoch across a warm reset (R503). -/
def State.gotDirectory (s : State) (b : Bytes) : State :=
  let s := { s with kp := { s.kp with slots := s.slotsOf b } }
  if s.rst.level = .cold then
    ({ s with kp := { s.kp with stage := .epochs } } : State).emit (s.kp.nor.bulk 0x1000 0x2000)
  else s.nextSlot

/-- The list of a slot has been read (R507). -/
def State.gotList (s : State) (e : SlotEntry) (b : Bytes) : State :=
  match s.listRefusal b e.length with
  | 0 =>
    ({ s with kp := { s.kp with stage := .auth e b, job := .list } } : State).emit (.security 1 (b.take (leAt b 20 4)) (sigOf b))
  | r => s.refuseList r

/-- The NOR cannot be read: the boot ends in keeper-only mode with reason NVM. A cold boot that has read no epoch record takes the epoch after
0, since epoch 0 is never issued (R503). -/
def State.norFailed (s : State) : State :=
  ({ s with kp := { s.kp with epoch := if s.kp.epoch = 0 then nextEpoch 0 else s.kp.epoch } } : State).keeperOnly 0x01

/-- What the keeper does with a read of the NOR during a boot (R501, R503, R507, R509). -/
def State.nvmRead (s : State) (ok : Bool) (data : Bytes) : State :=
  match s.kp.stage with
  | .sfdp =>
    (match ok, bfptAt data with
     | true, some at' =>
       ({ s with kp := { s.kp with stage := .directory, nor := norOf data at' } } : State).emit ((norOf data at').bulk 0 0x1000)
     | _, _ => s.norFailed)
  | .directory => if ok then s.gotDirectory data else s.norFailed
  | .epochs =>
    if ok then
      let b := fitTo 0x2000 data
      ({ s with kp := { s.kp with sectors := b, epoch := nextEpoch (epochBefore b), maxSeq := highestSeq b } } : State).nextSlot
    else s.norFailed
  | .list e => if ok then s.gotList e (data.take e.length) else s.norFailed
  | _ => s

/-- The keeper goes on with the NOR: its boot, or its epoch record. -/
def State.nvmDone (s : State) (ok : Bool) (data : Bytes) : State :=
  if s.rst.abort then s
  else if s.kp.mode = .booting ∧ s.kp.fatal.isNone then s.nvmRead ok data
  else match s.kp.epochJob with
    | some j => s.epochStep j ok
    | none => s

/-- NVM_TRANSFER_COMPLETE (R501). -/
def execNvmTransferComplete (ok : Bool) (data : Bytes) (s : State) : Host.Outcome State Fault Refusal :=
  outOfReset (fun s => s.nvmDone ok data) s

/-! ### The security port -/

/-- The verdict on a code image (R523): a failed one is CHECK's code IMAGE at CF_IMG_CTRL; a passed one lets CHECK end, and APPLY or the
boot go on. -/
def State.codeVerdict (s : State) (applyAfter : Bool) (origin : Nat) (pass : Bool) : State :=
  let s := { s with kp := { s.kp with job := .none }, commit := { s.commit with phase := .idle } }
  let fail : CheckFail := { code := 0x0A, off := Reg.cfImgCtrl, sel := 0, sel2 := 0 }
  if s.kp.mode = .booting then
    (if pass then s.bootTargets else (s.checkFailed keeperOrigin fail).keeperOnly 0x06)
  else if !pass then s.checkFailed origin fail
  else if applyAfter then s.startCommit origin
  else { s with commit := { s.commit with result := 0 } }

/-- The security block has answered (R582): 0x00 for pass, 0x01 for fail. Any other byte is taken as a fail. -/
def State.verdict (s : State) (pass : Bool) : State :=
  match s.kp.job with
  | .none => s
  | .list =>
    (match s.kp.stage with
     | .auth e list =>
       let s := { s with kp := { s.kp with job := .none } }
       if pass then s.bootList list e.slot else s.refuseList 0x03
     | _ => s)
  | .code applyAfter origin => s.codeVerdict applyAfter origin pass

/-- A job that no fatal event and no reset has ended. -/
def State.jobLives (s : State) : Bool := !s.rst.abort && s.kp.fatal.isNone

/-- SECURITY_RESPONSE (R582). -/
def execSecurityResponse (a : Byte) (s : State) : Host.Outcome State Fault Refusal :=
  outOfReset (fun s => if s.jobLives then s.verdict (a == 0) else s) s

/-- A job has had no answer within 100 ms (R582): a boot ends in keeper-only mode with reason FLOOR, and a check fails with code IMAGE. -/
def State.noVerdict (s : State) : State :=
  if s.kp.job = .none then s
  else if s.kp.mode = .booting then ({ s with commit := { s.commit with phase := .idle } } : State).keeperOnly 0x07
  else s.verdict false

/-- SECURITY_TIMEOUT (R582). -/
def execSecurityTimeout (s : State) : Host.Outcome State Fault Refusal :=
  outOfReset (fun s => if s.jobLives then s.noVerdict else s) s

end Sys2Proof.Machine
end

