-- ==== Sys2Proof/Machine/Reset.lean ====
section
/-! DEFINITION. The block resets (R344, R345, R527, R589): the abort phase of a warm reset, what each level keeps (Table 15-12), the release
of reset (R509), the resets that software requests, register writes at any offset, and the debug TAP (R591 to R593). -/

namespace Sys2Proof.Machine

/-! ### Taking effect -/

/-- The RW registers and latches that a warm reset keeps: the retirement masks (R537, R558). -/
def retiredRegs : List Nat :=
  [Reg.hmRetiredUnit, Reg.hmRetiredMover, Reg.hmRetiredBank, Reg.hmRetiredLink0, Reg.hmRetiredLink1, Reg.hmRetiredMport]

/-- A bank pair after a warm reset: it keeps its contents, and is on again, unless it was off. -/
def keptPair (p : Pair) : Pair := { state := if p.state = .off then .off else .on, offered := false, retaining := false }

/-- The keeper across a warm reset (Table 15-12): its log, its dump, its cached list, its epoch and the epoch sectors it knows. -/
def keptKeeper (k : Keeper) : Keeper :=
  { Keeper.cold with epoch := k.epoch, sectors := k.sectors, maxSeq := k.maxSeq, nor := k.nor, cached := k.cached,
                     cachedSlot := k.cachedSlot, log := k.log, nextSeq := k.nextSeq, overwritten := k.overwritten, dump := k.dump,
                     dumpValid := k.dumpValid, dumpReason := k.dumpReason, dumpEpoch := k.dumpEpoch, dumps := k.dumps }

/-- A cold reset takes effect (R527): everything but the fuse map, the straps and the TAP is as after power-on. -/
def State.coldState (s : State) : State :=
  { State.reset with pending := s.pending, free := s.free, ids := s.ids, out := s.out, die := s.die, tap := s.tap }

/-- A warm reset takes effect (R527, R500, R537): beside that, the keeper, the retirement masks, the keeper's code memory and the contents
of the window banks are kept. -/
def State.warmState (s : State) : State :=
  { s.coldState with
      rst := { inEffect := true, level := .warm, abort := false }
      kp := keptKeeper s.kp
      regs := s.regs.filter (fun p => retiredRegs.contains p.1)
      images := s.images.filter (fun p => p.1 == 0)
      win := { ram := s.win.ram, bad := s.win.bad, pairs := s.win.pairs.map (fun p => (p.1, keptPair p.2)), scrub := [], rmws := [] } }

/-- While a reset is in effect every power domain is asked to be off (R589). -/
def State.domainsOff (s : State) : State := (s.sup.domains.map (·.1)).foldl (fun s d => s.pdAsk d 0) s

/-- A reset of a level takes effect. -/
def State.enterReset (s : State) (level : ResetLevel) : State :=
  match level with
  | .cold => s.domainsOff.coldState
  | .warm => s.domainsOff.warmState

/-- A block reset is requested: the RESET record (Table 15-11). DETAIL holds level and source, one byte each (DESIGN CHOICE, log entry 23). -/
def State.logReset (s : State) (level origin : Nat) : State := s.logObj 0x0B origin 0 (leBytes 1 level ++ leBytes 1 origin)

/-! ### Abort phase -/

/-- The entries of a chain that get a record, from the last to the FIRST (R131, R345): the places left, less those whose record is on its
way. -/
def State.abortChain (s : State) (q first did : Nat) (left : List Nat) (head : Bytes) (n : Nat) : List QmReq :=
  let h := headOf head
  (left.filter (fun pos => !s.reqs.any (fun r => r.owner == .rcd did pos && did != 0))).map (fun pos =>
    qmWrite q (slotVa (s.queue q) (idxAdd first pos)) (recordBytes (hTag h) (hPhase h) pos 0x3F false n 0) (.abortRcd (idxAdd first pos)))

/-- The records that the abort phase writes for a queue (R344): its admitted descriptors, its chains that wait for admission, and the
chain of which only the first entries are fetched, in queue order. -/
def State.abortQueue (s : State) (q : Nat) : List QmReq :=
  let x := s.queue q
  let ds := (s.descsOf q).filter (fun d => d.parent.isNone)
  let ordered := ds.foldl (fun l d =>
    l.takeWhile (fun e => idxDist x.cons e.first ≤ idxDist x.cons d.first) ++ [d] ++
      l.dropWhile (fun e => idxDist x.cons e.first ≤ idxDist x.cons d.first)) []
  ordered.flatMap (fun d =>
    let left := if d.phase = .recording then d.recordLeft else (List.range d.entries.length).reverse
    s.abortChain q d.first d.id left (d.entries.headD []) d.entriesDone) ++
  x.chains.flatMap (fun c => s.abortChain q c.first 0 (List.range c.entries.length).reverse (c.entries.headD []) 0) ++
  s.abortChain q ((x.next + 2 ^ 32 - x.part.length) % 2 ^ 32) 0 (List.range x.part.length).reverse (x.part.headD []) 0

/-- The records of every tenant queue: latency-critical queues first, each class in the order of queue numbers (R345). -/
def State.abortRecords (s : State) : List QmReq :=
  let qs := (s.queues.map (·.1)).filter (· != 0)
  (qs.filter s.isLc ++ qs.filter (fun q => !s.isLc q)).flatMap s.abortQueue

/-- The rest of a destination unit of this chip of which a stream has issued a part (R52). -/
def State.restOfUnit (did : Nat) : Nat → State → State
  | 0, s => s
  | n + 1, s =>
    match s.desc did with
    | none => s
    | some d =>
      match d.wr with
      | none => s
      | some u =>
        match pieceAt u.parts u.issued with
        | some p =>
          if u.issued = 0 ∨ u.data.length ≤ u.issued ∨ p.chip.isSome ∨ d.geo.toPort = true then s
          else restOfUnit did n (s.localPart d u p)
        | none => s

/-- The rest of every destination unit of this chip that has been issued in part (R52). -/
def State.finishUnits (s : State) : State := s.descs.foldl (fun s d => State.restOfUnit d.id 16 s) s

/-- The abort phase begins (R345): fetching, admission and every stream stop, but for the rest of the units that they have issued in part
(R52), and the records go out, unless a fatal CONTROL_STATE has made the queue bindings unsafe. -/
def State.beginAbort (s : State) : State :=
  let s := s.finishUnits
  let fatalBindings := s.kp.fatal.any (fun f => f.1 == 0x10)
  let rs := if fatalBindings then [] else s.abortRecords
  let s := { s with rst := { s.rst with abort := true, level := .warm }, qmParked := rs, qmResults := [], descs := [], fetchOrder := [],
                    queues := s.queues.map (fun (p : Nat × Queue) => (p.1, { p.2 with chains := [], part := [], halfEntry := none })) }
  s.pump

/-- A warm reset is asked for (R345, R589): its abort phase begins, unless a reset is in effect or the phase already runs. -/
def State.askWarm (s : State) (origin : Nat) : State :=
  if s.rst.inEffect || s.rst.abort then s else (s.logReset 0 origin).beginAbort

/-- A cold reset is asked for: it takes effect at once. -/
def State.askCold (s : State) (origin : Nat) : State := if s.rst.inEffect && s.rst.level == .cold then s else (s.logReset 1 origin).enterReset .cold

/-- POWER_ON_RESET (R589): the fuses and straps are sampled (R8, R577). -/
def execPowerOnReset (f : Fuses) (st : Straps) (s : State) : Host.Outcome State Fault Refusal :=
  answer s { (s.enterReset .cold) with die := { fuses := f, straps := st } }

/-- COLD_RESET (R527). -/
def execColdReset (s : State) : Host.Outcome State Fault Refusal := answer s (s.askCold keeperOrigin)

/-- WARM_RESET (R345). -/
def execWarmReset (s : State) : Host.Outcome State Fault Refusal := answer s (s.askWarm keeperOrigin)

/-- ABORT_PHASE_END (R345): every record is written or dropped, or 1 ms has passed. -/
def execAbortPhaseEnd (s : State) : Host.Outcome State Fault Refusal :=
  outOfReset (fun s => if s.rst.abort then s.enterReset .warm else s) s

/-! ### Release -/

/-- A cold boot starts with the NOR's SFDP (Table 15-5, steps 1 and 2). -/
def State.bootNor (s : State) : State :=
  ({ s with kp := { s.kp with stage := .sfdp } } : State).emit sfdpRead

/-- Reset is released (R509): the boot starts. A warm reset takes the next epoch (R503) and boots from the cached list; with none cached it
reads the NOR. -/
def State.release (s : State) (refClock startup : Bool) (ceilings : List Nat) : State :=
  let kp := { s.kp with mode := .booting, refClock := refClock, startup := startup, ceilings := ceilings, nextSeq := 0 }
  let s := { s with rst := { s.rst with inEffect := false, abort := false }, kp := kp }
  match s.rst.level with
  | .cold => s.bootNor
  | .warm =>
    let s := { s with kp := { s.kp with epoch := nextEpoch s.kp.epoch } }
    if s.kp.cached.isEmpty then s.bootNor else s.bootList s.kp.cached 2

/-- RESET_RELEASE (R509). -/
def execResetRelease (refClock startup : Bool) (ceilings : List Nat) (s : State) : Host.Outcome State Fault Refusal :=
  answer s (if s.rst.inEffect then s.release refClock startup ceilings else s)

/-! ### Resets by software -/

/-- A write of KP_RESET (R527, Table 15-30): KEY must be 0xA5. The KP window answers in every mode. -/
def State.kpReset (s : State) (p : Port) (part : Part) (v : Word) : State :=
  if fromCompute p || part == .hi || fld v 15 8 != 0xA5 then s
  else if bit v 0 then s.askCold (originOf p) else s.askWarm (originOf p)

/-- KP_RESET_WARM (R527). -/
def execKpResetWarm (p : Port) (s : State) : Host.Outcome State Fault Refusal := outOfReset (fun s => s.kpReset p .whole 0xA500) s

/-- KP_RESET_COLD (R527). -/
def execKpResetCold (p : Port) (s : State) : Host.Outcome State Fault Refusal := outOfReset (fun s => s.kpReset p .whole 0xA501) s

/-! ### Writes at any offset -/

/-- A register write through a port (R512, R598, R603): the KP window in every mode, every other window in normal mode only. -/
def State.writeAny (s : State) (p : Port) (off0 : Nat) (part : Part) (v : Word) : State :=
  let off := normOff off0
  if 0x20000 ≤ off ∧ off < 0x30000 then
    (if fromCompute p then s else if off = Reg.kpReset then s.kpReset p part v else s.writeFields p off part v)
  else if s.normal then s.writeNormal p off part v
  else s

/-- REGISTER_WRITE (R598). -/
def execRegisterWrite (p : Port) (off : Nat) (part : Part) (v : Word) (s : State) : Host.Outcome State Fault Refusal :=
  outOfReset (fun s => (s.writeAny p off part v).pump) s

/-! ### Commit tokens -/

/-- COMMIT_TOKEN_ARRIVAL (R517): the token reaches the next island, and the power domains follow what the commit changed (R33, R520). -/
def execCommitTokenArrival (s : State) : Host.Outcome State Fault Refusal := whenNormal (fun s => s.tokenStep.settleDomains) s

/-! ### Debug TAP -/

/-- A 64-bit read of a register through a port: what it does and what it returns. The first word of FQ_DATA takes the word at the read
position (R402); a read of BY_SEL or BY_VAL is under the authority of R397. The table has a row for the reads of the debug port
(REG_ACCESS) and of FQ_DATA alone: no command reads another register through the host or a compute port (log entry 86). -/
def State.portRead (s : State) (p : Port) (off : Nat) : State × Word :=
  let s := if !s.normal then s
    else if 0x58000 ≤ off ∧ off < 0x5C000 ∧ off % 64 < 8 then s.fqRead p ((off - 0x58000) / 64)
    else if normOff off = Reg.byVal then s.bySelRead p true
    else if normOff off = Reg.bySel then s.bySelRead p false
    else s
  (s, s.readReg p off)

/-- REG_ACCESS (R592): OFFSET in bits [82:64] is bits [21:3] of the byte offset, WRITE is bit 83 and GO bit 84. The access ends before the
next one can start. -/
def State.regAccess (s : State) (dr : BitVec 88) : State :=
  let n := dr.toNat
  let off := n / 2 ^ 64 % 2 ^ 19 * 8
  if !n.testBit 84 || !s.tap.done then { s with tap := { s.tap with ir := 0x20 } }
  else if n.testBit 83 then
    let t := (s.writeAny .debug off .whole (word (n % 2 ^ 64))).pump
    { t with tap := { t.tap with ir := 0x20, done := true, err := false } }
  else
    let (t, w) := s.portRead .debug off
    { t with tap := { ir := 0x20, data := w, done := true, err := false } }

/-- REG_ACCESS (R592): it works in every mode of KP_BOOT. -/
def execRegAccess (dr : BitVec 88) (s : State) : Host.Outcome State Fault Refusal := outOfReset (fun s => s.regAccess dr) s

/-- An instruction of the TAP is selected, and its data register captures a value. The TAP has its own reset. -/
def State.tapSelect (s : State) (ir : Nat) (data : Word) : State := { s with tap := { s.tap with ir := ir, data := data } }

/-- IDCODE (R591). -/
def execIdcode (s : State) : Host.Outcome State Fault Refusal := answer s (s.tapSelect 0x01 0x1A571F8F)

/-- Whether the wrappers' boundary cells answer (R593): the production lock is open and a block reset input is asserted. -/
def State.wrapperTest (s : State) : Bool := !s.tpIsLocked && s.rst.inEffect

/-- A wrapper test instruction (R593): without its conditions it acts as WS_BYPASS. What the boundary cells hold is a free value. -/
def State.wrapper (s : State) (ir : Nat) : State :=
  if s.wrapperTest then (s.tapSelect ir (word (Config.openValue 11 s.free))).useFree
  else (s.tapSelect 0x12 (word (Config.openValue 12 s.free % 2 ^ 32))).useFree

/-- WS_EXTEST (R593). -/
def execWsExtest (s : State) : Host.Outcome State Fault Refusal := answer s (s.wrapper 0x10)

/-- WS_INTEST (R593). -/
def execWsIntest (s : State) : Host.Outcome State Fault Refusal := answer s (s.wrapper 0x11)

/-- WS_BYPASS (R591): one bit per wrapper; what the bits capture the spec does not state (a free value). -/
def execWsBypass (s : State) : Host.Outcome State Fault Refusal :=
  answer s ((s.tapSelect 0x12 (word (Config.openValue 12 s.free % 2 ^ 32))).useFree)

/-- BYPASS (R591): one bit, whose captured value the spec does not state (a free value). -/
def execBypass (s : State) : Host.Outcome State Fault Refusal :=
  answer s ((s.tapSelect 0xFF (word (Config.openValue 12 s.free % 2))).useFree)

/-- TAP_RESET (R527): it resets the TAP and no part of the block. -/
def execTapReset (s : State) : Host.Outcome State Fault Refusal := answer s { s with tap := State.reset.tap }

end Sys2Proof.Machine
end

