-- ==== Sys2Proof/Machine/Dispatch.lean ====
section
/-! DEFINITION. The dispatch of a command to its meaning: one arm per row of the table. -/

namespace Sys2Proof.Machine

/-- The effect of a command on everything but the queue of waiting commands. -/
def exec (i : Instr) (s : State) : Host.Outcome State Fault Refusal :=
  match i with
  -- reset and boot
  | .powerOnReset fuses straps => Sys2Proof.Machine.execPowerOnReset fuses straps s
  | .coldReset => Sys2Proof.Machine.execColdReset s
  | .warmReset => Sys2Proof.Machine.execWarmReset s
  | .abortPhaseEnd => Sys2Proof.Machine.execAbortPhaseEnd s
  | .tapReset => Sys2Proof.Machine.execTapReset s
  | .resetRelease refClock startup ceilings => Sys2Proof.Machine.execResetRelease refClock startup ceilings s
  | .nvmTransferComplete ok data => Sys2Proof.Machine.execNvmTransferComplete ok data s
  | .securityResponse answer => Sys2Proof.Machine.execSecurityResponse answer s
  | .securityTimeout => Sys2Proof.Machine.execSecurityTimeout s
  -- registers and the staged commit
  | .registerWrite port offset part value => Sys2Proof.Machine.execRegisterWrite port offset part value s
  | .check port => Sys2Proof.Machine.execCheck port s
  | .apply port => Sys2Proof.Machine.execApply port s
  | .discard port => Sys2Proof.Machine.execDiscard port s
  | .commitTokenArrival => Sys2Proof.Machine.execCommitTokenArrival s
  | .islandRetireReport island => Sys2Proof.Machine.execIslandRetireReport island s
  | .commitStall => Sys2Proof.Machine.execCommitStall s
  | .cfImgDataWrite port part value => Sys2Proof.Machine.execCfImgDataWrite port part value s
  | .kpResetWarm port => Sys2Proof.Machine.execKpResetWarm port s
  | .kpResetCold port => Sys2Proof.Machine.execKpResetCold port s
  | .prParamWrite port k part value => Sys2Proof.Machine.execPrParamWrite port k part value s
  -- work queues
  | .qmAdminRingWrite port part value => Sys2Proof.Machine.execQmAdminRingWrite port part value s
  | .qmAdminEnable port => Sys2Proof.Machine.execQmAdminEnable port s
  | .qmAdminDisable port => Sys2Proof.Machine.execQmAdminDisable port s
  | .doorbell port queue => Sys2Proof.Machine.execDoorbell port queue s
  | .indexBlockReadResponse queue data err => Sys2Proof.Machine.execIndexBlockReadResponse queue data err s
  | .entryReadResponse queue data err => Sys2Proof.Machine.execEntryReadResponse queue data err s
  | .admission queue => Sys2Proof.Machine.execAdmit queue s
  -- descriptors
  | .nop did => Sys2Proof.Machine.execNop did s
  | .move did => Sys2Proof.Machine.execMove did s
  | .gather did => Sys2Proof.Machine.execGather did s
  | .scatter did => Sys2Proof.Machine.execScatter did s
  | .scatterAdd did => Sys2Proof.Machine.execScatterAdd did s
  | .automorph did => Sys2Proof.Machine.execAutomorph did s
  | .limbXpose did => Sys2Proof.Machine.execLimbXpose did s
  | .expand did => Sys2Proof.Machine.execExpand did s
  | .lift did => Sys2Proof.Machine.execLift did s
  | .condition did => Sys2Proof.Machine.execCondition did s
  | .signal did => Sys2Proof.Machine.execSignal did s
  | .wait did => Sys2Proof.Machine.execWait did s
  | .fence did => Sys2Proof.Machine.execFence did s
  | .paramSet did => Sys2Proof.Machine.execParamSet did s
  | .replay did => Sys2Proof.Machine.execReplay did s
  | .mark did => Sys2Proof.Machine.execMark did s
  | .replayEntryReadResponse did data err => Sys2Proof.Machine.execReplayEntryReadResponse did data err s
  -- streams
  | .moverIssueCycle mover => Sys2Proof.Machine.execMoverIssueCycle mover s
  | .walkGranuleRead walk data err => Sys2Proof.Machine.execWalkGranuleRead walk data err s
  | .memoryReadResponse req data poison ce => Sys2Proof.Machine.execMemoryReadResponse req data poison ce s
  | .memoryWriteAck req => Sys2Proof.Machine.execMemoryWriteAck req s
  | .atomicRmw req data err => Sys2Proof.Machine.execAtomicRmw req data err s
  | .descriptorComplete did => Sys2Proof.Machine.execDescriptorComplete did s
  | .lensStagingGrant g => Sys2Proof.Machine.execLensStagingGrant g s
  | .lensHoldExpiry did => Sys2Proof.Machine.execLensHoldExpiry did s
  | .streamHalt did => Sys2Proof.Machine.execStreamHalt did s
  -- admin commands
  | .createQueue => Sys2Proof.Machine.execCreateQueue s
  | .destroyQueue => Sys2Proof.Machine.execDestroyQueue s
  | .enableQueue => Sys2Proof.Machine.execEnableQueue s
  | .disableQueue => Sys2Proof.Machine.execDisableQueue s
  | .resetQueue => Sys2Proof.Machine.execResetQueue s
  | .modifyQueue => Sys2Proof.Machine.execModifyQueue s
  | .resumeStream => Sys2Proof.Machine.execResumeStream s
  | .abandonStream => Sys2Proof.Machine.execAbandonStream s
  | .resumePlacement did => Sys2Proof.Machine.execResumePlacement did s
  -- expander, lift units, compute ports
  | .expanderCoreGrant g => Sys2Proof.Machine.execExpanderCoreGrant g s
  | .xofPermutation g core parityFail => Sys2Proof.Machine.execXofPermutation g core parityFail s
  | .liftSlotGrant u => Sys2Proof.Machine.execLiftSlotGrant u s
  | .liftUnitCycle u => Sys2Proof.Machine.execLiftUnitCycle u s
  | .cpDeliveryTransfer g => Sys2Proof.Machine.execCpDeliveryTransfer g s
  | .cpWindowRequest g req => Sys2Proof.Machine.execCpWindowRequest g req s
  | .cpAixWord g chan vals => Sys2Proof.Machine.execCpAixWord g chan vals s
  -- window banks and power
  | .bankPortCycle bank port ecc => Sys2Proof.Machine.execBankPortCycle bank port ecc s
  | .bankScrub bank ecc => Sys2Proof.Machine.execBankScrub bank ecc s
  | .retain pair => Sys2Proof.Machine.execRetain pair s
  | .retentionEntry pair => Sys2Proof.Machine.execRetentionEntry pair s
  | .wake pair => Sys2Proof.Machine.execWake pair s
  | .pairWakeComplete pair => Sys2Proof.Machine.execPairWakeComplete pair s
  | .setOp island freq seq => Sys2Proof.Machine.execSetOp island freq seq s
  | .operatingPointChange island => Sys2Proof.Machine.execOperatingPointChange island s
  | .pdAck domain state => Sys2Proof.Machine.execPdAck domain state s
  | .pdAckTimeout domain => Sys2Proof.Machine.execPdAckTimeout domain s
  | .refClockLoss => Sys2Proof.Machine.execRefClockLoss s
  -- translation
  | .atInv port part value => Sys2Proof.Machine.execAtInv port part value s
  | .invalidationComplete => Sys2Proof.Machine.execInvalidationComplete s
  | .atTableWrite port part value => Sys2Proof.Machine.execAtTableWrite port part value s
  | .atEpochHalving => Sys2Proof.Machine.execAtEpochHalving s
  -- buoys, watches, flash queues
  | .bySignal port part value => Sys2Proof.Machine.execBySignal port part value s
  | .bySignalRelease port => Sys2Proof.Machine.execBySignalRelease port s
  | .bySet port part value => Sys2Proof.Machine.execBySet port part value s
  | .byArm port part value => Sys2Proof.Machine.execByArm port part value s
  | .byDisarm port part value => Sys2Proof.Machine.execByDisarm port part value s
  | .fqDataRead port f => Sys2Proof.Machine.execFqDataRead port f s
  | .fqMark port f => Sys2Proof.Machine.execFqMark port f s
  | .fqRewind port f => Sys2Proof.Machine.execFqRewind port f s
  | .fqRelease port f => Sys2Proof.Machine.execFqRelease port f s
  | .fqMarkRelease port f => Sys2Proof.Machine.execFqMarkRelease port f s
  | .waitLong g => Sys2Proof.Machine.execWaitLong g s
  -- fabric
  | .linkLock l => Sys2Proof.Machine.execLinkLock l s
  | .linkLockLoss l => Sys2Proof.Machine.execLinkLockLoss l s
  | .linkSend l => Sys2Proof.Machine.execLinkSend l s
  | .linkIdleTimer l => Sys2Proof.Machine.execLinkIdleTimer l s
  | .ackTimeout l => Sys2Proof.Machine.execAckTimeout l s
  | .beaconTimer l => Sys2Proof.Machine.execBeaconTimer l s
  | .lineAckTimer line => Sys2Proof.Machine.execLineAckTimer line s
  | .lineRetry line => Sys2Proof.Machine.execLineRetry line s
  | .lineLost line => Sys2Proof.Machine.execLineLost line s
  | .busyRetry line => Sys2Proof.Machine.execBusyRetry line s
  | .linkIdle l b => Sys2Proof.Machine.execLinkIdle l b s
  | .linkData l b => Sys2Proof.Machine.execLinkData l b s
  | .linkDataMasked l b => Sys2Proof.Machine.execLinkDataMasked l b s
  | .linkAdd l b => Sys2Proof.Machine.execLinkAdd l b s
  | .linkSignal l b => Sys2Proof.Machine.execLinkSignal l b s
  | .lineAck l b => Sys2Proof.Machine.execLineAck l b s
  | .beacon l b => Sys2Proof.Machine.execBeacon l b s
  | .fog l b => Sys2Proof.Machine.execFog l b s
  | .nack l b => Sys2Proof.Machine.execNack l b s
  | .close l b => Sys2Proof.Machine.execClose l b s
  | .busy l b => Sys2Proof.Machine.execBusy l b s
  | .restore port l => Sys2Proof.Machine.execRestore port l s
  -- reliability, ageing, test
  | .memoryPortTimeout p => Sys2Proof.Machine.execMemoryPortTimeout p s
  | .mpFailed p => Sys2Proof.Machine.execMpFailed p s
  | .mpDrained p => Sys2Proof.Machine.execMpDrained p s
  | .quiesceTimeout p => Sys2Proof.Machine.execQuiesceTimeout p s
  | .bankPortTimeout bank port => Sys2Proof.Machine.execBankPortTimeout bank port s
  | .hmRetireReq port part value => Sys2Proof.Machine.execHmRetireReq port part value s
  | .ageingPeriod margins => Sys2Proof.Machine.execAgeingPeriod margins s
  | .memoryRepairDone mem ok => Sys2Proof.Machine.execMemoryRepairDone mem ok s
  | .keeperWatchdog => Sys2Proof.Machine.execKeeperWatchdog s
  | .fatalDumpWritten trap => Sys2Proof.Machine.execFatalDumpWritten trap s
  | .tpLockSet port => Sys2Proof.Machine.execTpLockSet port s
  | .tpInjArm port part value => Sys2Proof.Machine.execTpInjArm port part value s
  | .tpTgRun port p part value => Sys2Proof.Machine.execTpTgRun port p part value s
  | .tgCycle p => Sys2Proof.Machine.execTgCycle p s
  -- debug port
  | .regAccess dr => Sys2Proof.Machine.execRegAccess dr s
  | .idcode => Sys2Proof.Machine.execIdcode s
  | .wsExtest => Sys2Proof.Machine.execWsExtest s
  | .wsIntest => Sys2Proof.Machine.execWsIntest s
  | .wsBypass => Sys2Proof.Machine.execWsBypass s
  | .bypass => Sys2Proof.Machine.execBypass s
  | .limitWindowExpiry => Sys2Proof.Machine.execLimitWindowExpiry s
  | .refClockReturn => Sys2Proof.Machine.execRefClockReturn s

end Sys2Proof.Machine
end

