-- ==== Sys2Proof/Safety.lean ====
section
/-! DEFINITION. What counts as a safe state and a safe run of the block, and which commands act in which mode, in the terms that the
statements use. -/

namespace Sys2Proof.Machine

/-- The sparse data of the block are in their canonical forms: the window memory lists rising offsets and no zero byte, the register files
the words of the double-banked memories, the buoys and the queues list rising keys. -/
def State.canonical (s : State) : Bool :=
  Memory.wf s.win.ram && tsorted s.regs && tsorted s.cfg.shadow && tsorted s.cfg.pending && tsorted s.cfg.active && tsorted s.cfg.old &&
    s.images.all (fun p => tsorted p.2.words) && tsorted s.sync.buoys && tsorted s.queues

/-- The identities of the descriptors in execution rise in the order of the list, and the next identity lies above them all: no two descriptors
share one, and a new descriptor takes one that none has. (The identities are the model's own, log entry 7.) -/
def State.idsRise (s : State) : Bool := tsorted (s.descs.map (fun d => (d.id, ())) ++ [(s.ids, ())])

/-- A run of commands is safe from a state on when every step answers a next state and every state on the way is canonical. -/
def SafeRun : Nat → State → Prop
  | 0, s => s.canonical = true
  | n + 1, s => s.canonical = true ∧ ∃ t, step s = .next t ∧ SafeRun n t

/-- The commands that reset the block, release it, or use the TAP, which has a reset of its own (R527, R589, R591). They act also while a
block reset is in effect. -/
def Instr.actsInReset : Instr → Bool
  | .powerOnReset _ _ | .coldReset | .tapReset | .resetRelease _ _ _ | .idcode | .wsExtest | .wsIntest | .wsBypass | .bypass => true
  | _ => false

/-- The commands of the keeper and of the register access to its window, of the reset inputs, of the clocks and switches, and of a block
on its way out of a link: they act in any mode of KP_BOOT once reset is released (R511, R554). -/
def Instr.actsInAnyMode (c : Instr) : Bool :=
  Instr.actsInReset c || match c with
  | .warmReset | .abortPhaseEnd | .kpResetWarm _ | .kpResetCold _ | .registerWrite _ _ _ _ | .nvmTransferComplete _ _
  | .securityResponse _ | .securityTimeout | .regAccess _ | .linkSend _ | .pdAck _ _ | .refClockLoss | .refClockReturn
  | .keeperWatchdog | .fatalDumpWritten _ => true
  | _ => false

/-- The commands by which the block issues or admits work: they stop at a fatal event (Table 16-5, step 2). -/
def Instr.issuesWork : Instr → Bool
  | .indexBlockReadResponse _ _ _ | .entryReadResponse _ _ _ | .admission _ | .nop _ | .move _ | .gather _ | .scatter _ | .scatterAdd _
  | .automorph _ | .limbXpose _ | .expand _ | .lift _ | .condition _ | .signal _ | .wait _ | .fence _ | .paramSet _ | .replay _
  | .mark _ | .replayEntryReadResponse _ _ _ | .moverIssueCycle _ | .descriptorComplete _ | .lensStagingGrant _ | .streamHalt _
  | .createQueue | .destroyQueue | .enableQueue | .disableQueue | .resetQueue | .modifyQueue | .resumeStream | .abandonStream
  | .resumePlacement _ | .expanderCoreGrant _ | .xofPermutation _ _ _ | .liftSlotGrant _ | .liftUnitCycle _ | .linkLock _
  | .linkLockLoss _ | .linkIdleTimer _ | .ackTimeout _ | .beaconTimer _ | .lineAckTimer _ | .lineRetry _ | .lineLost _ | .busyRetry _
  | .linkIdle _ _ | .linkData _ _ | .linkDataMasked _ _ | .linkAdd _ _ | .linkSignal _ _ | .lineAck _ _ | .beacon _ _ | .fog _ _
  | .nack _ _ | .close _ _ | .busy _ _ | .ageingPeriod _ | .tgCycle _ => true
  | _ => false

/-- The registers outside the KP window whose writes do something of their own; a write of any other register only changes its fields
(R598). -/
def actingOff (off : Nat) : Bool :=
  [Reg.cfCtrl, Reg.cfImgData, Reg.qmAdminRing, Reg.qmAdminIdx, Reg.qmAdminCtrl, Reg.atInv, Reg.atTable, Reg.bySignal, Reg.bySet,
   Reg.byArmHi, Reg.byDisarm, Reg.hmRetireReq].contains off || isInst off (Reg.fqCtrl 0) 8 256 || (0x70000 ≤ off && off < 0x80000) ||
    isInst off (Reg.fbLinkStat 0) 8 96 || isInst off (Reg.prParam 0) 8 64

/-- The sync unit has nothing that watches or waits: no injection is armed, no descriptor executes, no watch is armed and no claimant
stands at a buoy. An operation on a buoy then changes that buoy alone. -/
def State.quietSync (s : State) : Bool :=
  !bit (s.reg Reg.tpInj) 63 && s.descs.isEmpty && s.sync.watches.isEmpty && s.sync.claimants.isEmpty

/-- The debug port's word of 88 bits: the data, bits [21:3] of the byte offset in bits [82:64], WRITE in bit 83 and GO in bit 84 (R592). -/
def dbgWord (v : Word) (o : BitVec 19) (write go : Bool) : BitVec 88 :=
  BitVec.ofNat 88 (v.toNat + 2 ^ 64 * o.toNat + 2 ^ 83 * b2n write + 2 ^ 84 * b2n go)

/-- A block that a link takes: the link is there and its state carries the kind, no error is injected, CRC and tag are sound, the tag is of
the kind and of the sequence expected, and the reorder store has room (R447 to R450, R465). -/
def soundBlock (s : State) (l k : Nat) (b : LinkBlock) : Prop :=
  s.hasLink l = true ∧ carries (s.link l).state k = true ∧ bit (s.reg Reg.tpInj) 63 = false ∧ crcGood b = true ∧ tagSound b = true ∧
    (tagFields b).kind = k ∧ (tagFields b).linkSeq = (s.link l).rxSeq ∧ (s.storeRefuses l (tagFields b)).2 = false

/-- The state once the tag of a block that was taken has returned its acknowledgement and credits (R449, R450). -/
def tookBlock (s : State) (l k : Nat) (b : LinkBlock) : State :=
  (s.setLink l { s.link l with rxSeq := if lineKind k then ((s.link l).rxSeq + 1) % 2 ^ 16 else (s.link l).rxSeq,
                               nackSent := false }).tagReturns l (tagFields b)

end Sys2Proof.Machine
end

