-- ==== Sys2Proof/WellFormed.lean ====
section
/-! DEFINITION. The well-formed commands: every operand lies in the range that the spec gives it. A command whose operand lies outside
acts as the spec says of such an operand where it says so, and otherwise has no effect; no well-formed sender issues it. -/

namespace Sys2Proof

/-- A port: the compute ports are 0 to 11 (R12). -/
def Port.wf : Port → Bool
  | .host | .debug => true
  | .compute g => g < 12

/-- A register offset lies in the 16 MiB register space at a multiple of 8 (R595, R597). -/
def offsetWf (o : Nat) : Bool := o < 2 ^ 24 && o % 8 == 0

/-- A 32-bit write carries 32 bits (R597). -/
def valueWf (part : Part) (v : Word) : Bool := part == .whole || v.toNat < 2 ^ 32

/-- A block on a link carries its payload in whole granules of 64 bytes, at most 36 of them (R446, Table 13-2). -/
def LinkBlock.wf (b : LinkBlock) : Bool := b.payload.length % 64 == 0 && b.payload.length ≤ 2304

/-- A word of the request channel of a compute port (Table 17-4, R569): its address is a multiple of 64 bytes, LEN is 1 to 16 granules, and a
write has a byte and an enable for each byte of its granules. -/
def CpReq.wf (r : CpReq) : Bool :=
  r.addr.toNat % 64 == 0 && 1 ≤ r.len && r.len ≤ 16 &&
    (!r.write || (r.data.length == 64 * r.len && r.enables.length == 64 * r.len))

/-- The straps name a role for each of the four extension ports, 0, 1 or 2 (R577). -/
def Straps.wf (x : Straps) : Bool := x.xpRole.length == 4 && x.xpRole.all (· < 3)

/-- The fuses are those of a die of one of the five grades (Table 0-3): the modes, the counts as built and the compute ports are those of
Tables 0-1 and 0-2 (R4, R5). Which units are present is free. -/
def Fuses.wf (f : Fuses) : Bool :=
  let g := f.grade.toNat % 256
  let r := Machine.gradeRow g
  g < 5 && f.grade.toNat % 2 ^ 10 == Machine.gradeWord g && f.size.toNat % 2 ^ 48 == r.size && f.size2.toNat % 2 ^ 48 == r.size2 &&
    f.computePorts < 2 ^ r.computePorts

/-- A command with every operand in its range. -/
def Instr.wf : Instr → Bool
  | .powerOnReset f st => f.wf && st.wf
  | .coldReset | .warmReset | .abortPhaseEnd | .tapReset | .securityTimeout | .commitTokenArrival | .commitStall => true
  | .resetRelease _ _ ceilings => ceilings.length ≤ 32
  | .nvmTransferComplete _ data => data.length ≤ 0x400000
  | .securityResponse a => a.toNat ≤ 1
  | .registerWrite p o part v => p.wf && offsetWf o && valueWf part v
  | .check p | .apply p | .discard p | .kpResetWarm p | .kpResetCold p => p.wf
  | .islandRetireReport i => i < 32
  | .cfImgDataWrite p part v => p.wf && valueWf part v
  | .prParamWrite p i part v => p.wf && i < 64 && valueWf part v
  | .qmAdminRingWrite p part v => p.wf && valueWf part v
  | .qmAdminEnable p | .qmAdminDisable p => p.wf
  | .doorbell p q => p.wf && q < 4096
  | .indexBlockReadResponse q data _ => q < 4096 && data.length == 64
  | .entryReadResponse q data _ => q < 4096 && (data.length == 64 || data.length == 128)
  | .admission q => q < 4096
  | .nop _ | .move _ | .gather _ | .scatter _ | .scatterAdd _ | .automorph _ | .limbXpose _ | .expand _ | .lift _ | .condition _
  | .signal _ | .wait _ | .fence _ | .paramSet _ | .replay _ | .mark _ => true
  | .replayEntryReadResponse _ data _ => data.length == 128
  | .moverIssueCycle m => m < 48
  | .walkGranuleRead _ data _ => data.length == 64
  | .memoryReadResponse _ data _ _ => data.length ≤ 256
  | .memoryWriteAck _ => true
  | .atomicRmw _ data _ => data.length ≤ 256
  | .descriptorComplete _ | .lensHoldExpiry _ | .streamHalt _ => true
  | .lensStagingGrant g => g < 12
  | .createQueue | .destroyQueue | .enableQueue | .disableQueue | .resetQueue | .modifyQueue | .resumeStream | .abandonStream => true
  | .resumePlacement _ => true
  | .expanderCoreGrant g => g < 12
  | .xofPermutation g core _ => g < 12 && core < 32
  | .liftSlotGrant u | .liftUnitCycle u => u < 16
  | .cpDeliveryTransfer g => g < 12
  | .cpWindowRequest g r => g < 12 && r.wf
  | .cpAixWord g chan vals => g < 12 && chan < 16 && 1 ≤ vals.length && vals.length ≤ 16
  | .bankPortCycle b p _ => b < 64 && p < 2
  | .bankScrub b _ => b < 64
  | .retain p | .retentionEntry p | .wake p | .pairWakeComplete p => p < 32
  | .setOp i f n => i < 32 && f < 2 ^ 12 && n < 2 ^ 16
  | .operatingPointChange i => i < 32
  | .pdAck d st => d < 148 && st < 3
  | .pdAckTimeout d => d < 148
  | .refClockLoss | .refClockReturn => true
  | .atInv p part v | .atTableWrite p part v => p.wf && valueWf part v
  | .invalidationComplete | .atEpochHalving => true
  | .bySignal p part v | .bySet p part v | .byArm p part v | .byDisarm p part v => p.wf && valueWf part v
  | .bySignalRelease p => p.wf
  | .fqDataRead p f | .fqMark p f | .fqRewind p f | .fqRelease p f | .fqMarkRelease p f => p.wf && f < 256
  | .waitLong g => g < 12
  | .linkLock l | .linkLockLoss l | .linkSend l | .linkIdleTimer l | .ackTimeout l | .beaconTimer l => l < 96
  | .lineAckTimer _ => true
  | .lineRetry n | .lineLost n | .busyRetry n => n < 4096
  | .linkIdle l b | .linkData l b | .linkDataMasked l b | .linkAdd l b | .linkSignal l b | .lineAck l b | .beacon l b | .fog l b
  | .nack l b | .close l b | .busy l b => l < 96 && b.wf
  | .restore p l => p.wf && l < 96
  | .memoryPortTimeout p | .mpFailed p | .mpDrained p | .quiesceTimeout p => p < 64
  | .bankPortTimeout b p => b < 64 && p < 2
  | .hmRetireReq p part v => p.wf && valueWf part v
  | .ageingPeriod margins => margins.length ≤ 32 && margins.all (· < 2 ^ 12)
  | .memoryRepairDone mem _ => mem == 0 || (0x10 ≤ mem && mem < 0x1C)
  | .keeperWatchdog | .limitWindowExpiry => true
  | .fatalDumpWritten trap => trap.length ≤ 128
  | .tpLockSet p => p.wf
  | .tpInjArm p part v => p.wf && valueWf part v
  | .tpTgRun port p part v => port.wf && p < 64 && valueWf part v
  | .tgCycle p => p < 64
  | .regAccess _ | .idcode | .wsExtest | .wsIntest | .wsBypass | .bypass => true

end Sys2Proof
end

