-- ==== Sys2Proof/Certificates/Slice0/Obligations.lean ====
section
/-! DEFINITION. The statements about the block, for the provers. Each is a Prop; its docstring names the rules of spec/ that it rests on.
A statement that a command answers `.next t` with `t` written out says the command's effect and its frame at once: every field that `t` does
not change is as before. -/

open Sys2Proof Sys2Proof.Machine

/-! ### The machine as a whole -/

/-- A step is the effect of the command at the front of the queue on the state with the rest of the queue, and an empty queue idles.
Every command has an effect in every state, and none touches the queue of waiting commands: a step always answers a next state and
takes exactly the front command off the queue (R554: an error is a state, never a stop; 04, 15). -/
def Obligations.StepsTakeOneCommandAndAlwaysAnswer : Prop :=
  ((∀ (c : Instr) (rest : List Instr) (s : State), step { s with pending := c :: rest } = exec c { s with pending := rest }) ∧
  (∀ s : State, s.pending = [] → step s = .next s)) ∧
  ((∀ (c : Instr) (s : State), ∃ t, exec c s = .next t ∧ t.pending = s.pending) ∧
  (∀ s : State, ∃ t, step s = .next t ∧ t.pending = s.pending.tail))

/-- While a reset is in effect the block is still: of all commands, only those of the reset inputs and of the TAP change anything
(R509, R527, R589).
Outside mode NORMAL, and outside an abort phase, every command of the datapath and of the registers outside the ID and KP windows
leaves the state as it is (R511, R554, R603).
Once a fatal event is detected, or in an abort phase, nothing is issued and nothing admitted (Table 16-5, step 2; R345). -/
def Obligations.CommandsActOnlyInTheirModes : Prop :=
  (∀ (c : Instr) (s : State), s.rst.inEffect = true → Instr.actsInReset c = false → exec c s = .next s) ∧
  (∀ (c : Instr) (s : State), s.kp.mode ≠ .normal → s.rst.abort = false → Instr.actsInAnyMode c = false → exec c s = .next s) ∧
  (∀ (c : Instr) (s : State), s.kp.fatal.isSome = true ∨ s.rst.abort = true → Instr.issuesWork c = true → exec c s = .next s)

/-- Only a block reset leaves the halt (R554): a command answered in HALTED leaves the mode HALTED, or takes a reset into effect, or begins
the abort phase of a warm reset. -/
def Obligations.OnlyABlockResetLeavesTheHalt : Prop :=
  ∀ (c : Instr) (s t : State), s.kp.mode = .halted → s.kp.fatal.isSome = true → s.rst.abort = false → s.rst.inEffect = false →
    exec c s = .next t → t.kp.mode = .halted ∨ t.rst.inEffect = true ∨ t.rst.abort = true

/-- The window memory and the register files keep their canonical forms under every command, whatever the state: equal memories are equal
data. (The form is the model's own, log entry 3.)
The identities of the descriptors in execution keep rising: no two share one (the model's own, log entry 7).
From a canonical state every run of any length is safe. -/
def Obligations.EveryStepKeepsTheCanonicalForms : Prop :=
  ((∀ (c : Instr) (s t : State), s.canonical = true → exec c s = .next t → t.canonical = true) ∧
  (∀ s t : State, s.canonical = true → step s = .next t → t.canonical = true)) ∧
  ((∀ (c : Instr) (s t : State), s.idsRise = true → exec c s = .next t → t.idsRise = true) ∧
  (∀ s t : State, s.idsRise = true → step s = .next t → t.idsRise = true)) ∧
  (∀ (n : Nat) (s : State), s.canonical = true → SafeRun n s)

/-- The fuse map and the straps hold until the next power-on (R8, R577): no command but POWER_ON_RESET changes them. -/
def Obligations.FusesAndStrapsHoldUntilPowerOn : Prop :=
  ∀ (c : Instr) (s t : State), exec c s = .next t → (∀ f x, c ≠ .powerOnReset f x) → t.die = s.die

/-- The block right after reset: a cold reset is in effect, no command waits, the keeper boots, queue 0 is DISABLED and idle, every register
reads its reset value of Tables 18-3 to 18-14 (an empty register file), no link is up, no buoy holds a value, no descriptor executes, the window
is empty, the state canonical, and the TAP holds IDCODE (R509, R589, R591, R608). The fuses and straps of this state are the model's (log
entry 4). -/
def Obligations.ResetLeavesTheBlockEmpty : Prop :=
  State.reset.rst = { inEffect := true, level := .cold, abort := false } ∧ State.reset.pending = [] ∧ State.reset.kp.mode = .booting ∧
  State.reset.kp.fatal = none ∧ State.reset.kp.log = [] ∧
  (State.reset.queue 0).state = .disabled ∧ (State.reset.queue 0).idle = true ∧ (∀ q, q ≠ 0 → (State.reset.queue q).state = .absent) ∧
  (∀ k, State.reset.reg k = resetOf State.reset.grade k ∧ State.reset.shadow k = resetOf State.reset.grade k ∧
    State.reset.act k = resetOf State.reset.grade k) ∧
  State.reset.act Reg.hmCfg = 0x00010000030A03E8 ∧ State.reset.act Reg.fbCfg = 0xFFF02008020003E8 ∧
  State.reset.act Reg.wbCfg = 0x10 ∧ State.reset.act (Reg.mvCfg 11) = 0x08000008 ∧ State.reset.act (Reg.exCfg 0) = 0x1008 ∧
  (∀ l, (State.reset.link l).state = .down) ∧ (∀ b, State.reset.buoy b = { value := 0, sat := false, poison := false }) ∧
  State.reset.descs = [] ∧ State.reset.reqs = [] ∧ (∀ o, ramByte State.reset.win.ram o = 0) ∧ State.reset.canonical = true ∧ State.reset.idsRise = true ∧
  State.reset.tap.ir = 0x01

/-! ### Resets and the TAP -/

/-- A power-on and a cold reset leave everything as after power-on, but the queue of commands, the fuse map (which a power-on samples), the
TAP and the model's own counters; what the block sends out before it is silent is the request to every power domain to be off (R8, R527,
R589). KP_RESET with LEVEL 1 does so through the host and the debug port. -/
def Obligations.ColdResetsGiveThePowerOnState : Prop :=
  (∀ (f : Fuses) (x : Straps) (s : State), ∃ out, exec (.powerOnReset f x) s = .next { State.reset with
    pending := s.pending, free := s.free, ids := s.ids, out := s.out ++ out, die := { fuses := f, straps := x }, tap := s.tap }) ∧
  (∀ s : State, ¬(s.rst.inEffect = true ∧ s.rst.level = .cold) → ∃ out, exec .coldReset s = .next { State.reset with
    pending := s.pending, free := s.free + 1, ids := s.ids, out := s.out ++ out, die := s.die, tap := s.tap }) ∧
  (∀ (p : Port) (s : State), fromCompute p = false → s.rst.inEffect = false → ∃ out, exec (.kpResetCold p) s = .next { State.reset with
    pending := s.pending, free := s.free + 1, ids := s.ids, out := s.out ++ out, die := s.die, tap := s.tap })

/-- A warm reset input, and KP_RESET with LEVEL 0, begin the abort phase (R345, steps 1 and 2): every destination unit of this chip that a
stream has issued in part is issued to its end (R52), every stream is taken down, nothing more is
fetched or admitted, and the records of R344 are queued for writing, unless the fatal reason is CONTROL_STATE (0x10): then none is.
The end of the abort phase brings the warm reset into effect (R345, step 4). It keeps what Table 15-12 names and nothing else: the
keeper's log, dump, cached list and epoch, the retirement masks (R537), the keeper's code memory (image 0) and the contents of the window
banks (R500); all the rest is as after a cold reset. -/
def Obligations.WarmResetsAbortAndKeepWhatTheTableNames : Prop :=
  (∀ (s : State) (p : Port), s.rst.inEffect = false → s.rst.abort = false → fromCompute p = false →
    (∀ (c : Instr) (origin : Nat), (c = .warmReset ∧ origin = keeperOrigin) ∨ (c = .kpResetWarm p ∧ origin = originOf p) →
      ∃ t, exec c s = .next t ∧ t.rst = { inEffect := false, level := .warm, abort := true } ∧ t.kp.mode = s.kp.mode ∧ t.die = s.die ∧
        t.pending = s.pending ∧
        t = { State.pump { (s.logReset 0 origin).finishUnits with
          rst := { s.rst with abort := true, level := .warm }, qmResults := [], descs := [], fetchOrder := [],
          qmParked := if s.kp.fatal.any (fun f => f.1 == 0x10) then [] else (s.logReset 0 origin).finishUnits.abortRecords,
          queues := (s.logReset 0 origin).finishUnits.queues.map (fun (q : Nat × Queue) => (q.1, { q.2 with chains := [], part := [], halfEntry := none })) } with
          pending := s.pending })) ∧
  (∀ s : State, s.rst.inEffect = false → s.rst.abort = true →
    ∃ t, exec .abortPhaseEnd s = .next t ∧ t.rst = { inEffect := true, level := .warm, abort := false } ∧
      t.kp.log = s.kp.log ∧ t.kp.nextSeq = s.kp.nextSeq ∧ t.kp.dump = s.kp.dump ∧ t.kp.dumpValid = s.kp.dumpValid ∧
      t.kp.cached = s.kp.cached ∧ t.kp.epoch = s.kp.epoch ∧ t.kp.fatal = none ∧ t.kp.mode = .booting ∧
      (∀ k, k ∈ retiredRegs → t.reg k = s.reg k) ∧ (∀ k, k ∉ retiredRegs → t.reg k = resetOf s.grade k) ∧
      t.cfg = State.reset.cfg ∧ t.commit = State.reset.commit ∧ t.queues = State.reset.queues ∧ t.descs = [] ∧ t.reqs = [] ∧
      t.sync = State.reset.sync ∧ t.xl = State.reset.xl ∧ t.fab = Fabric.blank ∧ t.sup = Support.blank ∧ t.cps = [] ∧
      t.win.ram = s.win.ram ∧ t.win.bad = s.win.bad ∧ t.die = s.die ∧ t.tap = s.tap ∧ t.pending = s.pending)

/-- The release of reset starts the boot (R509): after a cold reset with a read of the NOR's SFDP (Table 15-5, steps 1 and 2), and after a
warm reset with the next epoch; a warm reset boots from the cached list, and with none cached it reads the NOR as well (log entry 40). -/
def Obligations.ReleaseStartsTheBoot : Prop :=
  ∀ (s : State) (refClock startup : Bool) (ceilings : List Nat), s.rst.inEffect = true →
    (s.rst.level = .cold → exec (.resetRelease refClock startup ceilings) s = .next { s with
      rst := { inEffect := false, level := .cold, abort := false }, out := s.out ++ [sfdpRead],
      kp := { s.kp with mode := .booting, refClock := refClock, startup := startup, ceilings := ceilings, nextSeq := 0, stage := .sfdp } }) ∧
    (s.rst.level = .warm → s.kp.cached = [] → exec (.resetRelease refClock startup ceilings) s = .next { s with
      rst := { inEffect := false, level := .warm, abort := false }, out := s.out ++ [sfdpRead],
      kp := { s.kp with mode := .booting, refClock := refClock, startup := startup, ceilings := ceilings, nextSeq := 0, stage := .sfdp,
                        epoch := nextEpoch s.kp.epoch } })

/-- The TAP's own commands change the TAP alone: its reset selects IDCODE, IDCODE captures 0x1A57_1F8F, and the wrapper tests work only with
the production lock open and a block reset asserted, and are WS_BYPASS otherwise (R527, R591, R593). What the bypass and boundary cells
capture is a free value of the model: nothing is said of it but that BYPASS holds one bit.
REG_ACCESS (R592): with GO and WRITE it writes all 64 bits of its data at its offset through the debug port; with GO alone it captures
what a read of that register through the debug port returns and changes nothing else (FQ_DATA apart, whose reads have an effect
of their own, R402); without GO it does nothing. -/
def Obligations.TapCommandsChangeTheTapAndReachRegisters : Prop :=
  (∀ s : State,
    exec .tapReset s = .next { s with tap := { ir := 0x01, data := 0, done := true, err := false } } ∧
    exec .idcode s = .next { s with tap := { s.tap with ir := 0x01, data := 0x1A571F8F } } ∧
    (∃ w : Word, w.toNat < 2 ∧ exec .bypass s = .next { s with tap := { s.tap with ir := 0xFF, data := w }, free := s.free + 1 }) ∧
    (∃ w : Word, w.toNat < 2 ^ 32 ∧ exec .wsBypass s = .next { s with tap := { s.tap with ir := 0x12, data := w }, free := s.free + 1 }) ∧
    (∀ c code, (c = Instr.wsExtest ∧ code = 0x10) ∨ (c = Instr.wsIntest ∧ code = 0x11) →
      (s.rst.inEffect = true → s.tpIsLocked = false →
        ∃ w, exec c s = .next { s with tap := { s.tap with ir := code, data := w }, free := s.free + 1 }) ∧
      (s.rst.inEffect = false ∨ s.tpIsLocked = true → exec c s = exec .wsBypass s))) ∧
  (∀ (s : State) (v : Word) (o : BitVec 19), s.rst.inEffect = false → s.tap.done = true →
    exec (.regAccess (dbgWord v o true true)) s = .next { State.pump (s.writeAny .debug (8 * o.toNat) .whole v) with
      pending := s.pending,
      tap := { (State.pump (s.writeAny .debug (8 * o.toNat) .whole v)).tap with ir := 0x20, done := true, err := false } } ∧
    (¬(0x58000 ≤ 8 * o.toNat ∧ 8 * o.toNat < 0x5C000) →
      exec (.regAccess (dbgWord v o false true)) s = .next { s with
        tap := { ir := 0x20, data := s.readReg .debug (8 * o.toNat), done := true, err := false } }) ∧
    (∀ write, exec (.regAccess (dbgWord v o write false)) s = .next { s with tap := { s.tap with ir := 0x20 } }))

/-! ### Boot -/

/-- The keeper's reads of the NOR (R501, R509): with a sound SFDP it takes from the BFPT how the NOR is read and goes on to
the directory, and whatever is the matter with a read, the boot
ends in keeper-only mode with reason NVM (0x01, Table 15-6) and no configuration, under epoch
1 where no epoch record was read (epoch 0 is never issued, R503). -/
def Obligations.NorReadsDriveTheBoot : Prop :=
  ∀ (s : State) (data : Bytes), s.rst.inEffect = false → s.rst.abort = false → s.kp.mode = .booting → s.kp.fatal = none →
    (∀ at', s.kp.stage = .sfdp → bfptAt data = some at' → exec (.nvmTransferComplete true data) s = .next { s with
      kp := { s.kp with stage := .directory, nor := norOf data at' }, out := s.out ++ [(norOf data at').bulk 0 0x1000] }) ∧
    (∀ ok, (ok = false ∧ (s.kp.stage = .sfdp ∨ s.kp.stage = .directory ∨ s.kp.stage = .epochs ∨ ∃ e, s.kp.stage = .list e)) ∨
        (s.kp.stage = .sfdp ∧ bfptAt data = none) →
      ∃ t, exec (.nvmTransferComplete ok data) s = .next t ∧ t.kp.mode = .keeperOnly ∧ t.kp.reason = 0x01 ∧ t.kp.stage = .none ∧
        t.kp.epoch = (if s.kp.epoch = 0 then 1 else s.kp.epoch) ∧
        t.cfg = s.cfg ∧ t.commit = s.commit ∧ t.queues = s.queues ∧ t.win = s.win)

/-- The security port's answer (R523, R582). On a code image in mode NORMAL, a pass ends the CHECK that asked with RESULT 0, or starts the
commit of the APPLY that asked, and a fail is CHECK's code IMAGE (0x0A) and starts no commit. On a light list a fail sends the keeper to the
other slot (R507); with none left the boot ends in keeper-only mode with reason AUTH (0x03).
A job without an answer (R582): the boot ends in keeper-only mode with reason FLOOR (0x07), and a check in mode NORMAL fails with code
IMAGE (0x0A). -/
def Obligations.SecurityAnswersDecideTheJob : Prop :=
  (∀ s : State, s.rst.inEffect = false → s.rst.abort = false → s.kp.fatal = none →
    (∀ origin, s.kp.job = .code false origin → s.kp.mode = .normal → exec (.securityResponse 0) s = .next { s with
      kp := { s.kp with job := .none }, commit := { s.commit with phase := .idle, result := 0 } }) ∧
    (∀ origin, s.kp.job = .code true origin → s.kp.mode = .normal → exec (.securityResponse 0) s = .next { s with
      kp := { s.kp with job := .none }, cfg := { s.cfg with pending := s.cfg.active },
      commit := { s.commit with phase := .prepare, pos := 0, reported := [], origin := origin, result := 0 } }) ∧
    (∀ apply origin, s.kp.job = .code apply origin → s.kp.mode = .normal →
      ∃ t, exec (.securityResponse 1) s = .next t ∧ t.commit = { s.commit with phase := .idle, result := 0x0A } ∧ t.cfg = s.cfg ∧
        t.kp.job = .none ∧ fld (t.reg Reg.cfCheckInfo) 31 24 = 0x0A) ∧
    (∀ e list, s.kp.job = .list → s.kp.stage = .auth e list → s.kp.slots = [] →
      ∃ t, exec (.securityResponse 1) s = .next t ∧ t.kp.mode = .keeperOnly ∧ t.kp.reason = 0x03 ∧ t.cfg = s.cfg) ∧
    (∀ e e' list rest, s.kp.job = .list → s.kp.stage = .auth e list → s.kp.slots = e' :: rest →
      ∃ t, exec (.securityResponse 1) s = .next t ∧ t.kp.stage = .list e' ∧ t.kp.slots = rest ∧ t.kp.mode = s.kp.mode ∧
        t.out = s.out ++ [s.kp.nor.bulk e'.offset e'.length] ∧ t.cfg = s.cfg)) ∧
  (∀ s : State, s.rst.inEffect = false → s.rst.abort = false → s.kp.fatal = none →
    (s.kp.job ≠ .none → s.kp.mode = .booting →
      ∃ t, exec .securityTimeout s = .next t ∧ t.kp.mode = .keeperOnly ∧ t.kp.reason = 0x07 ∧ t.kp.job = .none ∧ t.cfg = s.cfg ∧
        t.commit.phase = .idle) ∧
    (∀ apply origin, s.kp.job = .code apply origin → s.kp.mode = .normal →
      ∃ t, exec .securityTimeout s = .next t ∧ t.commit = { s.commit with phase := .idle, result := 0x0A } ∧ t.cfg = s.cfg ∧
        t.kp.job = .none))

/-! ### Registers and the staged commit -/

/-- A write that acts on nothing changes only the RW, W1C and ST fields of the half or halves that it covers (R597, R598, R607): RW fields and
the shadow copy of ST fields take the value, W1C bits written 1 clear, and every other field, register and part of the state is as
before.
While a commit runs, and in a locked range, the ST fields of a write are refused with REASON BUSY (3) or LOCKED (1): the shadow set is
unchanged, CF_REFUSE_INFO holds ORIGIN, REASON and the offset, CF_EVENT.WRITE_REFUSED is set and a REFUSED record (0x07) is the newest of the
keeper's log; the RW and W1C fields of the same write still take effect (R512, R513, R517, R598). -/
def Obligations.RegisterWritesChangeOnlyCoveredFields : Prop :=
  (∀ (s : State) (p : Port) (off k : Nat) (r : RegRow) (part : Part) (v : Word), normOff off = off → regRow off = some r →
    s.absentReg off = false → s.keyOf p off = some k → tsorted s.regs = true → tsorted s.cfg.shadow = true → s.lockedReg off = false →
    s.commit.phase = .idle →
    let t := s.writeFields p off part v
    t = { s with regs := t.regs, cfg := { s.cfg with shadow := t.cfg.shadow } } ∧
    t.reg k = merge (s.reg k) (partVal part v) (r.rw &&& partMask part) &&& ~~~(partVal part v &&& partMask part &&& r.w1c) ∧
    t.shadow k = merge (s.shadow k) (partVal part v) (r.st &&& partMask part) ∧
    (∀ k', k' ≠ k → t.reg k' = s.reg k' ∧ t.shadow k' = s.shadow k') ∧ tsorted t.regs = true ∧ tsorted t.cfg.shadow = true) ∧
  (∀ (s : State) (p : Port) (off k : Nat) (r : RegRow) (part : Part) (v : Word), normOff off = off → regRow off = some r →
    s.absentReg off = false → s.keyOf p off = some k → r.st &&& partMask part ≠ 0 → off < 2 ^ 24 → fromCompute p = false →
    (∀ reason, (s.lockedReg off = true ∧ reason = 1) ∨ (s.lockedReg off = false ∧ s.commit.phase ≠ .idle ∧ reason = 3) →
      let t := s.writeFields p off part v
      t.cfg = s.cfg ∧ t.commit = s.commit ∧
      t.reg Reg.cfRefuseInfo = BitVec.ofNat 64 (2 ^ 32 * originOf p + 2 ^ 24 * reason + off) ∧ bit (t.reg Reg.cfEvent) 2 = true ∧
      (∃ x, t.kp.log.getLast? = some x ∧ x.kind = 0x07 ∧ x.origin = originOf p ∧ x.object = off) ∧
      (k ∉ [Reg.cfRefuseInfo, Reg.cfEvent, Reg.cfEventCnt, Reg.kpEvent, Reg.kpEventCnt] → tsorted s.regs = true →
        t.reg k = merge (s.reg k) (partVal part v) (r.rw &&& partMask part) &&& ~~~(partVal part v &&& partMask part &&& r.w1c))))

/-- REGISTER_WRITE through the host or debug port (R598, R603): in mode NORMAL a write of a register that acts on nothing changes its fields;
in every mode a write in the KP window does, KP_RESET apart; the queue manager then does what it does of its own after any step. A write
outside the KP window does nothing in another mode.
Registers that start an action on both of their halves act only on a 64-bit write: a 32-bit write of BY_SET, BY_ARM_HI, BY_SIGNAL, AT_INV,
AT_TABLE or, through the host or debug port, CF_IMG_DATA changes nothing (R599). -/
def Obligations.RegisterWritesLandByModeAndWindow : Prop :=
  (∀ (s : State) (p : Port) (off : Nat) (part : Part) (v : Word), s.rst.inEffect = false → fromCompute p = false → normOff off = off →
    ((0x20000 ≤ off ∧ off < 0x30000 ∧ off ≠ Reg.kpReset) ∨
        (¬(0x20000 ≤ off ∧ off < 0x30000) ∧ s.kp.mode = .normal ∧ actingOff off = false) →
      exec (.registerWrite p off part v) s = .next { State.pump (s.writeFields p off part v) with pending := s.pending }) ∧
    (¬(0x20000 ≤ off ∧ off < 0x30000) → s.kp.mode ≠ .normal →
      exec (.registerWrite p off part v) s = .next { State.pump s with pending := s.pending })) ∧
  (∀ (s : State) (p : Port) (part : Part) (v : Word), part ≠ .whole →
    exec (.bySet p part v) s = .next s ∧ exec (.byArm p part v) s = .next s ∧ exec (.bySignal p part v) s = .next s ∧
    exec (.atInv p part v) s = .next s ∧ exec (.atTableWrite p part v) s = .next s ∧
    (fromCompute p = false → exec (.cfImgDataWrite p part v) s = .next s))

/-- CF_IMG_DATA_WRITE (R512, R521): a 64-bit write goes to the word at ADDR of the bank that is not active and advances ADDR; every other word
and the active bank stay. While a commit runs, or on the active bank, it is refused with REASON BUSY (3) or ACTIVE_BANK (2) and changes
no image. -/
def Obligations.ImageWordsGoToTheInactiveBank : Prop :=
  ∀ (s : State) (p : Port) (v : Word), s.normal = true → fromCompute p = false → s.isImage (s.regFld Reg.cfImgSel 7 0) = true →
    let mem := s.regFld Reg.cfImgSel 7 0
    let bank := s.regFld Reg.cfImgSel 8 8
    let n := imageBytes mem / 8
    let i := s.regFld Reg.cfImgAddr 18 3 % n
    (s.commit.phase = .idle → bank ≠ (s.image mem).active → tsorted (s.image mem).words = true →
      ∃ t, exec (.cfImgDataWrite p .whole v) s = .next t ∧
        t = ({ s with images := t.images } : State).setFld Reg.cfImgAddr 18 3 ((i + 1) % n) ∧
        (tget (t.image mem).words (2 ^ 20 * bank + i)).getD 0 = v ∧ (t.image mem).active = (s.image mem).active ∧
        (∀ j, j ≠ 2 ^ 20 * bank + i → tget (t.image mem).words j = tget (s.image mem).words j) ∧
        (∀ m, m ≠ mem → t.image m = s.image m)) ∧
    (∀ reason, (s.commit.phase ≠ .idle ∧ reason = 3) ∨ (s.commit.phase = .idle ∧ bank = (s.image mem).active ∧ reason = 2) →
      ∃ t, exec (.cfImgDataWrite p .whole v) s = .next t ∧ t.images = s.images ∧ t.cfg = s.cfg ∧
        t.reg Reg.cfRefuseInfo = BitVec.ofNat 64 (2 ^ 32 * originOf p + 2 ^ 24 * reason + Reg.cfImgData))

/-- PR_PARAM_WRITE (R121): it changes the covered bits of one parameter register of a queue in DISABLED or ERROR, and nothing else; while the
queue is ENABLED or ABSENT it changes no parameter and sets PR_STAT.REFUSED; a compute port does not reach it (R572). -/
def Obligations.ParameterWritesNeedAStoppedQueue : Prop :=
  ∀ (s : State) (p : Port) (i : Nat) (part : Part) (v : Word), s.normal = true → i < 64 → s.regFld Reg.prQsel 11 0 < s.nQueues →
    let q := s.regFld Reg.prQsel 11 0
    (fromCompute p = false → (s.queue q).state = .disabled ∨ (s.queue q).state = .error → ∀ x, tget s.queues q = some x →
      exec (.prParamWrite p i part v) s = .next { s with
        queues := tput s.queues q { x with params := putParam x.params i (partMask part) (partVal part v) } }) ∧
    (fromCompute p = false → (s.queue q).state = .enabled ∨ (s.queue q).state = .absent →
      ∃ t, exec (.prParamWrite p i part v) s = .next t ∧ t = { s with regs := t.regs } ∧ bit (t.reg Reg.prStat) 0 = true) ∧
    (fromCompute p = true → exec (.prParamWrite p i part v) s = .next s)

/-- CHECK, APPLY and DISCARD in IDLE through the host or debug port (R516, R517, R605). A CHECK that passes and has no code image to verify
records RESULT 0 and changes nothing else; APPLY then sets PHASE to PREPARE with the token at the first island and the pending set equal to
the active one; with a code image the security port is asked first (R523). A failed CHECK, of either command, latches its code and offset,
starts no commit and leaves every configuration set. DISCARD makes every shadow value equal to its active value.
A further operation of CF_CTRL while a commit runs is refused with REASON BUSY (3), and one through a compute port with REASON AUTHORITY
(4): neither changes the configuration, the commit or an image (R512, R517). -/
def Obligations.CheckApplyAndDiscard : Prop :=
  (∀ (s : State) (p : Port), s.normal = true → fromCompute p = false → s.commit.phase = .idle →
    (runCheck s = none → s.swaps.find? (fun x => x.1 == 0) = none →
      exec (.check p) s = .next { s with commit := { s.commit with result := 0 } } ∧
      exec (.apply p) s = .next { s with
        commit := { s.commit with phase := .prepare, pos := 0, reported := [], origin := originOf p, result := 0 },
        cfg := { s.cfg with pending := s.cfg.active } }) ∧
    (∀ m v, runCheck s = none → s.swaps.find? (fun x => x.1 == 0) = some (m, v) →
      exec (.apply p) s = .next { s with
        kp := { s.kp with job := .code true (originOf p) },
        commit := { s.commit with phase := .checking, origin := originOf p },
        out := s.out ++ [.security 2 ((s.image 0).bytes (1 - (s.image 0).active) (fld v 19 0)) []] }) ∧
    (∀ f, runCheck s = some f → f.off < 2 ^ 24 → 0 < f.code → f.code < 2 ^ 8 → f.sel < 2 ^ 16 → f.sel2 < 2 ^ 16 →
      ∀ c, c = Instr.check p ∨ c = Instr.apply p → ∃ t, exec c s = .next t ∧ t.commit = { s.commit with phase := .idle, result := f.code } ∧
        t.cfg = s.cfg ∧ t.images = s.images ∧ fld (t.reg Reg.cfCheckInfo) 31 24 = f.code ∧ fld (t.reg Reg.cfCheckInfo) 23 0 = f.off ∧
        bit (t.reg Reg.cfEvent) 1 = true) ∧
    (∃ t, exec (.discard p) s = .next t ∧ t = { s with cfg := { s.cfg with shadow := s.cfg.active } } ∧ ∀ k, t.shadow k = t.act k)) ∧
  (∀ (s : State) (p : Port) (c : Instr) (reason : Nat), s.normal = true → c = .check p ∨ c = .apply p ∨ c = .discard p →
    (fromCompute p = false ∧ s.commit.phase ≠ .idle ∧ reason = 3) ∨ (fromCompute p = true ∧ reason = 4) →
    ∃ t, exec c s = .next t ∧ t.cfg = s.cfg ∧ t.commit = s.commit ∧ t.images = s.images ∧ t.queues = s.queues ∧
      fld (t.reg Reg.cfRefuseInfo) 31 24 = reason ∧ fld (t.reg Reg.cfRefuseInfo) 23 0 = Reg.cfCtrl ∧ bit (t.reg Reg.cfEvent) 2 = true)

/-- A commit token moves one island at a time in the order of Table 15-9: with PHASE PREPARE it copies the shadow of that island's registers
into the pending set, with PHASE SWITCH it makes the pending set of that island active, and at the control island (30) it starts the next
commit epoch. When the prepare token returns, the old set is kept and the switch token leaves; when the switch token returns, PHASE is RETIRE
and CF_EVENT.COMMITTED is set (R517).
An island with no descriptor of the old epoch reports its retirement once (R517): until every island has reported, only the list of
reports grows; the last report returns PHASE to IDLE with the old and the pending set equal to the active one. An island that still executes an
old descriptor does not report. -/
def Obligations.CommitsMoveIslandByIslandAndRetire : Prop :=
  (∀ s : State, s.normal = true →
    let island := s.tokenOrder.getD s.commit.pos 31
    (s.commit.phase = .prepare → ∃ t, exec .commitTokenArrival s = .next t ∧
      t.cfg = { s.cfg with pending := takeIsland island s.cfg.pending s.cfg.shadow,
                           old := if s.commit.pos + 1 < s.tokenOrder.length then s.cfg.old else s.cfg.active } ∧
      t.commit = (if s.commit.pos + 1 < s.tokenOrder.length then { s.commit with pos := s.commit.pos + 1 }
        else { s.commit with phase := .switch, pos := 0 }) ∧ t.queues = s.queues ∧ t.descs = s.descs) ∧
    (s.commit.phase = .switch → ∃ t, exec .commitTokenArrival s = .next t ∧
      t.cfg = { s.cfg with active := takeIsland island s.cfg.active s.cfg.pending } ∧
      t.commit.epoch = (if island = 30 then (s.commit.epoch + 1) % 2 ^ 32 else s.commit.epoch) ∧
      (s.commit.pos + 1 < s.tokenOrder.length → t.commit.phase = .switch ∧ t.commit.pos = s.commit.pos + 1) ∧
      (s.tokenOrder.length ≤ s.commit.pos + 1 → t.commit.phase = .retire ∧ t.commit.pos = 0))) ∧
  (∀ (s : State) (island : Nat), s.normal = true → s.commit.phase = .retire → island ∈ s.tokenOrder → island ∉ s.commit.reported →
    (s.oldOn island = true → exec (.islandRetireReport island) s = .next s) ∧
    (s.oldOn island = false → (∃ i ∈ s.tokenOrder, i ≠ island ∧ i ∉ s.commit.reported) →
      exec (.islandRetireReport island) s = .next { s with commit := { s.commit with reported := island :: s.commit.reported } }) ∧
    (s.oldOn island = false → (∀ i ∈ s.tokenOrder, i = island ∨ i ∈ s.commit.reported) →
      ∃ t, exec (.islandRetireReport island) s = .next t ∧ t.commit = { s.commit with phase := .idle, reported := [] } ∧
        t.cfg.old = t.cfg.active ∧ t.cfg.pending = t.cfg.active ∧ t.descs = s.descs ∧ t.queues = s.queues))

/-- The commands that report a fatal event (R554, R555; Table 16-5): a commit token that has not come back (0x13) and the keeper's watchdog
(0x12) leave the reason and change nothing else; the first reason stays. When the keeper has written its dump, MODE is HALTED, the dump holds
the reason, DUMPS counts it, and the FATAL record (0x0C) is the newest of the log; queues, configuration, window and descriptors stay. -/
def Obligations.FatalEventsHaltTheBlock : Prop :=
  ∀ s : State, s.rst.inEffect = false → s.kp.mode ≠ .halted →
    (s.kp.fatal = none → exec .keeperWatchdog s = .next { s with kp := { s.kp with fatal := some (0x12, 0) } }) ∧
    (s.kp.fatal = none → s.kp.mode = .normal → s.commit.phase = .prepare ∨ s.commit.phase = .switch →
      exec .commitStall s = .next { s with kp := { s.kp with fatal := some (0x13, 0) } }) ∧
    (∀ f, s.kp.fatal = some f → exec .keeperWatchdog s = .next s ∧ exec .commitStall s = .next s) ∧
    (∀ reason obj trap, s.kp.fatal = some (reason, obj) → ∃ t, exec (.fatalDumpWritten trap) s = .next t ∧ t.kp.mode = .halted ∧
      t.kp.fatal = s.kp.fatal ∧ t.kp.dumpValid = true ∧ t.kp.dumpReason = reason ∧ t.kp.dumpEpoch = s.kp.epoch ∧
      t.kp.dumps = (s.kp.dumps + 1) % 2 ^ 16 ∧ (t.kp.log.getLast?).map LogRec.kind = some 0x0C ∧
      t.queues = s.queues ∧ t.cfg = s.cfg ∧ t.win = s.win ∧ t.descs = s.descs ∧ t.reqs = s.reqs ∧ t.sync = s.sync)

/-! ### Buoys, watches and flash queues -/

/-- BY_SIGNAL without RELEASE where nothing waits or watches (R377, R381, R382, R387): an add raises the named buoy by AMOUNT and nothing else,
one past 0xFFFF_FFFF leaves 0xFFFF_FFFF with SAT and sets BY_EVENT.SATURATED, a subtract lowers it, and a subtract below zero leaves every buoy
and latches BY_UFLOW_INFO. An operation that is refused (unmapped, without authority, OP reserved, poisoned) changes no buoy and sets
BY_EVENT.ARM_REFUSED.
BY_SIGNAL with RELEASE (R387): the operation at the head of its port is performed once the window writes that the port made before it are
done, and until then nothing happens. -/
def Obligations.PortSignalsActOnTheNamedBuoy : Prop :=
  (∀ (s : State) (p : Port) (v : Word), s.normal = true → s.quietSync = true → s.sync.held = [] → bit v 28 = false →
    tsorted s.regs = true →
    (∀ b, s.physOf (fld v 9 0) (fld v 27 16) = some b → s.mayAct p (fld v 9 0) = true → (s.buoy b).poison = false →
      let x := s.buoy b
      let amt := fld v 63 32
      (fld v 14 12 = 0 → x.value + amt ≤ 0xFFFFFFFF →
        exec (.bySignal p .whole v) s = .next (s.setBuoy b { x with value := x.value + amt })) ∧
      (fld v 14 12 = 0 → 0xFFFFFFFF < x.value + amt → ∃ t, exec (.bySignal p .whole v) s = .next t ∧
        t = { s with regs := t.regs, sync := t.sync } ∧ t.buoy b = { x with value := 0xFFFFFFFF, sat := true } ∧
        (∀ b', b' ≠ b → t.buoy b' = s.buoy b') ∧ bit (t.reg Reg.byEvent) 1 = true) ∧
      (fld v 14 12 = 1 → amt ≤ x.value →
        exec (.bySignal p .whole v) s = .next (s.setBuoy b { x with value := x.value - amt })) ∧
      (fld v 14 12 = 1 → x.value < amt → ∃ t, exec (.bySignal p .whole v) s = .next t ∧ t = { s with regs := t.regs } ∧
        t.reg Reg.byUflowInfo = BitVec.ofNat 64 (2 ^ 48 * b + 2 ^ 32 * fld v 27 16 + fld v 9 0) ∧ bit (t.reg Reg.byEvent) 0 = true)) ∧
    (s.physOf (fld v 9 0) (fld v 27 16) = none ∨
        (∃ b, s.physOf (fld v 9 0) (fld v 27 16) = some b ∧
          (s.mayAct p (fld v 9 0) = false ∨ 1 < fld v 14 12 ∨ (s.buoy b).poison = true)) →
      exec (.bySignal p .whole v) s = .next (s.evBy 2))) ∧
  (∀ (s : State) (p : Port) (h : HeldSignal), s.normal = true → s.sync.held = [(copyOf p, [h])] → h.accepted = true → bit h.word 28 = true →
    ((∃ i ∈ h.waits, s.reqs.any (fun r => r.id == i) = true) → exec (.bySignalRelease p) s = .next s) ∧
    ((∀ i ∈ h.waits, s.reqs.any (fun r => r.id == i) = false) → s.quietSync = true →
      ∀ b, s.physOf (fld h.word 9 0) (fld h.word 27 16) = some b → s.mayAct p (fld h.word 9 0) = true → (s.buoy b).poison = false →
        fld h.word 14 12 = 0 → (s.buoy b).value + fld h.word 63 32 ≤ 0xFFFFFFFF →
        exec (.bySignalRelease p) s = .next (({ s with sync := { s.sync with held := [] } } : State).setBuoy b
          { s.buoy b with value := (s.buoy b).value + fld h.word 63 32 })))

/-- BY_SET (R384, R388, R389): through the host or debug port it sets the selected buoy to VALUE, clears its poison and, with CLEAR_SAT, its
SAT flag, sets BY_EVENT.HAND_SET, and the keeper's newest record is HAND_SET (0x06) with the old and new values; no other buoy changes. A
selection that names no buoy changes no buoy and counts as a refusal, and a compute port changes nothing. -/
def Obligations.HandSettingsSetTheSelectedBuoy : Prop :=
  ∀ (s : State) (p : Port) (v : Word), s.normal = true →
    (fromCompute p = true → exec (.bySet p .whole v) s = .next s) ∧
    (fromCompute p = false → s.selBuoy 0 = none → exec (.bySet p .whole v) s = .next (s.evBy 2)) ∧
    (∀ b, fromCompute p = false → s.selBuoy 0 = some b → s.quietSync = true → tsorted s.sync.buoys = true →
      ∃ t, exec (.bySet p .whole v) s = .next t ∧ t = { s with regs := t.regs, sync := t.sync, kp := t.kp, free := t.free } ∧
        t.buoy b = { value := fld v 31 0, sat := (s.buoy b).sat && !bit v 32, poison := false } ∧
        (∀ b', b' ≠ b → t.buoy b' = s.buoy b') ∧ bit (t.reg Reg.byEvent) 3 = true ∧
        (∃ r, t.kp.log.getLast? = some r ∧ r.kind = 0x06 ∧ r.old = word (s.buoy b).value ∧ r.new = word (fld v 31 0) ∧ r.object = b))

/-- BY_ARM (R392, R395 to R398): a command that passes the checks of Table 11-1 arms the lowest free watch under the slot's next generation,
and BY_ARM_RES of the port's copy holds ARMED (0x00) and the handle; nothing else changes where the condition does not hold now. Without
authority (0x10), for an identifier that is unmapped or a flash queue that is disabled or not the context's (0x11), and at the quota (0x12),
no watch changes and the refusal is counted. What HANDLE then holds is a free value of the model.
BY_DISARM (R396, R397): a handle that names an armed watch of a context the port may act for disarms it, with the result DISARMED (0x01) and
the handle; a handle of an earlier generation, of no watch or of another's is STALE (0x13) and changes no watch. -/
def Obligations.WatchesAreArmedAndDisarmed : Prop :=
  (∀ (s : State) (p : Port) (v : Word), s.normal = true → tsorted s.regs = true →
    let lo := s.reg (rkey Reg.byArmLo (copyOf p))
    let ctx := fld lo 9 0
    let cfg := s.act (rkey Reg.fqCfg (fld v 7 0))
    let sound := fun b => bit cfg 63 = true ∧ fld cfg 9 0 = ctx ∧ fld lo 26 24 < 4 ∧ (s.buoy b).poison = false
    (∀ b i, s.mayAct p ctx = true → s.physOf ctx (fld lo 23 12) = some b → sound b → i < s.nWatches → tget s.sync.watches i = none →
      (∀ j, j < i → (tget s.sync.watches j).isSome = true) → s.watchCount ctx < fld (s.act (rkey Reg.byCtxMap ctx)) 46 32 →
      condHolds (fld lo 26 24) (s.buoy b).value (fld lo 63 32) = false →
      let gen := ((tget s.sync.gens i).getD 0 + 1) % 2 ^ 18
      ∃ t, exec (.byArm p .whole v) s = .next t ∧ t = { s with sync := t.sync, regs := t.regs } ∧
        t.sync = { s.sync with
          watches := tput s.sync.watches i { ctx := ctx, ident := fld lo 23 12, phys := b, cond := fld lo 26 24, value := fld lo 63 32,
                                             each := bit lo 27, cookie := fld v 63 32, fq := fld v 7 0 },
          gens := tput s.sync.gens i gen } ∧
        t.reg (rkey Reg.byArmRes (copyOf p)) = word (i + 2 ^ 14 * gen)) ∧
    (∀ code, (s.mayAct p ctx = false ∧ code = 0x10) ∨ (s.mayAct p ctx = true ∧ s.physOf ctx (fld lo 23 12) = none ∧ code = 0x11) ∨
        (∃ b, s.mayAct p ctx = true ∧ s.physOf ctx (fld lo 23 12) = some b ∧ (bit cfg 63 = false ∨ fld cfg 9 0 ≠ ctx) ∧ code = 0x11) ∨
        (∃ b, s.mayAct p ctx = true ∧ s.physOf ctx (fld lo 23 12) = some b ∧ sound b ∧
          fld (s.act (rkey Reg.byCtxMap ctx)) 46 32 ≤ s.watchCount ctx ∧ code = 0x12) →
      ∃ t, exec (.byArm p .whole v) s = .next t ∧ t = { s with regs := t.regs, free := t.free } ∧
        fld (t.reg (rkey Reg.byArmRes (copyOf p))) 39 32 = code ∧ bit (t.reg Reg.byEvent) 2 = true)) ∧
  (∀ (s : State) (p : Port) (v : Word), s.normal = true → tsorted s.regs = true →
    let h := fld v 31 0
    (∀ w, tget s.sync.watches (h % 2 ^ 14) = some w → (tget s.sync.gens (h % 2 ^ 14)).getD 0 = h / 2 ^ 14 → s.mayAct p w.ctx = true →
      s.descs = [] → s.sync.claimants = [] →
      ∃ t, exec (.byDisarm p .whole v) s = .next t ∧ t = { s with sync := t.sync, regs := t.regs } ∧
        t.sync = { s.sync with watches := tdel s.sync.watches (h % 2 ^ 14) } ∧
        t.reg (rkey Reg.byArmRes (copyOf p)) = word (2 ^ 32 + h)) ∧
    (tget s.sync.watches (h % 2 ^ 14) = none ∨
        (∃ w, tget s.sync.watches (h % 2 ^ 14) = some w ∧
          ((tget s.sync.gens (h % 2 ^ 14)).getD 0 ≠ h / 2 ^ 14 ∨ s.mayAct p w.ctx = false)) →
      ∃ t, exec (.byDisarm p .whole v) s = .next t ∧ t = { s with regs := t.regs, free := t.free } ∧
        fld (t.reg (rkey Reg.byArmRes (copyOf p))) 39 32 = 0x13))

/-- The commands of FQ_CTRL (R405, R406): MARK sets the mark to the read position, REWIND the read position to the mark, RELEASE gives the cells
before the mark back and sets the head to the mark, MARK_RELEASE does both; nothing else changes. A port that may not act for the owner
changes no flash queue, and the refusal counts.
FQ_DATA_READ (R402 to R404, R406): a read returns the cell at the read position padded to 64 bytes, with its count of valid bytes as tag,
advances the read position and closes the cell, and frees nothing; with nothing unread it returns the idle word with tag 16 and advances
nothing; a port that may not act for the owner gets zeros. -/
def Obligations.FlashQueueCommandsAndReads : Prop :=
  (∀ (s : State) (p : Port) (f : Nat), s.normal = true → f < 256 →
    let x := s.fq f
    (s.fqReach p f = true →
      exec (.fqMark p f) s = .next (s.setFq f { x with mark := x.rd }) ∧
      exec (.fqRewind p f) s = .next (s.setFq f { x with rd := x.mark }) ∧
      exec (.fqRelease p f) s = .next (s.setFq f { x with cells := x.cells.drop x.mark, rd := x.rd - x.mark, mark := 0 }) ∧
      exec (.fqMarkRelease p f) s = .next (s.setFq f { x with cells := x.cells.drop x.rd, rd := 0, mark := 0 })) ∧
    (s.fqReach p f = false → ∀ c, c ∈ [Instr.fqMark p f, .fqRewind p f, .fqRelease p f, .fqMarkRelease p f] →
      exec c s = .next (s.evBy 2))) ∧
  (∀ (s : State) (p : Port) (f : Nat), s.normal = true → f < 256 → fromCompute p = false →
    let x := s.fq f
    (∀ c, x.cells[x.rd]? = some c → bit (s.act (rkey Reg.fqCfg f)) 63 = true → bit (s.reg Reg.tpInj) 63 = false →
      exec (.fqDataRead p f) s = .next ((s.setFq f { x with
        rd := x.rd + 1, latch := cellBytes c, latchTag := 16 * c.length,
        tailOpen := x.tailOpen && x.rd + 1 != x.cells.length }).emit (.regRsp p (cellBytes c) (16 * c.length)))) ∧
    (x.cells[x.rd]? = none → exec (.fqDataRead p f) s =
      .next ((s.setFq f { x with latch := s.idleWord f, latchTag := 16 }).emit (.regRsp p (s.idleWord f) 16))) ∧
    (∀ g, s.fqReach (.compute g) f = false → ∃ t, exec (.fqDataRead (.compute g) f) s = .next t ∧ t.sync = s.sync ∧
      t.out = s.out ++ [.regRsp (.compute g) (zeros 64) 0] ∧ bit (t.reg Reg.byEvent) 2 = true))

/-- WAIT_LONG (R412): the report of a group that waits and of which no stream is ready, with reporting enabled and none sent since its last wake,
sets its REPORTED bit, offers the bank pairs it lends (unless LC_RETAIN holds them for a latency-critical queue) and sends one message to the
power manager; a second report, and one while a stream is ready, does nothing. -/
def Obligations.LongWaitsAreReportedOnce : Prop :=
  ∀ (s : State) (g : Nat), s.normal = true → g < 12 → bit (s.act (Reg.byLendCfg g)) 63 = true →
    (s.inGroup g).any (fun d => d.phase == .waiting && d.waits.any (fun w => !w.met)) = true →
    (bit (s.reg Reg.byLendStat) g = true ∨ (s.inGroup g).any s.isReady = true → exec (.waitLong g) s = .next s) ∧
    (bit (s.reg Reg.byLendStat) g = false → (s.inGroup g).any s.isReady = false → ∃ t, exec (.waitLong g) s = .next t ∧
      t = { s with regs := t.regs, win := { s.win with pairs := t.win.pairs }, out := t.out } ∧ bit (t.reg Reg.byLendStat) g = true ∧
      (∃ m, t.out = s.out ++ [.power m]) ∧
      (bit (s.act (Reg.byLendCfg g)) 48 = false → ∀ p, p ∈ s.lendPairs g → t.pair p = { s.pair p with offered := true }) ∧
      (∀ p, p ∉ s.lendPairs g → t.pair p = s.pair p))

/-! ### Translation -/

/-- AT_INV (R365, R366): an accepted request counts in ISSUED, takes every cached range of its tag (or every range) out of every level, cancels the
walks of the tag, and waits for what was issued under the tag; ranges and walks of other tags stay. With sixteen pending it is refused with
AT_EVENT.INV_REFUSED and changes nothing else. A compute port does not reach it.
INVALIDATION_COMPLETE (R366, R368): the oldest pending invalidation completes once nothing that it waits for is outstanding, and counts; until
then nothing happens. -/
def Obligations.InvalidationsEmptyTheCachesOfTheirTag : Prop :=
  (∀ (s : State) (p : Port) (v : Word), s.normal = true → tsorted s.regs = true →
    (fromCompute p = true → exec (.atInv p .whole v) s = .next s) ∧
    (fromCompute p = false → 16 ≤ s.xl.invs.length → exec (.atInv p .whole v) s = .next (s.evAt 2)) ∧
    (fromCompute p = false → s.xl.invs.length < 16 →
      let mine := fun t => bit v 63 = true ∨ t = fld v 11 0
      ∃ t, exec (.atInv p .whole v) s = .next t ∧ t.regFld Reg.atInvStat 31 0 = (s.regFld Reg.atInvStat 31 0 + 1) % 2 ^ 32 ∧
        (∀ e ∈ t.xl.l0 ++ t.xl.l1, ∀ r ∈ e.2, ¬mine r.tag) ∧ (∀ r ∈ t.xl.l2, ¬mine r.tag) ∧
        (∀ r ∈ s.xl.l2, ¬mine r.tag → r ∈ t.xl.l2) ∧
        (∀ w ∈ t.xl.walks, mine w.tag → w.cancelled = true) ∧ (∀ w ∈ s.xl.walks, ¬mine w.tag → w ∈ t.xl.walks) ∧
        (∃ i, t.xl.invs = s.xl.invs ++ [i] ∧ i.tag = (if bit v 63 then none else some (fld v 11 0))) ∧
        t.win = s.win ∧ t.reqs = s.reqs ∧ t.queues = s.queues ∧ t.cfg = s.cfg)) ∧
  (∀ (s : State) (i : Inv) (rest : List Inv), s.normal = true → s.xl.invs = i :: rest →
    (i.waits.any s.isOut = true → exec .invalidationComplete s = .next s) ∧
    (i.waits.any s.isOut = false → exec .invalidationComplete s =
      .next (({ s with xl := { s.xl with invs := rest } } : State).bump Reg.atInvStat 63 32)))

/-- AT_TABLE_WRITE (R354) changes the table word of the tag that AT_SEL selects and nothing else, and AT_EPOCH_HALVING (R371) halves every access
counter, AT_HOT bits apart, unless EPOCH_US is 0.
WALK_GRANULE_READ (R362, R363, R366): a granule ends its walk with what it shows, a range that covers the address and is present, MISS, not
present, TABLE with AT_EVENT.TABLE_ERROR, or a data error, and the requester keeps the result; or the walk goes on in a smaller part of the table
with the read of its next granule. A cancelled walk ends without a result. -/
def Obligations.TablesWalksAndAccessCounters : Prop :=
  (∀ s : State, s.normal = true → tsorted s.regs = true →
    (∀ (p : Port) (v : Word), fromCompute p = false → s.regFld Reg.atSel 27 16 < s.nContexts →
      let k := rkey Reg.atTable (s.regFld Reg.atSel 27 16)
      ∃ t, exec (.atTableWrite p .whole v) s = .next t ∧ t = { s with regs := t.regs } ∧
        t.reg k = merge (s.reg k) v 0x1FFFFFFFFFFFFFC0 ∧ (∀ k', k' ≠ k → t.reg k' = s.reg k')) ∧
    (fld (s.act Reg.atHotCfg) 15 0 = 0 → exec .atEpochHalving s = .next s) ∧
    (fld (s.act Reg.atHotCfg) 15 0 ≠ 0 → ∃ t, exec .atEpochHalving s = .next t ∧ t = { s with regs := t.regs } ∧
      (∀ k, k % 2 ^ 24 = Reg.atCntVal → fld (t.reg k) 31 0 = fld (s.reg k) 31 0 / 2) ∧
      (∀ k, k % 2 ^ 24 ≠ Reg.atCntVal → t.reg k = s.reg k))) ∧
  (∀ (s : State) (w : Nat) (r : MemReq) (x : Walk) (data : Bytes) (err : Bool), s.serving = true →
    s.reqs.find? (fun r => r.owner == .walk w && r.answerable) = some r → s.xl.walks.find? (fun x => x.id == w) = some x →
    r.result data = data → r.failed err = err →
    let after := fun u => exec (.walkGranuleRead w data err) s = .next { State.pump (State.startWalkers u) with pending := s.pending }
    (x.cancelled = true → after (((s.passOn r).dropReq r.id).dropWalk w)) ∧
    (∀ did d res, x.cancelled = false → x.did = some did → s.desc did = some d →
      (err = true ∧ res = .data) ∨ (err = false ∧ s.bisect x data = .inl res) →
      ∃ u d', after u ∧ u.desc did = some d' ∧ d'.results = (resultKey x.tag x.va, res) :: d.results ∧
        u.xl.walks = s.xl.walks.filter (fun y => y.id != w) ∧ u.reqs = ((s.passOn r).dropReq r.id).reqs ∧
        (res = .table → bit (u.reg Reg.atEvent) 1 = true) ∧ (∀ rg, res = .found rg → rg.covers x.va = true ∧ rg.present = true) ∧
        ((∀ rg, res ≠ .found rg) → u.xl.l0 = s.xl.l0 ∧ u.xl.l1 = s.xl.l1 ∧ u.xl.l2 = s.xl.l2)) ∧
    (∀ x' dest, err = false → x.cancelled = false → s.bisect x data = .inr x' → x.count ≠ 0 → s.granuleOk (x.base + 64 * x'.granule) = true →
      s.routePa (x.base + 64 * x'.granule) = some dest → (x.lo < x'.lo ∨ x'.hi < x.hi) ∧
        ∃ u q, after u ∧ u.reqs = ((s.passOn r).dropReq r.id).reqs ++ [q] ∧ q.kind = .read ∧ q.pa = x.base + 64 * x'.granule ∧ q.len = 64 ∧
          q.owner = .walk w ∧ u.descs = s.descs))

/-! ### Test window -/

/-- TP_LOCK_SET (R547): a write of SET locks the TP window until a block reset, and the keeper's newest record is HEALTH (0x0D) with the
register's offset; a compute port does not reach it. While it is locked, TP_INJ_ARM changes no injection; unlocked it writes the register and
starts the counts of passed and injected accesses again (R549). Both are recorded. -/
def Obligations.LockedTestRegistersStayAsTheyAre : Prop :=
  ∀ (s : State) (p : Port), s.normal = true →
    (fromCompute p = true → exec (.tpLockSet p) s = .next s ∧ ∀ part v, exec (.tpInjArm p part v) s = .next s) ∧
    (fromCompute p = false → ∃ t, exec (.tpLockSet p) s = .next t ∧ t.sup = { s.sup with tpLocked := true } ∧ t.tpIsLocked = true ∧
      t = { s with sup := t.sup, regs := t.regs, kp := t.kp, free := t.free } ∧
      (∃ r, t.kp.log.getLast? = some r ∧ r.kind = 0x0D ∧ r.object = Reg.tpLock)) ∧
    (∀ part v, fromCompute p = false → s.tpIsLocked = true → ∃ t, exec (.tpInjArm p part v) s = .next t ∧ t.sup = s.sup ∧
      t.reg Reg.tpInj = s.reg Reg.tpInj ∧ (∃ r, t.kp.log.getLast? = some r ∧ r.kind = 0x0D ∧ r.object = Reg.tpInj)) ∧
    (∀ v, fromCompute p = false → s.tpIsLocked = false → tsorted s.regs = true → ∃ t, exec (.tpInjArm p .whole v) s = .next t ∧
      t.sup = { s.sup with injSkipped := 0, injDone := 0 } ∧
      (∀ r, regRow Reg.tpInj = some r → t.reg Reg.tpInj = merge (s.reg Reg.tpInj) v r.rw) ∧
      (∃ r, t.kp.log.getLast? = some r ∧ r.kind = 0x0D ∧ r.object = Reg.tpInj))

/-- TP_TG_RUN (R551): setting RUN while a tenant queue exists is refused: RUN reads 0, REFUSED reads 1, and no generator starts. With none, RUN is
set, REFUSED clears, and a generator that did not run starts its range anew with no address latched.
TG_CYCLE (R552, R553): a running generator under OP 0 or 1 issues one request of 128 bytes at its next address of the range; a write carries
the pattern under its seed, and nothing but its requests and its position changes. One that does not run does nothing. -/
def Obligations.GeneratorsRunWithoutTenants : Prop :=
  (∀ (s : State) (port : Port) (p : Nat) (part : Part) (v : Word), s.normal = true → fromCompute port = false → p < 64 →
    bit (partMask part) 63 = true → bit (partVal part v) 63 = true → tsorted s.regs = true →
    (s.tenants = true → ∃ t, exec (.tpTgRun port p part v) s = .next t ∧ t.sup = s.sup ∧
      bit (t.reg (Reg.tpTgCtrl p)) 63 = false ∧ bit (t.reg (Reg.tpTgCtrl p)) 62 = true ∧ t.reqs = s.reqs ∧ t.queues = s.queues) ∧
    (s.tenants = false → bit (s.reg (Reg.tpTgCtrl p)) 63 = false → ∃ t, exec (.tpTgRun port p part v) s = .next t ∧
      t.sup = { s.sup with tg := tput s.sup.tg p { next := 0, count := 0, readPass := false, erred := false } } ∧
      bit (t.reg (Reg.tpTgCtrl p)) 63 = true ∧ bit (t.reg (Reg.tpTgCtrl p)) 62 = false ∧ t.reg (Reg.tpTgErr p) = 0 ∧
      t.reqs = s.reqs ∧ t.queues = s.queues)) ∧
  (∀ (s : State) (c : AdminCmd) (rest : List AdminCmd), s.issuing = true → s.admin.cmds = c :: rest → c.begun = false →
    s.reqs.any (fun r => match r.owner with | .rcd d _ => d == 0 | _ => false) = false → leAt c.entry 0 1 = 0x40 → s.tgRuns = true →
    s.createCheck c.entry ≠ none ∧
    (s.adminGate c.entry (fun x => x.state == .absent) = none → leAt c.entry 32 8 % 128 = 0 → leAt c.entry 40 8 % 64 = 0 →
      leAt c.entry 48 8 % 256 = 0 → s.hasGroup (leAt c.entry 20 1) = true → s.createRange c.entry none = none →
      bit (s.act (rkey Reg.cfCtxRing (leAt c.entry 18 2))) 15 = true →
      exec .createQueue s = .next { State.pump (State.pumpReplays (s.adminRecord c 0x13 (fieldWord 16))) with pending := s.pending })) ∧
  (∀ (s : State) (p : Nat), s.issuing = true →
    (bit (s.reg (Reg.tpTgCtrl p)) 63 = false → exec (.tgCycle p) s = .next s) ∧
    (∀ g o last dest, bit (s.reg (Reg.tpTgCtrl p)) 63 = true → fld (s.reg (Reg.tpTgCtrl p)) 61 60 < 2 → tget s.sup.tg p = some g →
      s.tgNext p g = some (o, last) → s.routePa (s.tgRange.1 + o) = some dest → (s.reqs.filter (fun r => r.dest == dest)).length < 256 →
      ∃ t r, exec (.tgCycle p) s = .next t ∧ t = { s with reqs := s.reqs ++ [r], ids := s.ids + 1, sup := { s.sup with tg := t.sup.tg } } ∧
        r.dest = dest ∧ r.pa = s.tgRange.1 + o ∧ r.len = 128 ∧ r.owner = .tg p ∧
        (fld (s.reg (Reg.tpTgCtrl p)) 61 60 = 0 → r.kind = .read) ∧
        (fld (s.reg (Reg.tpTgCtrl p)) 61 60 = 1 → r.kind = .write ∧ r.data = tgData r.pa (fld (s.reg (Reg.tpTgCtrl p)) 31 0))))

/-- The pattern of the traffic generators (R553): word i of the 128 bytes at address a under seed s is the value of `tg_word`, in 64-bit
arithmetic that wraps. A generator writes it, and each answered request counts in REQUESTS; a read that differs from it, or is poisoned, counts
in MISMATCHES, which saturates, and the first such address is latched in TP_TG_ERR until RUN is next set. -/
def Obligations.GeneratorPatternIsTgWord : Prop :=
  (∀ (a : Nat) (seed : BitVec 32) (i : Nat), a + 128 ≤ 2 ^ 64 → i < 16 →
    let x : BitVec 64 := BitVec.ofNat 64 (a + 8 * i) ^^^ (seed.setWidth 64 <<< 32)
    let y : BitVec 64 := x * 0x9E3779B97F4A7C15
    wordAt (tgData a seed.toNat) i = y ^^^ (y >>> 29)) ∧
  (∀ (s : State) (p : Nat) (g : TrafficGen) (o : Nat) (last : Bool) (dest : Dest), s.issuing = true → bit (s.reg (Reg.tpTgCtrl p)) 63 = true →
    tgReads (s.reg (Reg.tpTgCtrl p)) g = false → tget s.sup.tg p = some g → s.tgNext p g = some (o, last) →
    s.routePa (s.tgRange.1 + o) = some dest → (s.reqs.filter (fun r => r.dest == dest)).length < 256 →
    ∃ t r, exec (.tgCycle p) s = .next t ∧ t.reqs = s.reqs ++ [r] ∧ r.kind = .write ∧
      r.data = tgData (s.tgRange.1 + o) (fld (s.reg (Reg.tpTgCtrl p)) 31 0)) ∧
  (∀ (s : State) (i p : Nat) (r : MemReq) (g : TrafficGen), s.normal = true → s.req i = some r → r.owner = .tg p → p < 64 → r.toBank = false →
    r.held = false → s.inTurn r = true → bit (s.reg Reg.tpInj) 63 = false → fld (s.act Reg.hmCfg) 31 24 = 0 → tsorted s.regs = true →
    tget s.sup.tg p = some g →
    let st := Reg.tpTgStat p
    (∀ data poison, r.kind = .read →
      let wrong := poison || fitTo 128 data != tgData r.pa (fld (s.reg (Reg.tpTgCtrl p)) 31 0)
      ∃ u, exec (.memoryReadResponse i data poison false) s =
          .next { State.wakeReady (State.pump (State.settleCores (State.pumpReplays u))) with pending := s.pending } ∧
        u.reqs = ((s.passOn r).dropReq r.id).reqs ∧ u.regFld st 47 0 = (s.regFld st 47 0 + 1) % 2 ^ 48 ∧
        u.regFld st 63 48 = (if wrong then min (s.regFld st 63 48 + 1) 0xFFFF else s.regFld st 63 48) ∧
        (wrong = true → g.erred = false → u.reg (Reg.tpTgErr p) = word r.pa) ∧
        (wrong = false ∨ g.erred = true → u.reg (Reg.tpTgErr p) = s.reg (Reg.tpTgErr p))) ∧
    (r.kind = .write → r.posted = false → ∃ u, exec (.memoryWriteAck i) s =
      .next { State.pump (State.pumpReplays u) with pending := s.pending } ∧ u.regFld st 47 0 = (s.regFld st 47 0 + 1) % 2 ^ 48 ∧
        u.regFld st 63 48 = s.regFld st 63 48))

/-! ### Power, clocks and reliability -/

/-- SET_OP and the change at a quiet point (R29, R546, R583, R584): the request holds the lower of the asked frequency and the island's limit,
rounded down to a multiple of 25 MHz, replaces one not answered, and a frequency above the limit sets HM_EVENT.AGE_CLAMP; an island that is not
there or a frequency out of range changes nothing. The change writes the frequency to HM_AGE.CURRENT_MHZ, answers with one message and takes the
request off.
AGEING_PERIOD (R545): each datapath island's reading goes to HM_AGE.MARGIN_PS; one below the guard band lowers the island's ceiling by STEP_MHZ,
not below 1800 MHz, counts a re-plan, sets HM_EVENT.REPLAN and reports to the power manager; at or above it the ceiling stays. -/
def Obligations.OperatingPointsFollowRequestsAndAgeing : Prop :=
  (∀ (s : State) (i freq n : Nat), s.normal = true → tsorted s.regs = true →
    (i ∈ s.datapath → 1800 ≤ freq → freq ≤ 0xFFF → n ≤ 0xFFFF → ∃ t, exec (.setOp i freq n) s = .next t ∧
      t.sup = { s.sup with ops := tput s.sup.ops i { freq := mhz25 (min freq (s.opLimit i)), seq := n } } ∧
      (freq ≤ s.opLimit i → t.regs = s.regs) ∧ (s.opLimit i < freq → bit (t.reg Reg.hmEvent) 4 = true) ∧
      t = { s with sup := t.sup, regs := t.regs }) ∧
    (i ∉ s.datapath ∨ freq < 1800 ∨ 0xFFF < freq ∨ 0xFFFF < n → exec (.setOp i freq n) s = .next s) ∧
    (∀ r, tget s.sup.ops i = some r → ∃ t, exec (.operatingPointChange i) s = .next t ∧
      fld (t.reg (Reg.hmAge i)) 43 32 = min r.freq (mhz25 (s.opLimit i)) % 2 ^ 12 ∧
      t.sup = { s.sup with ops := tdel s.sup.ops i } ∧ (∃ m, t.out = s.out ++ [.power m]) ∧
      (∀ k, k ≠ Reg.hmAge i → t.reg k = s.reg k) ∧ t = { s with sup := t.sup, regs := t.regs, out := t.out })) ∧
  ((∀ (s : State) (margins : List Nat), s.issuing = true → bit (s.reg Reg.tpInj) 63 = false →
    exec (.ageingPeriod margins) s = .next { (s.datapath.foldl (fun s i => match margins[i]? with
      | some m => s.readMargin i m
      | none => s) s).afterRetire with pending := s.pending }) ∧
  (∀ (s : State) (i m : Nat), i < 32 → m < 2 ^ 12 → tsorted s.regs = true →
    (s.actFld Reg.hmAgeCfg 15 8 ≤ m → fld ((s.readMargin i m).reg (Reg.hmAge i)) 11 0 = m ∧
      fld ((s.readMargin i m).reg (Reg.hmAge i)) 55 44 = fld (s.reg (Reg.hmAge i)) 55 44 ∧
      (∀ k, k ≠ Reg.hmAge i → (s.readMargin i m).reg k = s.reg k) ∧ (s.readMargin i m).out = s.out) ∧
    (m < s.actFld Reg.hmAgeCfg 15 8 → 1800 + s.actFld Reg.hmAgeCfg 7 0 ≤ fld (s.reg (Reg.hmAge i)) 55 44 →
      fld ((s.readMargin i m).reg (Reg.hmAge i)) 11 0 = m ∧
      fld ((s.readMargin i m).reg (Reg.hmAge i)) 55 44 = fld (s.reg (Reg.hmAge i)) 55 44 - s.actFld Reg.hmAgeCfg 7 0 ∧
      bit ((s.readMargin i m).reg Reg.hmEvent) 3 = true ∧ ∃ x, (s.readMargin i m).out = s.out ++ [.power x])))

/-- PD_ACK and PD_ACK_TIMEOUT (R586): a switch that reports the state asked for is recorded as having reached it, a report of another state or of
one already reached changes nothing. In mode NORMAL, outside the bank pairs, what waits for the domain goes on. A switch that stays out retires
the units of its domain; one that has reported does not.
The reference clock (R587): lost, every generator goes into holdover; back, it leaves it. Nothing else changes. -/
def Obligations.PowerSwitchesAndClocksAreReported : Prop :=
  (∀ (s : State) (d st : Nat) (x : Domain), s.rst.inEffect = false → tget s.sup.domains d = some x →
    (x.got = st ∨ x.want ≠ st → exec (.pdAck d st) s = .next s) ∧
    (x.got ≠ st → x.want = st → s.kp.mode ≠ .normal →
      exec (.pdAck d st) s = .next { s with sup := { s.sup with domains := tput s.sup.domains d { x with got := st } } }) ∧
    (x.got ≠ st → x.want = st → s.kp.mode = .normal → ¬(88 ≤ d ∧ d < 120) →
      exec (.pdAck d st) s = .next { State.pump (State.createAgain { s with
        sup := { s.sup with domains := tput s.sup.domains d { x with got := st } } }) with pending := s.pending }) ∧
    (x.want = x.got → exec (.pdAckTimeout d) s = .next s) ∧
    (x.want ≠ x.got → s.kp.mode = .normal → ∀ u v, domainUnits d = [(u, v)] → s.hasUnit u v = true →
      (∃ k b, retiredBit u v = (k, b) ∧ bit ((s.retire u v).reg k) b = true) ∧
      exec (.pdAckTimeout d) s = .next { (s.retire u v).afterRetire with pending := s.pending })) ∧
  (∀ s : State, s.rst.inEffect = false →
    exec .refClockLoss s = .next { s with sup := { s.sup with holdover := true } } ∧
    exec .refClockReturn s = .next { s with sup := { s.sup with holdover := false } })

/-- A memory port fails (R540; Table 17-6, step 1): on the controller's word, or when a request has waited too long, a present port whose handshake
has not begun starts it: the block asks to quiesce it and sets HM_EVENT.PORT_FAILED; a timeout with nothing outstanding, an absent port and a
handshake in progress change nothing.
The end of the handshake (R541; Table 17-6): a drained port is retired and its accesses move to its partner in their order; a handshake that
does not end retires both ports of the pair and loses what was outstanding on them. A port that is not being quiesced is left alone. -/
def Obligations.FailedMemoryPortsAreQuiescedAndRetired : Prop :=
  (∀ (s : State) (p : Nat), s.normal = true →
    (s.hasMport p = true → tget s.sup.ports p = none →
      (∀ c, c = Instr.mpFailed p ∨ (c = Instr.memoryPortTimeout p ∧ s.reqs.any (fun r => r.onPort p && !r.held) = true) →
        exec c s = .next ((State.evHm { s with sup := { s.sup with ports := tput s.sup.ports p .quiescing } } 2).emit (.quiesce p)))) ∧
    (s.hasMport p = false ∨ (tget s.sup.ports p).isSome = true →
      exec (.mpFailed p) s = .next s ∧ exec (.memoryPortTimeout p) s = .next s) ∧
    (s.reqs.any (fun r => r.onPort p && !r.held) = false → exec (.memoryPortTimeout p) s = .next s)) ∧
  (∀ (s : State) (p : Nat), s.normal = true →
    (tget s.sup.ports p ≠ some .quiescing → exec (.mpDrained p) s = .next s ∧ exec (.quiesceTimeout p) s = .next s) ∧
    (tget s.sup.ports p = some .quiescing → p < 64 →
      let u := ({ s with sup := { s.sup with ports := tput s.sup.ports p .drained } } : State)
      let one := u.retire 6 p
      let both := one.retire 6 (partner p)
      (s.hasMport p = true → bit (one.reg Reg.hmRetiredMport) p = true) ∧ one.hasMport p = false ∧
      (s.hasMport (partner p) = true → bit (both.reg Reg.hmRetiredMport) (partner p) = true) ∧ one.reqs = s.reqs ∧ both.reqs = s.reqs ∧
      exec (.mpDrained p) s = .next { (((s.reqs.filter (fun r => r.onPort p)).foldl State.movePort one).afterRetire) with
        pending := s.pending } ∧
      exec (.quiesceTimeout p) s = .next { (((s.reqs.filter (fun r => r.onPort p || r.onPort (partner p))).foldl
        (fun s r => s.lostAccess r 1) both).afterRetire) with pending := s.pending }))

/-- BANK_PORT_TIMEOUT (R542): a bank port that leaves an accepted access without an answer is recorded in HM_FAILED_BPORT with HM_EVENT.PORT_FAILED,
its partner carries every access from then on, and its outstanding alias writes and read-modify-writes end with an error; a port with nothing to
answer does not fail. -/
def Obligations.FailedBankPortsHandOver : Prop :=
  ∀ (s : State) (b p : Nat), s.normal = true → b < 64 → p < 2 →
    (s.bankReady b p = [] ∨ s.hasBank b = false → exec (.bankPortTimeout b p) s = .next s) ∧
    (s.bankReady b p ≠ [] → s.hasBank b = true → tget s.sup.bankPortBad b = none →
      let u := (State.setReg { s with sup := { s.sup with bankPortBad := tput s.sup.bankPortBad b p } } Reg.hmFailedBport
        (putBit (s.reg Reg.hmFailedBport) b true)).evHm 2
      bit (u.reg Reg.hmFailedBport) b = true ∧ bit (u.reg Reg.hmEvent) 2 = true ∧
      (∀ m, u.bankPortOf b m = 1 - p) ∧
      exec (.bankPortTimeout b p) s = .next { State.pump ((((s.reqs.filter (fun r => r.waitsAt b && s.bankPortOf b r.master == p &&
        r.modifies)).foldl (fun s r => s.lostAccess r 1) u).settleCores).pumpReplays) with pending := s.pending })

/-- HM_RETIRE_REQ (R536): it retires the unit it names, whose bit in the HM_RETIRED registers is then set; a request that names an absent or retired
unit or a reserved KIND sets HM_EVENT.REQ_IGNORED and changes nothing else; a compute port does not reach it.
The counts against the limits of HM_CFG start again at each WINDOW_MS, and nothing else does (R536); in between, an error in a unit's store
counts in its window, and the count that reaches CE_LIMIT, unless that is 0, retires the unit. -/
def Obligations.UnitsAreRetiredByRequestAndByErrors : Prop :=
  (∀ (s : State) (p : Port) (v : Word), s.normal = true →
    let kind := fld v 15 8
    let i := fld v 7 0
    (fromCompute p = true → exec (.hmRetireReq p .whole v) s = .next s) ∧
    (fromCompute p = false → ¬(1 ≤ kind ∧ kind ≤ 7 ∧ s.hasUnit kind i = true) → exec (.hmRetireReq p .whole v) s = .next (s.evHm 5)) ∧
    (fromCompute p = false → 1 ≤ kind → kind ≤ 7 → s.hasUnit kind i = true →
      bit ((s.retire kind i).reg (retiredBit kind i).1) (retiredBit kind i).2 = true ∧ (s.retire kind i).hasUnit kind i = false ∧
      exec (.hmRetireReq p .whole v) s = .next { (s.retire kind i).afterRetire with pending := s.pending })) ∧
  (∀ s : State, s.normal = true →
    exec .limitWindowExpiry s = .next { s with sup := { s.sup with ceWin := [], ueWin := [] } } ∧
    (∀ store unit kind i, unitOfStore store unit = some (kind, i) →
      let n := (tget s.sup.ceWin (kind * 256 + i)).getD 0 + 1
      let u := ({ s with sup := { s.sup with ceWin := tput s.sup.ceWin (kind * 256 + i) n } } : State)
      s.limitCheck store unit false =
        (if fld (s.act Reg.hmCfg) 63 32 ≠ 0 ∧ fld (s.act Reg.hmCfg) 63 32 ≤ n then u.retire kind i else u)))

/-- MEMORY_REPAIR_DONE (R535): words that the light list in force covers and that read back sound are right again, and nothing else changes;
otherwise an error in the keeper's code memory (0) is fatal with reason KEEPER_CODE (0x11), and one in a pattern memory retires its group. With no
damaged word there is nothing to do. -/
def Obligations.RepairsEndWithSoundWordsOrRetirement : Prop :=
  ∀ (s : State) (mem : Nat) (ok : Bool), s.normal = true →
    let im := s.image mem
    let held := im.damaged.all (fun k => imageCovers s.kp.list mem (8 * (k % 2 ^ 20)) (leAt s.kp.list 12 4) 64)
    let u := ({ s with images := tput s.images mem { im with damaged := [] } } : State)
    (im.damaged = [] → exec (.memoryRepairDone mem ok) s = .next s) ∧
    (im.damaged ≠ [] → (ok && held) = true → exec (.memoryRepairDone mem ok) s = .next u) ∧
    (im.damaged ≠ [] → (ok && held) = false → mem = 0 → s.kp.fatal = none →
      exec (.memoryRepairDone mem ok) s = .next { u with kp := { s.kp with fatal := some (0x11, 0) } }) ∧
    (im.damaged ≠ [] → (ok && held) = false → 0x10 ≤ mem →
      exec (.memoryRepairDone mem ok) s = .next { (u.retire 2 (mem - 0x10)).afterRetire with pending := s.pending })

/-! ### Window banks -/

/-- What a write leaves in the window memory: the enabled bytes of its data at its span, every other byte as before, in the canonical form.
BANK_PORT_CYCLE and BANK_SCRUB (R484, R486, R487, R491, R493, R494, R496, R498, R532). The one access that waits at a port of a bank whose pair is
on, and that its region check lets through, takes effect: a write puts its enabled bytes into the window and nothing else, a read takes the bytes
it names, and a read-modify-write or an alias write leaves its new bytes and keeps its port for a second cycle, in which nothing else happens. An
access that collides with the other port is held, counts and asserts the busy pin of its compute port. A failed region check latches master and
offset with WB_EVENT.REFUSED and ends the access; a pair in retention starts to wake and keeps it waiting; a port with nothing to serve changes
nothing. A clean scrub step moves to the next granule of the bank and changes nothing else. -/
def Obligations.BankAccessesReadAndWriteTheWindow : Prop :=
  (∀ (ram : List Host.Cell) (o : Nat) (data : Bytes) (en : List Bool), Memory.wf ram = true →
    Memory.wf (ramWrite ram o data en) = true ∧
    (∀ i, (h : i < data.length) → en[i]? = some true → ramByte (ramWrite ram o data en) (o + i) = data[i]) ∧
    (∀ a, (a < o ∨ o + data.length ≤ a ∨ en[a - o]? ≠ some true) → ramByte (ramWrite ram o data en) a = ramByte ram a)) ∧
  (∀ (s : State) (b p : Nat) (ecc : Ecc), s.normal = true → p < 2 →
    ((tget s.win.rmws (2 * b + p)).isSome = true → exec (.bankPortCycle b p ecc) s = .next { s with
      win := { s.win with rmws := tdel s.win.rmws (2 * b + p) } }) ∧
    (s.bankReady b p = [] → tget s.win.rmws (2 * b + p) = none → exec (.bankPortCycle b p ecc) s = .next s) ∧
    (∀ r, s.bankReady b p = [r] → tget s.win.rmws (2 * b + p) = none → s.hasBank b = true →
      let o := r.pa - windowBase
      let old := ramRead s.win.ram o r.len
      let ok := s.regionOk r.master (s.checkSpan r).1 (s.checkSpan r).2 r.kind
      let after := fun (e : Ecc) (u : State) => exec (.bankPortCycle b p e) s = .next { State.wakeReady (State.pump (State.pumpReplays
        (State.settleCores (State.settlePair u (b / 2))))) with pending := s.pending }
      ∃ d, let s1 := ({ s with drr := d } : State)
        (ok = false → after ecc ((s1.regionRefuse r.master o r.kind).lostAccess r 5)) ∧
        (ok = true → (s.pair (b / 2)).state = .retention → after ecc ((s1.wakePair (b / 2)).busyPin r)) ∧
        (ok = true → (s.pair (b / 2)).state = .on → s.portHeld b p r = true → after ecc ((s1.bump Reg.wbConflicts 31 0).busyPin r)) ∧
        (ok = true → (s.pair (b / 2)).state = .on → s.portHeld b p r = false → bit (s.reg Reg.tpInj) 63 = false → s.win.bad = [] →
          (r.kind = .read → after .clean (s1.bankRead r old false)) ∧
          (r.kind = .write → after .clean
            ((({ s1 with win := { s.win with ram := ramWrite s.win.ram o r.data r.enables } } : State).addReplaced r 0).writeDone r)) ∧
          (r.kind = .aliasSet ∨ r.kind = .aliasClear → after .clean
            ((({ s1 with win := { s.win with ram := ramWrite s.win.ram o (List.zipWith (aliasByte r.kind) old r.data) r.enables,
                                             rmws := tput s.win.rmws (2 * b + p) (r.pa, r.len) } } : State).addReplaced r 0).writeDone r)) ∧
          (r.kind = .rmw → after .clean
            ((({ s1 with win := { s.win with ram := ramWrite s.win.ram o (r.sumOf old).1 r.enables,
                                             rmws := tput s.win.rmws (2 * b + p) (r.pa, r.len) } } : State).addReplaced r
              (r.sumOf old).2).writeDone r)))) ∧
    (s.hasBank b = true → s.reqs.any (fun r => r.waitsAt b && s.bankPortOf b r.master != 0) = false → (s.pair (b / 2)).state = .on →
      bit (s.reg Reg.tpInj) 63 = false → s.win.bad = [] → exec (.bankScrub b .clean) s = .next { s with
        win := { s.win with scrub := tput s.win.scrub b (((tget s.win.scrub b).getD 0 + 1) % (s.bankBytes / 64)) } }) ∧
    (s.hasBank b = false ∨ (s.pair (b / 2)).state ≠ .on → exec (.bankScrub b ecc) s = .next s))

/-- Retention (R495, R496): the block accepts a RETAIN only of a pair that is offered, and refuses and counts any other; an accepted pair enters
retention only when no access waits at its banks; a pair in retention wakes on WAKE, with its contents as they were, and is on when its power
switch has reported on. -/
def Obligations.RetentionFollowsOfferAndWake : Prop :=
  ∀ (s : State) (p : Nat), s.normal = true → p < 32 →
    let x := s.pair p
    (x.offered = true → x.state = .on ∨ x.state = .waking → exec (.retain p) s = .next (s.setPair p { x with retaining := true })) ∧
    (x.offered = false ∨ x.state = .off → exec (.retain p) s =
      .next (((s.bump (Reg.wbPairStat p) 31 16).evWb 2).retainDone p false)) ∧
    (x.retaining = true → x.state = .on → s.pairBusy p = false → exec (.retentionEntry p) s =
      .next ((s.setPair p { x with state := .retention, retaining := false }).pdAsk (pairDomain p) 2)) ∧
    (x.retaining = false ∨ x.state ≠ .on ∨ s.pairBusy p = true → exec (.retentionEntry p) s = .next s) ∧
    (x.state = .retention → exec (.wake p) s =
      .next (((s.setPair p { x with state := .waking }).bump (Reg.wbPairStat p) 63 32).pdAsk (pairDomain p) 1)) ∧
    (x.state ≠ .retention → exec (.wake p) s = .next s) ∧
    (∀ d, tget s.sup.domains (pairDomain p) = some d →
      (x.state = .waking → d.got = 1 → exec (.pairWakeComplete p) s = .next ((s.setPair p { x with state := .on }).pmSend 0x86 (2 ^ 8 * p))) ∧
      (x.state ≠ .waking ∨ d.got ≠ 1 → exec (.pairWakeComplete p) s = .next s))

/-! ### Compute ports -/

/-- CP_AIX_WORD and CP_WINDOW_REQUEST (R290, R569, R570, R573): an address word with a credit adds its indices to its channel and takes the credit
(and wakes a reported group of which it makes a stream ready, R413), one without is discarded; a write in one bank issues accesses that cover its span with its data and owes one response, and a request outside the
window or over a bank's end is refused with ERR 1 and issues nothing. -/
def Obligations.ComputePortsQueueIndicesAndRequests : Prop :=
  ∀ (s : State) (g : Nat), s.normal = true → s.hasPort g = true →
    (∀ c vals, c < 16 → vals ≠ [] → vals.length ≤ 16 →
      let ch := (s.cport g).chan c
      (0 < ch.credits → exec (.cpAixWord g c vals) s = .next { State.wakeReady (s.setChan g c { ch with
        idx := ch.idx ++ vals.map BitVec.toInt, words := ch.words ++ [vals.length], credits := ch.credits - 1 }) with
        pending := s.pending }) ∧
      (ch.credits = 0 → exec (.cpAixWord g c vals) s = .next s)) ∧
    (∀ r : CpReq, 1 ≤ r.len → r.len ≤ 16 →
      (windowAddr (r.addr.toNat / 64 * 64) r.write = none ∨
          (∃ k o, windowAddr (r.addr.toNat / 64 * 64) r.write = some (k, o) ∧ s.requestBank o (64 * r.len) = none) →
        (s.cport g).rsps = [] → ∃ data, exec (.cpWindowRequest g r) s = .next { s with
          ids := s.ids + 1, cps := tput s.cps g { s.cport g with rsps := [] }, out := s.out ++ [.windowRsp g r.tag.toNat data true] }) ∧
      (∀ k o dest, windowAddr (r.addr.toNat / 64 * 64) r.write = some (k, o) → s.requestBank o (64 * r.len) = some dest → r.write = true →
        ∃ t, exec (.cpWindowRequest g r) s = .next t ∧ t.win = s.win ∧ t.out = s.out ∧ t.queues = s.queues ∧ t.descs = s.descs ∧
          (∃ rsp, (t.cport g).rsps = (s.cport g).rsps ++ [rsp] ∧ rsp.tag = r.tag.toNat ∧ rsp.write = true ∧ rsp.err = false) ∧
          (∃ rs, t.reqs = s.reqs ++ rs ∧ rs ≠ [] ∧ (rs.map MemReq.len).sum = 64 * r.len ∧
            ∀ q ∈ rs, q.kind = k ∧ q.dest = dest ∧ q.master = g ∧ windowBase + o ≤ q.pa ∧ q.pa + q.len ≤ windowBase + o + 64 * r.len)))

/-- CP_DELIVERY_TRANSFER (R429, R566): the rest of a unit that has begun goes out in one transfer of up to sixteen slots, in its order, the port's
read-ahead buffer is empty after it, and with nothing to deliver nothing happens. -/
def Obligations.DeliveriesSendTheUnitInOrder : Prop :=
  ∀ (s : State) (g did : Nat), s.normal = true →
    ((s.cport g).dlv = [] → (s.cport g).mid = none → exec (.cpDeliveryTransfer g) s = .next s) ∧
    (∀ slots : List Slot, (s.cport g).mid = some did → (s.cport g).dlv = slots.map (fun x => (did, x)) → unitSlots slots = slots → slots ≠ [] →
      slots.length ≤ 16 → (slots.getLast?).any (·.last) = true →
      ∃ d, exec (.cpDeliveryTransfer g) s = .next { State.pump (State.settleCores (State.freeIdx (State.runAllLate
        ((({ s with drr := d } : State).setCport g { s.cport g with dlv := [], mid := none, ahead := [] }).emit (.delivery g slots))) did)) with
        pending := s.pending })

/-! ### Queue manager -/

/-- The registers of the admin queue (R331): QM_ADMIN_RING takes a write only while ENABLE is 0 and the queue is idle; setting ENABLE enables
queue 0 with the ring and index block of the registers, its indices at START the first time, and asks for its index block; clearing it asks for
a last read of the index block. Setting it before that read has returned enables the queue again. Setting it again, and a write of a compute port, change nothing.
DOORBELL (R317): a doorbell of an ENABLED queue counts, asks for the index block and ends IDLE; one of a queue that is ABSENT or beyond the die,
or of the admin queue once ENABLE is 0, counts as ignored; the debug port does not reach the aperture. -/
def Obligations.QueueZeroRegistersAndDoorbells : Prop :=
  (∀ (s : State) (p : Port), s.normal = true → fromCompute p = false →
    let x := s.queue 0
    (∀ part v, s.adminOpen = false → exec (.qmAdminRingWrite p part v) s = .next s) ∧
    (∀ v, s.adminOpen = true → tsorted s.regs = true → 4 ≤ fld v 51 48 → fld v 51 48 ≤ 12 → ∃ t, exec (.qmAdminRingWrite p .whole v) s = .next t ∧
      t = { s with regs := t.regs } ∧ fld (t.reg Reg.qmAdminRing) 51 48 = fld v 51 48 ∧ fld (t.reg Reg.qmAdminRing) 43 7 = fld v 43 7 ∧
      ∀ k, k ≠ Reg.qmAdminRing → t.reg k = s.reg k) ∧
    (x.state = .enabled → x.lastRead = false → exec (.qmAdminEnable p) s = .next s) ∧
    (x.state ≠ .enabled ∨ x.lastRead = true → ∃ u y, exec (.qmAdminEnable p) s = .next { State.pump u with pending := s.pending } ∧
      u = { s with queues := tput s.queues 0 y, admin := { s.admin with fresh := false }, fetchOrder := u.fetchOrder } ∧ 0 ∈ u.fetchOrder ∧
      y.state = .enabled ∧ y.lastRead = false ∧ y.idxAgain = true ∧ y.log2 = s.regFld Reg.qmAdminRing 51 48 ∧ y.ring = s.regFld Reg.qmAdminRing 43 7 * 128 ∧
      y.idx = s.regFld Reg.qmAdminIdx 43 6 * 64 ∧
      (s.admin.fresh = true → y.pr = s.regFld Reg.qmAdminIdx 63 44 ∧ y.cons = y.pr ∧ y.next = y.pr) ∧
      (s.admin.fresh = false → y.pr = x.pr ∧ y.cons = x.cons ∧ y.next = x.next)) ∧
    (x.state = .enabled → x.lastRead = false → ∃ u, exec (.qmAdminDisable p) s = .next { State.pump u with pending := s.pending } ∧
      u = { s with queues := tput s.queues 0 { x with lastRead := true, idxAgain := true }, fetchOrder := u.fetchOrder }) ∧
    (x.state ≠ .enabled → exec (.qmAdminDisable p) s = .next s)) ∧
  (∀ (s : State) (q : Nat), s.issuing = true → tsorted s.queues = true →
    (∀ p x, p ≠ .debug → q < s.nQueues → tget s.queues q = some x → x.state = .enabled → (q = 0 → x.lastRead = false) →
      ∃ u, exec (.doorbell p q) s = .next { State.pump u with pending := s.pending } ∧
        u.queue q = { x with idxAgain := true, idle := false } ∧ q ∈ u.fetchOrder ∧ u.descs = s.descs ∧ u.reqs = s.reqs ∧ u.cfg = s.cfg ∧
        ∀ q', q' ≠ q → u.queue q' = s.queue q') ∧
    (∀ p, p ≠ .debug → s.nQueues ≤ q ∨ (s.queue q).state = .absent →
      exec (.doorbell p q) s = .next { State.pump (s.evQm 1) with pending := s.pending }) ∧
    (∀ p, p ≠ .debug → (s.queue 0).state = .enabled → (s.queue 0).lastRead = true → 0 < s.nQueues →
      exec (.doorbell p 0) s = .next { State.pump ((s.evQm 1).bump (rkey Reg.qmQcnt 0) 15 0) with pending := s.pending }) ∧
    (exec (.doorbell .debug q) s = .next s))

/-- INDEX_BLOCK_READ_RESPONSE on a doorbell-bounded queue (R319, R335, R339): the queue manager takes a PRODUCER value p for a ring of 2^k
entries exactly when the advance over the highest accepted value pr and the entries owned since the consumer index c, each modulo 2^32,
together fit the ring; a value that is taken becomes the highest accepted index. Any other is a ring overrun: it puts a tenant queue into
ERROR with reason 1 and that PRODUCER, and is fatal with reason 0x03 for the admin queue. -/
def Obligations.ProducersAreAcceptedWithinTheRing : Prop :=
  (∀ (p pr c : BitVec 32) (k : Nat),
    acceptProducer p.toNat pr.toNat c.toNat k = (if (p - pr).toNat + (pr - c).toNat ≤ 2 ^ k then some p.toNat else none)) ∧
  (∀ (s : State) (q : Nat), s.issuing = true → tsorted s.queues = true →
    (∀ r x data, s.reqs.find? (fun r => r.owner == .idx q && r.answerable) = some r → r.failed false = false → r.result data = data →
      tget s.queues q = some x → x.state = .enabled → x.lastRead = false → s.boundedQ q = true →
      ∃ u, exec (.indexBlockReadResponse q data false) s = .next { State.pump u with pending := s.pending } ∧
        u.reqs = ((s.passOn r).dropReq r.id).reqs ∧
        (∀ p, acceptProducer (leAt data 0 4) x.pr x.cons x.log2 = some p → (u.queue q).pr = p ∧ (u.queue q).cons = x.cons ∧
          (u.queue q).state = .enabled ∧ (u.queue q).idxOut = false ∧ u.kp = s.kp) ∧
        (acceptProducer (leAt data 0 4) x.pr x.cons x.log2 = none →
          (q = 0 → u.kp.fatal = some (0x03, leAt data 0 4)) ∧
          (q ≠ 0 → (u.queue q).state = .error ∧ (u.queue q).errReason = 1 ∧ (u.queue q).errIndex = leAt data 0 4 ∧ (u.queue q).pr = x.pr))))

/-- ENTRY_READ_RESPONSE (R316, R335, R339): a framed entry that ends its chain, with no fault that its reading tells, joins the chains that wait for
admission and the next index follows; an entry of a tenant queue that fails framing puts the queue into ERROR with reason 2 and its index; one of the
admin queue is fatal with reason 0x01; an entry that cannot be read puts a tenant queue into ERROR with reason 3.
REPLAY_ENTRY_READ_RESPONSE (R126, R613): an entry of a recorded group that cannot be read ends the REPLAY with DATA_CHECK (0x30) and the entry's
address; one that breaks the framing of its group ends the group with a descriptor of status MALFORMED (0x10); a middle entry of a chain joins it. -/
def Obligations.EntriesAreFramedIntoChains : Prop :=
  (∀ (s : State) (q i : Nat) (r : MemReq) (x : Queue) (data : Bytes), s.issuing = true → tsorted s.queues = true → tget s.queues q = some x →
    x.entOut = some i → x.entStale = false → s.reqs.find? (fun r => r.owner == .ent q i && r.answerable) = some r → r.result data = data → r.failed false = false →
    x.state = .enabled → s.boundedQ q = true → x.part = [] → i < 2 ^ 32 →
    (framed x i data = true → hLast (headOf data) = true → q ≠ 0 → (fetchStatus [data]).1 = 0 → marked [data] = false →
      ∃ u, exec (.entryReadResponse q data false) s = .next { State.pump u with pending := s.pending } ∧
        (u.queue q).chains = x.chains ++ [{ first := i, entries := [data], stamp := s.ids, waited := false }] ∧
        (u.queue q).next = idxAdd i 1 ∧ (u.queue q).entOut = none ∧ (u.queue q).state = .enabled ∧ u.descs = s.descs ∧ u.win = s.win) ∧
    (framed x i data = false → q ≠ 0 → x.coversIdx i = true →
      ∃ u, exec (.entryReadResponse q data false) s = .next { State.pump u with pending := s.pending } ∧
        (u.queue q).state = .error ∧ (u.queue q).errReason = 2 ∧ (u.queue q).errIndex = i ∧ (u.queue q).chains = x.chains ∧ u.descs = s.descs) ∧
    (framed x i data = false → q = 0 → ∃ u, exec (.entryReadResponse q data false) s = .next { State.pump u with pending := s.pending } ∧
      u.kp.fatal = some (0x01, i) ∧ u.descs = s.descs) ∧
    (q ≠ 0 → x.coversIdx i = true → r.failed true = true → ∃ u, exec (.entryReadResponse q data true) s = .next { State.pump u with pending := s.pending } ∧
      (u.queue q).state = .error ∧ (u.queue q).errReason = 3 ∧ (u.queue q).errIndex = i)) ∧
  (∀ (s : State) (d : Desc) (r : MemReq) (data : Bytes), s.issuing = true → s.desc d.id = some d →
    s.reqs.find? (fun r => r.owner == .replayEnt d.id && r.answerable) = some r → r.result data = data → r.failed false = false →
    d.replayStatus = 0 →
    let after := fun err u => exec (.replayEntryReadResponse d.id data err) s =
      .next { State.pump (State.pumpReplays u) with pending := s.pending }
    (r.failed true = true → ∃ u d', after true u ∧ u.desc d.id = some d' ∧ d'.replayEnded = true ∧ d'.replayStatus = 0x30 ∧
      d'.replayWord1 = word (d.groupBase + 128 * (d.replayEnt + d.replayPart.length)) ∧ d'.replayOut = false) ∧
    (recordedOk d data = false → ∃ u e, after false u ∧ e ∈ u.descs ∧ e.parent = some d.id ∧ e.status = 0x10 ∧ e.phase = .finishing) ∧
    (recordedOk d data = true → hLast (headOf data) = false → ∃ u d', after false u ∧ u.desc d.id = some d' ∧
      d'.replayPart = d.replayPart ++ [data] ∧ d'.replayOut = false ∧ u.descs.length = s.descs.length))

/-- The queue commands of the admin queue (R333 to R338, R610, Table 9-3). The command at the head of the list, with no record of the one before it
outstanding, that its checks refuse ends with its status and no side effect. One that passes has the effect of its row: the queue is enabled
and its index block read, asked for its last read, gone, back at START_INDEX with its parameters cleared, or of the new weight and class; with its
domains on, a created queue has the fields of its entry. Then the queue manager goes on. -/
def Obligations.AdminCommandsChangeTheirQueue : Prop :=
  ∀ (s : State) (c : AdminCmd) (rest : List AdminCmd), s.issuing = true → s.admin.cmds = c :: rest → c.begun = false →
    s.reqs.any (fun r => match r.owner with | .rcd d _ => d == 0 | _ => false) = false →
    let q := leAt c.entry 16 2
    let code := leAt c.entry 0 1
    let after := fun (i : Instr) (u : State) => exec i s = .next { State.pump (State.pumpReplays u) with pending := s.pending }
    (∀ i st w, (i, code, s.createCheck c.entry) = (Instr.createQueue, 0x40, some (st, w)) ∨
        (i, code, s.adminGate c.entry Queue.quiet) = (.destroyQueue, 0x41, some (st, w)) ∨
        (i, code, s.adminGate c.entry (fun x => x.state == .disabled)) = (.enableQueue, 0x42, some (st, w)) ∨
        (i, code, s.disableCheck c.entry) = (.disableQueue, 0x43, some (st, w)) ∨
        (i, code, s.adminGate c.entry Queue.quiet) = (.resetQueue, 0x44, some (st, w)) ∨
        (i, code, s.modifyCheck c.entry) = (.modifyQueue, 0x45, some (st, w)) ∨
        (i, code, s.haltedCheck c.entry) = (.resumeStream, 0x46, some (st, w)) ∨
        (i, code, s.haltedCheck c.entry) = (.abandonStream, 0x47, some (st, w)) → after i (s.adminRecord c st w)) ∧
    (∀ x, tget s.queues q = some x → tsorted s.queues = true →
      (code = 0x41 → s.adminGate c.entry Queue.quiet = none → ∃ u, after .destroyQueue u ∧ (u.queue q).state = .absent) ∧
      (code = 0x42 → s.adminGate c.entry (fun x => x.state == .disabled) = none → ∃ u, after .enableQueue u ∧
        (u.queue q).state = .enabled ∧ (u.queue q).idxAgain = true ∧ (u.queue q).pr = x.pr ∧ (u.queue q).cons = x.cons) ∧
      (code = 0x43 → s.disableCheck c.entry = none → ∃ u, after .disableQueue u ∧
        u.queue q = { x with lastRead := true, idxAgain := true,
                             idleSig := if nbit (leAt c.entry 24 8) 15 then some (word (leAt c.entry 24 8)) else none }) ∧
      (code = 0x44 → s.adminGate c.entry Queue.quiet = none → ∃ u, after .resetQueue u ∧ u.queue q = resetQueueTo (leAt c.entry 28 4) x) ∧
      (code = 0x45 → s.modifyCheck c.entry = none → ∃ u, after .modifyQueue u ∧ u.queue q = { x with
        weight := leAt c.entry 22 1, bulk := if nbit (leAt c.entry 25 1) 0 then leAt c.entry 21 1 == 1 else x.bulk })) ∧
    (code = 0x40 → s.createCheck c.entry = none →
      ((s.adminWait.settleDomains.groupDomains (leAt c.entry 20 1) ++ s.adminWait.settleDomains.liftDomains).all
        s.adminWait.settleDomains.domainOn) = true →
      ∃ u, after .createQueue u ∧ (u.queue q).ring = leAt c.entry 32 8 ∧ (u.queue q).ctx = leAt c.entry 18 2 ∧
        (u.queue q).cons = leAt c.entry 28 4 ∧ (u.queue q).log2 = leAt c.entry 24 1 ∧ (u.queue q).weight = leAt c.entry 22 1)

/-- STREAM_HALT (R294, R298, R301): a stream that has met a fault goes on as it is while an access of it is outstanding or something before
the fault can still be written; then it halts: it gives up its slot and lift slot, keeps its staging only as a whole-limb stream that HOLD_US
holds, and its saved-position record is written to its place in the save area.
RESUME_STREAM, ABANDON_STREAM and RESUME_PLACEMENT (R278, R281, R302, R303, R305). A resume reads the saved-position record of the halted stream; an
abandon ends the stream with PROTECTION (0x21) and its fault's address; a resumed stream in its turn runs again on the mover that R278 picks, from
its saved position, in the current commit epoch; one that halted before it had begun begins there. -/
def Obligations.StreamsHaltResumeAndEnd : Prop :=
  (∀ (s : State) (d : Desc), s.issuing = true → s.desc d.id = some d → d.phase = .faulted →
    let g := s.groupOf d.queue
    let hold := d.geo.wholeLimb && d.staged && fld (s.act (Reg.lnCfg g)) 9 0 != 0
    (s.streamOut d.id = true ∨ s.blocked d = false → exec (.streamHalt d.id) s = .next { State.pump s with pending := s.pending }) ∧
    (∀ dest, s.streamOut d.id = false → s.blocked d = true → tsorted s.regs = true →
      s.routePa ((s.queue d.queue).save + 256 * d.recIdx) = some dest →
      ∃ u r d', exec (.streamHalt d.id) s = .next { State.pump u with pending := s.pending } ∧ u.reqs = s.reqs ++ [r] ∧ r.kind = .write ∧
        r.dest = dest ∧ r.pa = (s.queue d.queue).save + 256 * d.recIdx ∧ r.len = 256 ∧ r.data = s.saveRecord { d with holdLeft := hold } ∧
        r.owner = .save d.id ∧ u.desc d.id = some d' ∧ d'.phase = .saving ∧ d'.mover = none ∧ d'.liftSlot = none ∧ d'.staged = hold ∧
        d'.pos = d.pos ∧ d'.geo = d.geo ∧ d'.recIdx = d.recIdx ∧ u.win = s.win ∧ u.queues = s.queues ∧ u.sync = s.sync ∧
        fld (u.reg (Reg.mvCnt g)) 47 32 = (fld (s.reg (Reg.mvCnt g)) 47 32 + 1) % 2 ^ 16)) ∧
  ((∀ (s : State) (c : AdminCmd) (rest : List AdminCmd) (d : Desc) (dest : Dest), s.issuing = true → s.admin.cmds = c :: rest → c.begun = false →
    s.reqs.any (fun r => match r.owner with | .rcd d _ => d == 0 | _ => false) = false → s.haltedCheck c.entry = none →
    s.haltedAtSlot (leAt c.entry 16 2) (leAt c.entry 28 4) = [d] → opcodeOf d.entries ≠ 0x0E →
    (leAt c.entry 0 1 = 0x46 → s.routePa ((s.queue d.queue).save + 256 * d.recIdx) = some dest →
      ∃ u r, exec .resumeStream s = .next { State.pump (State.pumpReplays u) with pending := s.pending } ∧ u.reqs = s.reqs ++ [r] ∧
        r.pa = (s.queue d.queue).save + 256 * d.recIdx ∧ r.len = 256 ∧ r.kind = .read ∧ r.owner = .saveRead d.id ∧ u.descs = s.descs) ∧
    (leAt c.entry 0 1 = 0x47 → d.chan = none → s.desc d.id = some d →
      ∃ u d', exec .abandonStream s = .next { State.pump (State.pumpReplays u) with pending := s.pending } ∧ u.desc d.id = some d' ∧
        d'.phase = .finishing ∧ d'.status = 0x21 ∧ d'.word1 = word ((d.fault.map (·.va)).getD 0) ∧ d'.staged = false)) ∧
  (∀ (s : State) (d : Desc) (m : Nat), s.issuing = true → s.desc d.id = some d → d.phase = .resuming → d.resumeStamp ≠ 0 →
    s.hasGroup (s.groupOf d.queue) = true → s.resumeTurn d = true → s.pickMover (s.groupOf d.queue) = some m →
    ∃ u d', exec (.resumePlacement d.id) s = .next { State.wakeReady (State.pump (State.settleCores u)) with pending := s.pending } ∧
      u.desc d.id = some d' ∧ d'.mover = some m ∧ d'.pos = d.pos ∧ d'.fault = none ∧ d'.geo = d.geo ∧ u.win = s.win ∧
      (d.began = true → d'.phase = .running ∧ d'.epoch = s.commit.epoch ∧ d'.began = true) ∧
      (d.began = false → d'.phase = .ready ∧ d'.began = false)))

/-! ### Descriptors -/

/-- ADMIT (R97, R276, R278, R279, R281, R298, R376): the requests for a slot take their places; the next chain of a queue that names an unmapped
identifier ends with STATE_CONFLICT at its admission; a descriptor that needs no slot is admitted with its waits and signals resolved, off the
chains of its queue; a data descriptor is admitted in its turn with a slot of the mover that R278 picks and a record index below the queue's
stream limit; with no chain to place nothing else changes. -/
def Obligations.AdmissionTakesTheNextChain : Prop :=
  ∀ (s : State) (q : Nat), s.issuing = true → bit (s.reg Reg.tpInj) 63 = false → s.idsRise = true →
    let w := s.stampRequests
    let after := fun u => exec (.admission q) s = .next { State.pump (State.pumpReplays u) with pending := s.pending }
    (w.nextAdm q = none → after w) ∧
    (∀ a st x, w.nextAdm q = some a → w.admitFail q a.entries = some (st, x) → ∃ u d, after u ∧ d ∈ u.descs ∧ d.id = (w.takeAdm a).ids ∧
      d.phase = .finishing ∧ d.status = st ∧ d.word1 = x ∧ d.entries = a.entries ∧ u.win = s.win) ∧
    (∀ a, w.nextAdm q = some a → w.admitFail q a.entries = none → waitsIn a.entries = [] → isStream a.entries = false → a.parent = none →
      bit (s.reg Reg.byLendStat) (s.groupOf q) = false → ∃ u d, after u ∧ u.descs = w.descs ++ [d] ∧ d.queue = q ∧ d.first = a.first ∧
        d.entries = a.entries ∧ d.phase = .ready ∧ d.mover = none ∧ d.waits = [] ∧ u.win = s.win) ∧
    (∀ a m, w.nextAdm q = some a → w.admitFail q a.entries = none → waitsIn a.entries = [] → isStream a.entries = true → a.parent = none →
      s.hasGroup (s.groupOf q) = true → w.slotTurn a = true → w.pickMover (s.groupOf q) = some m →
      bit (s.reg Reg.byLendStat) (s.groupOf q) = false → ∃ u d, after u ∧ u.descs = w.descs ++ [d] ∧ d.queue = q ∧ d.entries = a.entries ∧
        d.phase = .ready ∧ d.mover = some m ∧ d.recIdx < (s.queue q).limit ∧
        ((s.queue q).limit ≤ noRecord → ∀ e ∈ s.descs, e.queue = q → e.recIdx ≠ d.recIdx))

/-- The control descriptors NOP, SIGNAL, WAIT, MARK, FENCE, PARAM_SET and REPLAY begin when their turn has come (R90, R98 to R102, R119, R123,
R130, R384, R440, R538): one that is MALFORMED ends so, one of a retired group ends with ABSENT_UNIT (0x12), one that fails another check with
the check's status and word, one whose predicate holds is skipped, one whose predicate's buoy is poisoned ends with DATA_CHECK; else NOP, SIGNAL,
WAIT and MARK are done with their work, a FENCE is done when its condition holds and waits otherwise, a PARAM_SET sets its queue's parameters, and
a REPLAY runs. A FENCE with RELEASE 1 whose condition holds behind a remote write that was lost ends with LINK_LOST (log entry 123). Nothing else
changes. -/
def Obligations.ControlDescriptorsBeginInTurn : Prop :=
  ∀ (s : State) (d : Desc), s.issuing = true → s.desc d.id = some d → s.mayBegin d = true →
    let op := opcodeOf d.entries
    let chk := Sys2Proof.Machine.beginControl d.entries (s.param d.queue)
    let next := ({ s with ids := s.ids + 1 } : State)
    let lost := hRelease (headOf (d.entries.headD [])) = true ∧ (s.queue d.queue).lost = true
    (∀ c, (c = Instr.nop d.id ∧ op = 0x00) ∨ (c = .signal d.id ∧ op = 0x0A) ∨ (c = .wait d.id ∧ op = 0x0B) ∨ (c = .mark d.id ∧ op = 0x0F) ∨
        (c = .fence d.id ∧ op = 0x0C) ∨ (c = .paramSet d.id ∧ op = 0x0D ∧ s.allBegun d = true) →
      (chk.1 = 0x10 → exec c s = .next (s.setDesc (endWith d 0x10 chk.2))) ∧
      (chk.1 ≠ 0x10 → s.hasGroup (s.groupOf d.queue) = false → exec c s = .next (s.setDesc (endWith d 0x12 0))) ∧
      (s.hasGroup (s.groupOf d.queue) = true →
        (chk.1 ≠ 0 → exec c s = .next (s.setDesc (endWith d chk.1 chk.2))) ∧
        (chk.1 = 0 → s.predicate d = none → exec c s = .next (s.setDesc (endWith d 0x30 0))) ∧
        (chk.1 = 0 → s.predicate d = some true →
          exec c s = .next (next.setDesc { s.begun d with phase := .finishing, skipped := true })) ∧
        (chk.1 = 0 → s.predicate d = some false →
          (op ∈ [0x00, 0x0A, 0x0B, 0x0F] → exec c s = .next (next.setDesc { s.begun d with phase := .finishing })) ∧
          (op = 0x0C →
            (s.fenceMet d = false → exec c s = .next (next.setDesc { s.begun d with phase := .running })) ∧
            (s.fenceMet d = true → ¬lost → exec c s = .next (next.setDesc { s.begun d with phase := .finishing })) ∧
            (s.fenceMet d = true → lost → exec c s = .next (next.setDesc (endWith (s.begun d) 0x31 0)))) ∧
          (op = 0x0D → ∀ x, tget s.queues d.queue = some x → exec c s = .next (({ next with
            queues := tput s.queues d.queue { x with params := setParams (d.entries.headD []) x.params } } : State).setDesc
              { s.begun d with phase := .finishing }))))) ∧
    (op = 0x0D → s.allBegun d = false → exec (.paramSet d.id) s = .next s) ∧
    (op = 0x0E → s.hasGroup (s.groupOf d.queue) = true → chk.1 = 0 → s.predicate d = some false →
      ∃ u d', exec (.replay d.id) s = .next { State.pump (State.pumpReplays u) with pending := s.pending } ∧ u = next.setDesc d' ∧
        d'.phase = .running ∧ d'.began = true ∧ d'.entries = d.entries ∧
        d'.groupBase = fieldVal d.entries (s.param d.queue) 14 0 64 8 ∧ d'.groupRepeat = fieldVal d.entries (s.param d.queue) 15 0 76 4)

/-- The data descriptors MOVE, GATHER, SCATTER, SCATTER_ADD, AUTOMORPH, LIMB_XPOSE, EXPAND, LIFT and CONDITION begin when their turn has come (R90,
R101, R130, R196, R287, R538): one of a retired group ends with ABSENT_UNIT where it is not MALFORMED, one that fails a check with the check's status and word, one whose
predicate holds is skipped with nothing moved; otherwise, with its channel free, the stream runs from its first unit with the geometry of its
entries, in the current commit epoch, and asks for the staging, the lift slot and the bank wakes that it needs. No byte of the window and no
buoy changes, and no access is issued but the reads of walks. -/
def Obligations.DataDescriptorsBeginAsStreams : Prop :=
  ∀ (s : State) (d : Desc) (c : Instr) (op : Nat), s.issuing = true → s.desc d.id = some d → s.mayBegin d = true → opcodeOf d.entries = op →
    (c, op) ∈ [(Instr.move d.id, 1), (.gather d.id, 2), (.scatter d.id, 3), (.scatterAdd d.id, 4), (.automorph d.id, 5), (.limbXpose d.id, 6),
      (.expand d.id, 7), (.lift d.id, 8), (.condition d.id, 9)] →
    s.patternBad (s.groupOf d.queue) = false → bit (s.reg Reg.tpInj) 63 = false →
    (s.hasGroup (s.groupOf d.queue) = false →
      let g := mkGeo d.entries (s.param d.queue)
      let chk := beginStatus g (s.envOf d g) (localSigs d.entries g none)
      (chk.1 = 0x10 → exec c s = .next (s.setDesc (endWith d 0x10 chk.2))) ∧
      (chk.1 ≠ 0x10 → exec c s = .next (s.setDesc (endWith d 0x12 0)))) ∧
    (s.hasGroup (s.groupOf d.queue) = true → remoteSigs d.entries = [] →
      let g := mkGeo d.entries (s.param d.queue)
      let chk := beginStatus g (s.envOf d g) []
      (chk.1 ≠ 0 → exec c s = .next (s.setDesc (endWith d chk.1 chk.2))) ∧
      (chk.1 = 0 → s.predicate d = some true →
        exec c s = .next (({ s with ids := s.ids + 1 } : State).setDesc { s.begun d with geo := g, phase := .finishing, skipped := true })) ∧
      (chk.1 = 0 → s.predicate d = some false → g.fed = false → g.dst.empty = false → (∀ w ∈ s.xl.walks, w.started = true) →
        ∃ t d' ws, exec c s = .next t ∧ t.desc d.id = some d' ∧ d'.phase = .running ∧ d'.began = true ∧ d'.geo = g ∧ d'.pos = 0 ∧
          d'.epoch = s.commit.epoch ∧ d'.entries = d.entries ∧ d'.queue = d.queue ∧ d'.mover = d.mover ∧
          d'.stagingKib = s.stagingOf g (fld (s.cfgAt s.commit.epoch (rkey Reg.cfCtxRing (s.ctxOf d.queue))) 11 8) ∧
          d'.liftWait = (op == 8 || op == 9) ∧ (∀ e ∈ s.descs, e.id ≠ d.id → e ∈ t.descs) ∧
          t.win.ram = s.win.ram ∧ t.queues = s.queues ∧ t.sync = s.sync ∧ t.reqs = s.reqs ++ ws ∧
          (∀ r ∈ ws, r.kind = .read ∧ ∃ w, r.owner = .walk w) ∧ t.kp = s.kp ∧ t.cfg = s.cfg))

/-! ### Streams at work -/

/-- MOVER_ISSUE_CYCLE (R282, R284, R497, R575) on a mover with one stream. A stream that may read issues the next piece of the unit that it plans
next, one read of up to 256 B within one port, while the reads out stay within the limits of R284; a stream that may write issues the next piece of
its unit with the data and the byte enables of that piece, and is past the unit with the last piece. Beside the new access nothing outside the
stream, the access counters, the mover's counters and the arbitration points changes. -/
def Obligations.MoversIssueReadsAndWrites : Prop :=
  ∀ (s : State) (m : Nat) (d : Desc) (p : XPart) (dest : Dest), s.issuing = true → s.idsRise = true → s.hasMover m = true →
    s.onMover m = [d] → s.fab.loop = [] → bit (s.reg Reg.tpInj) 63 = false → s.reg Reg.byLendStat = 0 → (∀ r ∈ s.reqs, r.posted = false) →
    d.wakes = [] → d.late = [] → d.lines = [] → s.routePa p.pa = some dest → p.len ≤ 256 → p.pa < tier2Base → s.bankFull d.id p.pa = false →
    let same := fun (t : State) => t.win = s.win ∧ t.queues = s.queues ∧ t.sync = s.sync ∧ t.fab = s.fab ∧ t.cfg = s.cfg ∧ t.kp = s.kp
    (∀ (u : InUnit) (parts : List XPart) (rs : List Range), s.mayRead d = true → s.mayWrite d = false → d.pending = some u →
      s.lookRead d u.unit = .ok parts rs → pieceAt parts u.issued = some p → s.wakeHolds d.id true = false →
      s.readsFit d (ceilDiv p.len 128) = true →
      ∃ t r d', exec (.moverIssueCycle m) s = .next t ∧ t.reqs = s.reqs ++ [r] ∧ r.kind = .read ∧ r.dest = dest ∧ r.pa = p.pa ∧ r.len = p.len ∧
        r.owner = .src d.id u.unit.obj u.unit.va u.issued ∧ t.desc d.id = some d' ∧ d'.pos = d.pos ∧
        d'.ins = d.ins.map (fun x => if x.unit = u.unit then { x with issued := x.issued + p.len } else x) ∧ same t) ∧
    (∀ u : OutUnit, s.mayRead d = false → s.mayWrite d = true → d.wr = some u → u.parts ≠ [] → (∀ x ∈ u.parts, x.chip = none) →
      d.geo.toPort = false → d.geo.op ≠ 4 → pieceAt u.parts u.issued = some p → s.wakeHolds d.id false = false →
      ((u.enables.drop u.issued).take p.len).any id = true →
      (u.data.length ≤ u.issued + p.len → d.ended = false ∧ u.obj ≠ 5 ∧ d.sigs = [none, none] ∧ d.geo.fed = false) →
      ∃ t r d', exec (.moverIssueCycle m) s = .next t ∧ t.reqs = s.reqs ++ [r] ∧ r.kind = .write ∧ r.dest = dest ∧ r.pa = p.pa ∧
        r.len = p.len ∧ r.data = (u.data.drop u.issued).take p.len ∧ r.enables = (u.enables.drop u.issued).take p.len ∧
        r.owner = .dst d.id u.obj u.va d.pos ∧ t.desc d.id = some d' ∧
        (u.issued + p.len < u.data.length → d'.pos = d.pos ∧ d'.wr = some { u with issued := u.issued + p.len }) ∧
        (u.data.length ≤ u.issued + p.len → d'.pos = d.geo.headFrom (d.pos + 1) ∧ d'.wr = none) ∧ same t)

/-- MEMORY_READ_RESPONSE, MEMORY_WRITE_ACK and ATOMIC_RMW outside the window (R176, R178, R283, R416, R417, R419, R434, R531). The data of a read
join the unit of the stream that asked for them; a poisoned response is asked for once more, and a second one ends the stream with DATA_CHECK at the
unit. A write that is acknowledged is outstanding no more, waits for an earlier access of its stream to its bytes that is not, and is never
acknowledged to tier 2, where the flush read of the port ends the posted writes before it. The atomic stage replaces a read-modify-write by the
write of the sum, and a unit that it cannot read is not written and ends the stream with DATA_CHECK. -/
def Obligations.MemoryAnswersReachTheirStreams : Prop :=
  ∀ (s : State) (i : Nat) (r : MemReq), s.req i = some r → r.toBank = false → r.held = false → bit (s.reg Reg.tpInj) 63 = false →
    fld (s.act Reg.hmCfg) 31 24 = 0 → (∀ d ∈ s.descs, d.late = []) →
    let read := fun (bad : Bool) (data : Bytes) (u : State) => exec (.memoryReadResponse i data bad false) s =
      .next { State.wakeReady (State.pump (State.settleCores (State.pumpReplays u))) with pending := s.pending }
    let rest := (s.passOn r).dropReq r.id
    (∀ did obj va off d data, s.serving = true → s.inTurn r = true → r.kind = .read → r.owner = .src did obj va off → s.desc did = some d →
      d.phase = .running →
      (d.geo.scans = false → d.geo.seedCount = 0 → read false data (rest.setDesc (d.onUnit obj va (fun u =>
          if u.parts.any (fun p => p.1 == off) then u else { u with parts := u.parts ++ [(off, fitTo r.len data)] })))) ∧
      (∀ dest, r.again = false → s.routePa r.pa = some dest → ∃ u held, read true data u ∧
          u.reqs = rest.reqs ++ [{ r with dest := dest, held := held, sent := false, again := true }] ∧ u.descs = s.descs) ∧
      (r.again = true → ∃ u d', read true data u ∧ u.desc did = some d' ∧ d'.phase = .finishing ∧
          d'.status = 0x30 ∧ d'.word1 = word va ∧ u.reqs = rest.reqs)) ∧
    (∀ e data, s.serving = true → s.inTurn r = true → r.kind = .read → r.owner = .flush e → r.dest = .ext e →
      read false data ((s.reqs.filter (fun q => q.posted && q.dest == .ext e && decide (q.id < r.id))).foldl State.writeDone
        (s.dropReq r.id))) ∧
    (r.kind = .write → s.inTurn r = false ∨ r.posted = true → exec (.memoryWriteAck i) s = .next s) ∧
    (∀ did obj va pos, s.serving = true → r.kind = .write → r.owner = .dst did obj va pos → s.inTurn r = true → r.posted = false →
      (∀ d, s.desc did = some d → d.geo.fed = false) →
      exec (.memoryWriteAck i) s = .next { State.pump (State.pumpReplays rest) with pending := s.pending }) ∧
    (∀ did pos old d, s.normal = true → r.kind = .rmw → r.owner = .rmw did pos → s.inTurn r = true → s.desc did = some d →
      (exec (.atomicRmw i old false) s = .next { State.pump (({ s.passOn r with reqs := (s.passOn r).reqs.map (fun q =>
          if q.id = r.id then { q with kind := .write, data := (r.sumOf old).1 } else q) } : State).onDesc did
            (fun d => { d with replaced := d.replaced + (r.sumOf old).2 })) with pending := s.pending }) ∧
      (d.ended = false → ∃ u d', exec (.atomicRmw i old true) s = .next { State.pump u with pending := s.pending } ∧
        u.desc did = some d' ∧ d'.phase = .finishing ∧ d'.status = 0x30 ∧ d'.rmwOut = false ∧ u.reqs = rest.reqs))

/-- DESCRIPTOR_COMPLETE (R52, R91, R95, R100, R131, R133). A descriptor that has finished waits for its writes, of which those on its lines go out,
for the rest of a unit begun, and for an earlier FENCE; then it performs its signals and gives up its slot, staging, cores and lift slot, and its
completion record is due with its status and word 1, one for each of its entries from the last on. A descriptor that ends with an error performs no
signal. -/
def Obligations.DescriptorsCompleteWhenTheirWorkIsCoherent : Prop :=
  ∀ (s : State) (d : Desc), s.issuing = true → s.desc d.id = some d → s.fab.loop = [] →
    let after := fun u => exec (.descriptorComplete d.id) s = .next { State.pump (State.pumpReplays u) with pending := s.pending }
    let recorded := { giveUp d with lines := [], status := d.finalStatus.1, word1 := d.finalStatus.2, late := [], phase := .recording,
                                    recordLeft := (List.range d.entries.length).reverse }
    (d.phase ≠ .finishing → after s) ∧
    (d.phase = .finishing → d.wr.isSome = true ∨ s.writesOut d.id = true → after (s.sealLines d.id).deliverLocal) ∧
    (d.phase = .finishing → d.wr = none → s.writesOut d.id = false → d.status = 0 → s.fenced d = true → after s) ∧
    (d.phase = .finishing → d.wr = none → s.writesOut d.id = false → d.late = [] → d.acks = [] → d.lines = [] → d.chan = none →
      d.parent = none →
      (d.status ≠ 0 ∨ (s.fenced d = false ∧ ∀ g ∈ d.sigs, g = none) → after (s.setDesc recorded)) ∧
      (∀ g amt, d.status = 0 → s.fenced d = false → d.sigs = [some g, none] → d.sigChipOf g.word = none → d.finalAmount g = some amt →
        fld g.word 14 12 = 0 → (s.buoy g.phys).poison = false → (s.buoy g.phys).value + amt ≤ 0xFFFFFFFF →
        bit (s.reg Reg.tpInj) 63 = false → s.sync.watches = [] → s.sync.claimants = [] → (∀ e ∈ s.descs, e.waits = []) →
        after ((s.setBuoy g.phys { s.buoy g.phys with value := (s.buoy g.phys).value + amt }).setDesc
          { recorded with sigs := [none, none] })))

/-- LENS_STAGING_GRANT, LENS_HOLD_EXPIRY and LIFT_SLOT_GRANT (R196, R202, R255, R256): the stream that has waited longest gets its staging once it
fits; halted streams give theirs up for it, the earliest halt first; a stream whose hold has expired gives its up. A lift unit grants its next
request a slot, and a stream that may take any unit gets it from the lowest that can grant it. Nothing else changes, but that a reported group
of which a stream is now ready is woken (R413). -/
def Obligations.StagingAndLiftSlotsAreGrantedInTurn : Prop :=
  (∀ (s : State) (g : Nat) (d : Desc), s.issuing = true → s.hasGroup g = true → oldest ((s.inGroup g).filter (·.stagingWait)) = some d →
    let after := fun u => exec (.lensStagingGrant g) s = .next { State.wakeReady u with pending := s.pending }
    (d.stagingKib ≤ s.lensKib - s.stagedKib g → after (s.onDesc d.id (fun d => { d with stagingWait := false, staged := true }))) ∧
    (s.lensKib - s.stagedKib g < d.stagingKib → s.holders g = [] → after s) ∧
    (∀ h rest, s.lensKib - s.stagedKib g < d.stagingKib → s.holders g = h :: rest → s.desc h.id = some h → h.id ≠ d.id →
      ∃ u h', after u ∧ u.desc h.id = some h' ∧ h'.staged = false ∧ h'.holdLeft = false ∧ h'.pos = h.pos ∧
        u.reqs = s.reqs ∧ u.win = s.win ∧ u.queues = s.queues ∧ u.sync = s.sync)) ∧
  (∀ (s : State) (did : Nat) (d : Desc), s.normal = true → s.desc did = some d →
    (d.holdLeft = true → d.phase = .saving ∨ d.isHalted = true → exec (.lensHoldExpiry did) s = .next (s.setDesc d.dropStaging)) ∧
    (d.holdLeft = false → exec (.lensHoldExpiry did) s = .next s)) ∧
  (∀ (s : State) (u : Nat) (d : Desc), s.issuing = true → s.liftNext u = some d →
    let after := fun x => exec (.liftSlotGrant u) s = .next { State.wakeReady x with pending := s.pending }
    (s.liftCan u d = true → d.geo.liftUnit ≠ 0xFF ∨ (∀ v, v < u → s.liftCan v d = false) →
      after (s.setDesc { d with liftSlot := some u, liftWait := false })) ∧
    (s.liftCan u d = false ∨ (d.geo.liftUnit = 0xFF ∧ ∃ v, v < u ∧ s.liftCan v d = true) → after s))

/-- EXPANDER_CORE_GRANT and XOF_PERMUTATION (R211 to R213, R224 to R228, R231, R233). The request whose turn it is gets the cores that it asks for,
all at once at a compute port and one at memory, once so many are free and, for a bulk stream, the bulk share allows; a granted core starts on
the next limb that the stream needs with the absorbed message of that limb; a bulk request that does not fit gets none, and with no request
nothing changes. A permutation takes the lanes through Keccak-f, adds the accepted candidates, each below the prime, to the residues of the limb,
and frees the core with the last. A first parity failure starts the limb's XOF again, and a second ends the descriptor with DATA_CHECK at the
seed record; a core that is paused, or that no stream holds, does nothing. -/
def Obligations.ExpanderCoresMakeResidues : Prop :=
  (∀ (s : State) (g : Nat), s.issuing = true → s.hasExp g = true →
    (s.coreNext g = none → exec (.expanderCoreGrant g) s = .next s) ∧
    (∀ d, s.coreNext g = some d → s.coreGrantSize d ≤ s.coresPer - s.coresHeld g →
      s.isLc d.queue = true ∨ s.bulkHeld g + s.coreGrantSize d ≤ fld (s.cfgAt d.epoch (Reg.exCfg g)) 12 8 →
      exec (.expanderCoreGrant g) s = .next (State.settleCores (State.giveCores d.id (s.coreGrantSize d) s))) ∧
    (∀ d, s.coreNext g = some d → s.isLc d.queue = false → s.coresPer - s.coresHeld g < s.coreGrantSize d ∨
      fld (s.cfgAt d.epoch (Reg.exCfg g)) 12 8 < s.bulkHeld g + s.coreGrantSize d →
      exec (.expanderCoreGrant g) s = .next (State.settleCores s))) ∧
  (∀ (s : State) (g : Nat) (d : Desc), s.issuing = true → s.hasExp g = true → s.coreNext g = some d → s.desc d.id = some d →
    s.coreGrantSize d = 1 →
    ∀ r l rest i, s.coresHeld g + 1 ≤ s.coresPer →
      s.isLc d.queue = true ∨ s.bulkHeld g + 1 ≤ fld (s.cfgAt d.epoch (Reg.exCfg g)) 12 8 →
      d.limbsTodo = (r, l) :: rest → s.freeCore (s.groupOf d.queue) = some i → d.cores.find? (fun x => x.poly == r && x.limb == l) = none →
      exec (.expanderCoreGrant g) s = .next (State.settleCores (s.setDesc { d with cores := d.cores ++
        [{ index := i, poly := r, limb := l, perms := 0, lanes := xofStart (d.limbMessage r l), carry := [], slot := 0, residues := [],
           tile := 0, regenTo := 0, retries := 0, pausedAt := 0 }] }))) ∧
  (∀ (s : State) (g core : Nat) (d : Desc) (c : Core), s.issuing = true → s.hasExp g = true → bit (s.reg Reg.tpInj) 63 = false →
    (s.inGroup g).findSome? (fun d => (d.held.find? (fun c => c.index == core)).map (fun c => (d, c))) = some (d, c) →
    s.desc d.id = some d → d.pausedCores.any (fun x => x.index == core) = false → d.ended = false →
    let q := s.primeAt d (d.geo.limbMap.getD c.limb 0)
    let n := 2 ^ s.lognOf d
    let with' := fun (c' : Core) => d.cores.map (fun x => if x.poly = c.poly ∧ x.limb = c.limb then c' else x)
    let after := fun (fail : Bool) (u : State) => exec (.xofPermutation g core fail) s = .next { State.wakeReady u with pending := s.pending }
    (c.slot ≤ n → ∃ (u : State) (d' : Desc) (c' : Core) (rs : List Nat), after false u ∧ u.desc d.id = some d' ∧ d'.cores = with' c' ∧
      c'.lanes = keccakF c.lanes ∧ c'.perms = c.perms + 1 ∧ c'.slot = c.slot + rs.length ∧ c'.slot ≤ n ∧ (∀ x ∈ rs, x < q) ∧
      c'.residues = c.residues ++ rs.drop (c.regenTo - c.slot) ∧ c'.index = (if c'.slot = n then coreGone else c.index) ∧
      u.win = s.win ∧ u.reqs = s.reqs ∧ u.queues = s.queues ∧ u.sync = s.sync) ∧
    (c.retries = 0 → fld (s.act Reg.hmCfg) 63 32 = 0 → ∃ u d' c', after true u ∧
      u.desc d.id = some d' ∧ d'.cores = with' c' ∧ c'.lanes = xofStart (d.limbMessage c.poly c.limb) ∧ c'.slot = 0 ∧ c'.carry = [] ∧
      c'.residues = c.residues ∧ c'.regenTo = 128 * c.tile + c.residues.length ∧ c'.retries = 1 ∧ u.reqs = s.reqs ∧ u.win = s.win) ∧
    (0 < c.retries → fld (s.act Reg.hmCfg) 31 24 = 0 → ∃ u, after true u ∧
      u.desc d.id = some (endWith d 0x30 (word (d.geo.seedBase + 64 * c.poly))) ∧ u.reqs = s.reqs ∧ u.win = s.win)) ∧
  (∀ (s : State) (g core : Nat) (fail : Bool), s.issuing = true → s.hasExp g = true →
    (∀ d ∈ s.inGroup g, (∀ c ∈ d.held, c.index ≠ core) ∨ d.pausedCores.any (fun x => x.index == core) = true) →
    exec (.xofPermutation g core fail) s = .next { State.wakeReady s with pending := s.pending })

/-- LIFT_UNIT_CYCLE (R250, R254, R257): the unit produces for one of its streams that is ready, a latency-critical one before any bulk one, and
for none where none is ready. Where the output passes through the mover, the stream's next destination unit is produced, and otherwise the unit
delivers to the compute port; a side record that R250 refuses ends the descriptor with INDEX_RANGE before anything of its row. A reported group
of which a stream is now ready is woken (R413). -/
def Obligations.LiftUnitsProduceForOneStream : Prop :=
  ∀ (s : State) (u : Nat), s.issuing = true → s.hasLift u = true →
    let after := fun x => exec (.liftUnitCycle u) s = .next { State.wakeReady x with pending := s.pending }
    ((∀ d ∈ s.onLift u, s.liftReady d = false) → after s) ∧
    ((∃ d ∈ s.onLift u, s.liftReady d = true) → ∃ d, (s.liftTurn u).2 = some d ∧ d ∈ s.onLift u ∧ s.liftReady d = true ∧
      ((∃ e ∈ s.onLift u, s.liftReady e = true ∧ s.isLc e.queue = true) → s.isLc d.queue = true)) ∧
    (∀ d, (s.liftTurn u).2 = some d →
      (∀ j v, d.sideFault d.liftPos = some (j, v) → after ((s.liftTurn u).1.setDesc (endWith d 0x14 (rangeWord j v)))) ∧
      (d.sideFault d.liftPos = none → bit (s.reg Reg.tpInj) 63 = false →
        (d.geo.liftToPort = false → after ((s.liftTurn u).1.onDesc d.id
          (fun d => { d with liftPos := d.geo.headFrom (d.liftPos + 1) }))) ∧
        (d.geo.liftToPort = true → after (State.liftPort d.id 8 (s.liftTurn u).1))))

/-! ### Links -/

/-- Tags (Table 13-2, R446 to R448): every tag whose fields fit their widths is read back from its block field by field, and its block carries
the CRC that the receiver computes. -/
def Obligations.LinkTagsAreReadBack : Prop :=
  ∀ (t : Tag) (payload : Bytes), t.linkSeq < 2 ^ 16 → t.ack < 2 ^ 16 → t.kind < 2 ^ 8 → t.credit < 2 ^ 8 → t.granules < 2 ^ 6 →
    t.src < 2 ^ 20 → t.dst < 2 ^ 20 → t.hops < 2 ^ 12 → t.line < 2 ^ 12 → t.seq < 2 ^ 32 → t.amount < 2 ^ 32 → t.addr < 2 ^ 38 →
    t.ctx < 2 ^ 10 → t.fmt < 2 ^ 4 → t.prime < 2 ^ 7 → t.round < 2 ^ 2 →
    tagFields (t.block payload) = t ∧ crcGood (t.block payload) = true ∧ (t.block payload).payload = payload

/-- LINK_LOCK, LINK_LOCK_LOSS, ACK_TIMEOUT, BEACON_TIMER and RESTORE (Table 13-1, R444, R449, R451, R453). A DOWN link that locks, and a FAILED
link that is restored, train: sequences from zero, 32 credits and a beacon to send. A link that loses lock, and one whose blocks have made no
progress for a third period, fails with its cause, counted and recorded; the periods before send everything unacknowledged again. -/
def Obligations.LinksTrainAndFail : Prop :=
  ∀ (s : State) (l : Nat),
    let x := s.link l
    let trained := fun locked => s.setLink l { Link.blank with
      state := .training, nbrValid := x.nbrValid, nbrLink := x.nbrLink, nbrChip := x.nbrChip, nbrEpoch := x.nbrEpoch, locked := locked,
      credits := 32, queue := [s.beaconFor l] }
    let failed := fun (t : State) (cause : Nat) => (t.link l).state = .failed ∧ (t.link l).cause = cause ∧ (t.link l).replay = [] ∧
      t.regFld (Reg.fbLinkCnt l) 63 48 = (s.regFld (Reg.fbLinkCnt l) 63 48 + 1) % 2 ^ 16 ∧ bit (t.reg Reg.fbEvent) 0 = true ∧
      (∃ r, t.kp.log.getLast? = some r ∧ r.kind = 0x09 ∧ r.object = l) ∧ t.reqs = s.reqs ∧ t.win = s.win ∧
      (∀ q, { t.queue q with lost := (s.queue q).lost } = s.queue q) ∧ t.sync = s.sync ∧ t.cfg = s.cfg
    (s.issuing = true → s.hasLink l = true → s.adminDown l = false →
      (x.state = .down → exec (.linkLock l) s = .next (trained true)) ∧
      (x.state ≠ .down → exec (.linkLock l) s = .next (s.setLink l { x with locked := true }))) ∧
    (s.issuing = true → s.hasLink l = true → tsorted s.regs = true → x.state ∈ [LinkState.training, .up, .isolated] →
      ∃ t, exec (.linkLockLoss l) s = .next t ∧ failed t 1 ∧ (t.link l).locked = false) ∧
    (s.issuing = true → x.state = .down → exec (.linkLockLoss l) s = .next (s.setLink l { x with locked := false })) ∧
    (s.issuing = true → x.state = .up → x.replay ≠ [] → tsorted s.regs = true →
      (2 ≤ x.timeouts → ∃ t, exec (.ackTimeout l) s = .next t ∧ failed t 3) ∧
      (x.timeouts < 2 → (∀ b ∈ x.replay, b.sends < 8) → exec (.ackTimeout l) s =
        .next ((s.bump (Reg.fbLinkCnt l) 47 32).setLink l { x with timeouts := x.timeouts + 1, resend := some 0 })) ∧
      (x.timeouts < 2 → (∃ b ∈ x.replay, 8 ≤ b.sends) → ∃ t, exec (.ackTimeout l) s = .next t ∧ failed t 2)) ∧
    (s.issuing = true → (s.beacons l = true → exec (.beaconTimer l) s = .next (s.setLink l { x with queue := x.queue ++ [s.beaconFor l] })) ∧
      (s.beacons l = false → exec (.beaconTimer l) s = .next s)) ∧
    (∀ p, s.normal = true → (fromCompute p = true ∨ x.state ≠ .failed → exec (.restore p l) s = .next s) ∧
      (fromCompute p = false → s.hasLink l = true → x.state = .failed → exec (.restore p l) s = .next (trained x.locked)))

/-- LINK_SEND and LINK_IDLE_TIMER (R449, R450, R473, R478). After a fatal event a training or UP link sends fog and nothing else. Otherwise the link
sends one block, stamped with its next sequence, its acknowledgement and the credits that it owes: what goes before any other traffic, then
the blocks that are sent again, then its queue. A line block takes a credit, a sequence and a place in the replay buffer; without a credit
none leaves, and one whose item has been sent 16 times ends its stream with DATA_CHECK (R452). An UP link with nothing that may leave sends an
IDLE tag. -/
def Obligations.LinksSendWithinTheirCredits : Prop :=
  ∀ (s : State) (l : Nat), s.hasLink l = true →
    let x := s.link l
    let sent := fun (t : State) (it : LinkItem) => t.out = s.out ++ [.link l (stampBlock x x.txSeq it.block)] ∧
      (t.link l).owed = x.owed - min x.owed 32 ∧
      (lineKind (blockKind it.block) = true → (t.link l).txSeq = (x.txSeq + 1) % 2 ^ 16 ∧ (t.link l).credits = x.credits - 1 ∧
        (t.link l).replay = x.replay ++ [{ it with sends := 1 }]) ∧
      (lineKind (blockKind it.block) = false → (t.link l).txSeq = x.txSeq ∧ (t.link l).credits = x.credits ∧ (t.link l).replay = x.replay)
    (s.rst.inEffect = false → s.kp.fatal.isSome = true ∨ s.kp.mode = .halted →
      (x.state = .training ∨ x.state = .up → exec (.linkSend l) s = .next (s.emit (.link l (s.fogBlock l)))) ∧
      (x.state ≠ .training → x.state ≠ .up → exec (.linkSend l) s = .next s)) ∧
    (s.issuing = true →
      (∀ it, x.queue.find? (fun it => firstKind (blockKind it.block) && mayLeave x it) = some it → s.sentOut it = none → ∃ u, exec (.linkSend l) s =
        .next { State.settleFabric u with pending := s.pending } ∧ sent u it ∧ u.win = s.win ∧ u.reqs = s.reqs) ∧
      (∀ i it, x.queue.find? (fun it => firstKind (blockKind it.block) && mayLeave x it) = none → x.resend = some i → x.state = .up →
        x.replay[i]? = some it → it.line = none → ∃ u, exec (.linkSend l) s = .next { State.settleFabric u with pending := s.pending } ∧
          u.out = s.out ++ [.link l (stampBlock x ((x.txSeq + 2 ^ 16 - x.replay.length + i) % 2 ^ 16) it.block)] ∧
          (u.link l).credits = x.credits ∧ (u.link l).txSeq = x.txSeq ∧ (u.link l).replay = x.replay.set i { it with sends := it.sends + 1 } ∧
          (u.link l).resend = (if i + 1 < x.replay.length then some (i + 1) else none)) ∧
      (∀ it, x.queue = [it] → x.resend = none → firstKind (blockKind it.block) = false → mayLeave x it = true →
        s.sentOut it = none → ∃ u, exec (.linkSend l) s =
        .next { State.settleFabric u with pending := s.pending } ∧ sent u it ∧ (u.link l).queue = [] ∧ u.win = s.win ∧ u.reqs = s.reqs) ∧
      (x.resend = none → x.credits = 0 → (∀ it ∈ x.queue, lineKind (blockKind it.block) = true) → ∃ u, exec (.linkSend l) s =
        .next { State.settleFabric u with pending := s.pending } ∧ u.out = s.out ∧ u.fab = s.fab) ∧
      (∀ it n va, x.queue.find? (fun it => firstKind (blockKind it.block) && mayLeave x it) = some it → s.sentOut it = some (n, va) →
        exec (.linkSend l) s = .next { State.settleFabric (s.loseLine n 0x30 va) with pending := s.pending }) ∧
      (x.state = .up → x.queue.any (mayLeave x) = false → x.resend = none → ∃ t b, exec (.linkIdleTimer l) s = .next t ∧ t.out = s.out ++ [.link l b] ∧
        b.payload = [] ∧ (t.link l).owed = x.owed - min x.owed 32 ∧ (t.link l).txSeq = x.txSeq ∧ (t.link l).credits = x.credits ∧
        t.reqs = s.reqs ∧ t.win = s.win ∧ t.descs = s.descs ∧
        (x.txSeq < 2 ^ 16 → x.rxSeq < 2 ^ 16 → (tagFields b).kind = 0 ∧ (tagFields b).ack = x.rxSeq ∧
          (tagFields b).credit = min x.owed 32)))

/-- What a link does with a block before its kind matters (R447 to R450, R457, R460): one that its state does not carry, or whose tag is sound
but of another kind, changes nothing. One with a bad CRC or tag is counted and discarded: the sequence expected stays, a NACK goes out for
the first discard, and nothing of the block is applied. An IDLE tag returns acknowledgement and credits alone; a NACK has the replay buffer
sent again, or fails the link when a block of it has been sent 8 times. -/
def Obligations.ReceivedBlocksAreCheckedFirst : Prop :=
  ∀ (s : State) (l k : Nat) (b : LinkBlock) (c : Instr), s.issuing = true → (c, k) ∈ [(Instr.linkIdle l b, 0), (.linkData l b, 1),
      (.linkDataMasked l b, 2), (.linkAdd l b, 3), (.linkSignal l b, 4), (.beacon l b, 6), (.nack l b, 8), (.close l b, 9), (.busy l b, 10)] →
    (s.hasLink l = false ∨ carries (s.link l).state k = false → exec c s = .next s) ∧
    (s.hasLink l = true → carries (s.link l).state k = true → bit (s.reg Reg.tpInj) 63 = false →
      (crcGood b = true → tagSound b = true → (tagFields b).kind ≠ k → exec c s = .next s) ∧
      (crcGood b = false ∨ tagSound b = false → fld (s.act Reg.hmCfg) 63 32 = 0 → tsorted s.regs = true → ∃ t, exec c s = .next t ∧
        t.regFld (Reg.fbLinkCnt l) 15 0 = (s.regFld (Reg.fbLinkCnt l) 15 0 + 1) % 2 ^ 16 ∧ (t.link l).rxSeq = (s.link l).rxSeq ∧
        (t.link l).credits = (s.link l).credits ∧ (t.link l).nackSent = true ∧
        (t.link l).queue.length = (s.link l).queue.length + (if (s.link l).nackSent then 0 else 1) ∧ t.reqs = s.reqs ∧ t.sync = s.sync ∧
        t.descs = s.descs ∧ t.win = s.win ∧ t.fab.inb = s.fab.inb ∧ t.fab.out = s.fab.out)) ∧
    (soundBlock s l 0 b → exec (.linkIdle l b) s = .next { State.settleFabric (tookBlock s l 0 b) with pending := s.pending }) ∧
    (soundBlock s l 8 b →
      let x := (tookBlock s l 8 b).link l
      (x.replay ≠ [] → (∀ i ∈ x.replay, i.sends < 8) → exec (.nack l b) s =
        .next { State.settleFabric ((tookBlock s l 8 b).setLink l { x with resend := some 0 }) with pending := s.pending }) ∧
      ((∃ i ∈ x.replay, 8 ≤ i.sends) → x.state = .up → ∃ t, exec (.nack l b) s = .next t ∧ (t.link l).state = .failed ∧
        (t.link l).cause = 2))

/-- Line blocks that come to this chip in their turn (R438, R446, R465 to R467, R472): a write item issues the write of its bytes under its
enables, an ADD of one unit one read-modify-write, and the line expects the next sequence; a signal acts on the buoy once no item before it is
outstanding, and waits until then; CLOSE frees the line. An item that no aperture admits writes nothing, is refused with PROTECTION (0x21)
and sets FB_EVENT bit 4. -/
def Obligations.LineBlocksAreAppliedInTurn : Prop :=
  ∀ (s : State) (l k key : Nat) (b : LinkBlock) (c : Instr) (x : InLine), s.issuing = true → soundBlock s l k b →
    (c, k) ∈ [(Instr.linkData l b, 1), (.linkDataMasked l b, 2), (.linkAdd l b, 3), (.linkSignal l b, 4), (.close l b, 9)] →
    let t := tagFields b
    let a := t.addr * 64
    let data := if k = 2 then b.payload.drop 64 else b.payload
    let en := if k = 2 then (List.range data.length).map (fun i => (b.payload.getD (i / 8) 0).getLsbD (i % 8)) else List.replicate data.length true
    let after := fun v => exec c s = .next { State.settleFabric v with pending := s.pending }
    let next := { x with expect := (x.expect + 1) % 2 ^ 32 }
    s.fab.idValid = true → t.dst = s.fab.chipId → t.opens = false → s.inLine t.src t.line = some (key, x) → tget s.fab.inb key = some x →
    x.expect = t.seq → x.reorder = [] → x.refusal = none →
    (∀ dest, k = 1 ∨ k = 2 → s.inboundOk t.ctx a data.length false = true → s.routePa a = some dest → pieceLen a data.length = data.length →
      0 < data.length → ∃ v r, after v ∧ v.reqs = s.reqs ++ [r] ∧ r.kind = .write ∧ r.dest = dest ∧ r.pa = a ∧ r.len = data.length ∧ r.data = data ∧
        r.enables = en ∧ r.owner = .inbound key t.seq ∧ r.ctx = t.ctx ∧ v.win = s.win ∧ v.sync = s.sync ∧ v.queues = s.queues ∧
        tget v.fab.inb key =
          some { next with applying := x.applying ++ [{ seq := t.seq, parts := 1, came := some l }] }) ∧
    (∀ dest, k = 3 → s.inboundOk t.ctx a data.length true = true → s.addable t = true → data.length = unitBytes t.fmt → 0 < data.length →
      s.routePa a = some dest → ∃ v r, after v ∧ v.reqs = s.reqs ++ [r] ∧ r.kind = .rmw ∧ r.dest = dest ∧ r.pa = a ∧ r.len = data.length ∧
        r.data = data ∧ r.owner = .inboundAdd key t.seq ∧ v.win = s.win ∧ v.sync = s.sync ∧ v.queues = s.queues) ∧
    (k = 1 ∨ k = 2 ∨ k = 3 → s.inboundOk t.ctx a data.length (k == 3) = false → ∃ v, after v ∧ v.reqs = s.reqs ∧
      bit (v.reg Reg.fbEvent) 4 = true ∧ tget v.fab.inb key = some { next with refusal := some (t.seq, 0x21) } ∧ v.win = s.win ∧
      v.sync = s.sync) ∧
    (k = 4 → x.applying ≠ [] → ∃ v, after v ∧ v.sync = s.sync ∧ v.reqs = s.reqs ∧ tget v.fab.inb key = some { x with reorder := [(l / 16, some l, b)] }) ∧
    (∀ bu, k = 4 → x.applying = [] → s.physOf t.ctx (t.addr % 4096) = some bu → s.quietSync = true → (s.buoy bu).poison = false →
      t.addr / 4096 % 8 = 0 → (s.buoy bu).value + t.amount ≤ 0xFFFFFFFF → ∃ v, after v ∧
        v.buoy bu = { s.buoy bu with value := (s.buoy bu).value + t.amount } ∧ (∀ o, o ≠ bu → v.buoy o = s.buoy o) ∧
        tget v.fab.inb key = some next ∧ v.reqs = s.reqs ∧ v.win = s.win) ∧
    (k = 9 → tsorted s.fab.inb = true → ∃ v, after v ∧ tget v.fab.inb key = none ∧ v.reqs.length = s.reqs.length ∧ v.sync = s.sync ∧ v.win = s.win)

/-- LINE_ACK_TIMER, LINE_ACK and BUSY (R463, R468, R386). A receiving line with applied items that are not acknowledged sends one LINE_ACK that
names the last of them, as does one that holds items before their turn, with HOLD 1, and nothing when nothing is new. At the sender an acknowledgement takes the items up to its sequence off the line, a
refusal ends the stream with the status that it names, and BUSY puts every unacknowledged item back to wait for a new try.
BUSY_RETRY, LINE_RETRY and LINE_LOST (R452, R463, R475, R476). A line that was refused for now, and one whose items have gone unacknowledged,
sends again over its route: the item goes to the link with the most credits. An item that has been sent 16 times ends its stream with
DATA_CHECK (0x30) at the item's unit, and a lost line ends its stream with LINK_LOST (0x31) at the oldest unacknowledged unit; the line is
then free. -/
def Obligations.LinesAreAcknowledgedOrSentAgain : Prop :=
  ((∀ (s : State) (k : Nat) (x : InLine), s.issuing = true → tget s.fab.inb k = some x → s.fab.loop = [] →
    x.applying = [] → x.refusal = none →
    (x.acked = x.expect → x.reorder = [] → exec (.lineAckTimer k) s = .next { State.pump s with pending := s.pending }) ∧
    (∀ ls alt l, x.acked ≠ x.expect ∨ x.reorder ≠ [] → x.src < 2 ^ 20 → s.fab.chipId < 2 ^ 20 → x.line < 2 ^ 12 → x.expect < 2 ^ 32 →
      s.isSelf x.src = false → s.routeTo x.src = some (ls, alt) → s.bestLink ls = some l →
      ∃ u it, exec (.lineAckTimer k) s = .next { State.pump u with pending := s.pending } ∧
        (u.link l).queue = (s.link l).queue ++ [it] ∧ it.block = Tag.block { Tag.ofKind 5 with
          src := s.fab.chipId, dst := x.src, hops := 1, line := x.line, seq := (x.expect + 2 ^ 32 - 1) % 2 ^ 32, lc := true,
          addr := 256 * b2n (!x.reorder.isEmpty) } [] ∧
        tget u.fab.inb k = some { x with acked := x.expect } ∧ u.reqs = s.reqs ∧ u.descs = s.descs)) ∧
  (∀ (s : State) (l : Nat) (b : LinkBlock) (x : OutLine), s.issuing = true →
    let t := tagFields b
    s.fab.idValid = true → t.dst = s.fab.chipId → tget s.fab.out t.line = some x → x.chip = t.src → (∀ d ∈ s.descs, d.late = []) →
    (soundBlock s l 5 b → t.addr % 256 = 0 → t.seq ≠ 2 ^ 32 - 1 →
      ∃ v y, exec (.lineAck l b) s = .next { State.pump (State.settleFabric v) with pending := s.pending } ∧
        tget v.fab.out t.line = some y ∧ y.items = x.items.filter (fun i => !(i.seq == t.seq || seqBefore i.seq t.seq)) ∧
        y.waiting = x.waiting.filter (fun i => !(i.seq == t.seq || seqBefore i.seq t.seq)) ∧ v.win = s.win ∧ v.queues = s.queues) ∧
    (∀ i d, soundBlock s l 5 b → t.addr % 256 = 0x21 → (x.items ++ x.waiting).find? (fun i => i.seq == t.seq) = some i →
      s.desc x.did = some d → d.ended = false →
      ∃ v d', exec (.lineAck l b) s = .next { State.pump (State.settleFabric v) with pending := s.pending } ∧ v.desc x.did = some d' ∧
        d'.phase = .finishing ∧ d'.status = 0x21 ∧ d'.word1 = word i.va ∧
        (∃ y, tget v.fab.out t.line = some y ∧ y.items = [] ∧ y.waiting = [])) ∧
    (soundBlock s l 10 b → ∃ v, exec (.busy l b) s = .next { State.settleFabric v with pending := s.pending } ∧
      tget v.fab.out t.line = some { x with busy := true, waiting := x.items ++ x.waiting, items := [] } ∧ v.descs = s.descs ∧
      v.reqs = s.reqs))) ∧
  (∀ (s : State) (n : Nat) (x : OutLine) (it : OutItem), s.issuing = true → tget s.fab.out n = some x → s.fab.loop = [] → x.growing = false →
    (∀ c ls l, (c = Instr.busyRetry n ∧ x.busy = true ∧ x.items = [] ∧ x.waiting = [it]) ∨
        (c = .lineRetry n ∧ x.busy = false ∧ x.items = [it] ∧ x.waiting = [] ∧ it.sends < 16) →
      s.isSelf x.chip = false → s.routeTo x.chip = some (ls, x.alt) → s.bestLink ls = some l →
      ∃ u q, exec c s = .next { State.pump u with pending := s.pending } ∧ (u.link l).queue = (s.link l).queue ++ [q] ∧
        q.block = it.block ∧ q.line = some n ∧ tget u.fab.out n = some { x with busy := false, items := [it], waiting := [] } ∧
        u.descs = s.descs ∧ u.reqs = s.reqs) ∧
    (∀ c st d, (c = Instr.lineRetry n ∧ x.busy = false ∧ x.items.find? (fun i => 16 ≤ i.sends) = some it ∧ st = 0x30) ∨
        (c = .lineLost n ∧ (x.items ++ x.waiting).head? = some it ∧ st = 0x31) →
      tsorted s.fab.out = true → s.desc x.did = some d → d.ended = false →
      ∃ u d', exec c s = .next { State.pump u with pending := s.pending } ∧ u.desc x.did = some d' ∧ d'.phase = .finishing ∧
        d'.status = st ∧ d'.word1 = word it.va ∧ tget u.fab.out n = none ∧ u.reqs = s.reqs))

/-- BEACON and FOG (R453 to R456, R478, R479). A beacon records the neighbour's chip, link and epoch; with this chip's system tag and another
chip ID the link is UP, otherwise ISOLATED, and a clash of chip IDs sets FB_EVENT bit 7. A fog signal fails the link that brought it with cause
4, sets FB_EVENT bit 2 and latches the sender in FB_FOG_INFO. -/
def Obligations.BeaconsAndFogSetTheLink : Prop :=
  ∀ (s : State) (l : Nat) (b : LinkBlock), s.issuing = true →
    let chip := leAt b.payload 0 4 % 2 ^ 20
    let clash := (leAt b.payload 0 4).testBit 31 && s.fab.idValid && chip == s.fab.chipId
    (soundBlock s l 6 b → bit (s.act Reg.fbChip) 62 = false → ∃ t, exec (.beacon l b) s = .next t ∧
      (t.link l).nbrValid = true ∧ (t.link l).nbrChip = chip ∧ (t.link l).nbrLink = leAt b.payload 10 1 ∧
      (t.link l).nbrEpoch = leAt b.payload 8 2 ∧
      (t.link l).state = (if leAt b.payload 4 4 = s.actFld Reg.fbSystem 63 32 ∧ clash = false then .up else .isolated) ∧
      (clash = true → bit (t.reg Reg.fbEvent) 7 = true) ∧ t.reqs = s.reqs ∧ t.win = s.win ∧ t.sync = s.sync ∧
      ∀ q, { t.queue q with lost := (s.queue q).lost } = s.queue q) ∧
    (soundBlock s l 7 b → tsorted s.regs = true → ∃ u, exec (.fog l b) s = .next { State.pump u with pending := s.pending } ∧ (u.link l).state = .failed ∧
      (u.link l).cause = 4 ∧ bit (u.reg Reg.fbEvent) 2 = true ∧
      u.reg Reg.fbFogInfo = word (2 ^ 56 * leAt b.payload 12 1 + 2 ^ 40 * leAt b.payload 8 2 + 2 ^ 32 * l + chip) ∧
      ((∀ p ∈ s.fab.inb, p.2.src ≠ chip) → u.reqs = s.reqs) ∧ u.win = s.win ∧ u.sync = s.sync)
end

