-- ==== Sys2Proof/Laws/Commands.lean ====
section
/-! SUPPORT. What exec does with each command, one equation per constructor, so that no later proof unfolds the dispatch. -/

namespace Sys2Proof.Machine

theorem exec_powerOnReset (s : State) (fuses : Fuses) (straps : Straps) : exec (.powerOnReset fuses straps) s = execPowerOnReset fuses straps s := rfl
theorem exec_coldReset (s : State) : exec .coldReset s = execColdReset s := rfl
theorem exec_warmReset (s : State) : exec .warmReset s = execWarmReset s := rfl
theorem exec_abortPhaseEnd (s : State) : exec .abortPhaseEnd s = execAbortPhaseEnd s := rfl
theorem exec_tapReset (s : State) : exec .tapReset s = execTapReset s := rfl
theorem exec_resetRelease (s : State) (refClock startup : Bool) (ceilings : List Nat) : exec (.resetRelease refClock startup ceilings) s = execResetRelease refClock startup ceilings s := rfl
theorem exec_nvmTransferComplete (s : State) (ok : Bool) (data : Bytes) : exec (.nvmTransferComplete ok data) s = execNvmTransferComplete ok data s := rfl
theorem exec_securityResponse (s : State) (answer : Byte) : exec (.securityResponse answer) s = execSecurityResponse answer s := rfl
theorem exec_securityTimeout (s : State) : exec .securityTimeout s = execSecurityTimeout s := rfl
theorem exec_registerWrite (s : State) (port : Port) (offset : Nat) (part : Part) (value : Word) : exec (.registerWrite port offset part value) s = execRegisterWrite port offset part value s := rfl
theorem exec_check (s : State) (port : Port) : exec (.check port) s = execCheck port s := rfl
theorem exec_apply (s : State) (port : Port) : exec (.apply port) s = execApply port s := rfl
theorem exec_discard (s : State) (port : Port) : exec (.discard port) s = execDiscard port s := rfl
theorem exec_commitTokenArrival (s : State) : exec .commitTokenArrival s = execCommitTokenArrival s := rfl
theorem exec_islandRetireReport (s : State) (island : Nat) : exec (.islandRetireReport island) s = execIslandRetireReport island s := rfl
theorem exec_commitStall (s : State) : exec .commitStall s = execCommitStall s := rfl
theorem exec_cfImgDataWrite (s : State) (port : Port) (part : Part) (value : Word) : exec (.cfImgDataWrite port part value) s = execCfImgDataWrite port part value s := rfl
theorem exec_kpResetWarm (s : State) (port : Port) : exec (.kpResetWarm port) s = execKpResetWarm port s := rfl
theorem exec_kpResetCold (s : State) (port : Port) : exec (.kpResetCold port) s = execKpResetCold port s := rfl
theorem exec_prParamWrite (s : State) (port : Port) (i : Nat) (part : Part) (value : Word) : exec (.prParamWrite port i part value) s = execPrParamWrite port i part value s := rfl
theorem exec_qmAdminRingWrite (s : State) (port : Port) (part : Part) (value : Word) : exec (.qmAdminRingWrite port part value) s = execQmAdminRingWrite port part value s := rfl
theorem exec_qmAdminEnable (s : State) (port : Port) : exec (.qmAdminEnable port) s = execQmAdminEnable port s := rfl
theorem exec_qmAdminDisable (s : State) (port : Port) : exec (.qmAdminDisable port) s = execQmAdminDisable port s := rfl
theorem exec_doorbell (s : State) (port : Port) (queue : Nat) : exec (.doorbell port queue) s = execDoorbell port queue s := rfl
theorem exec_indexBlockReadResponse (s : State) (queue : Nat) (data : Bytes) (err : Bool) : exec (.indexBlockReadResponse queue data err) s = execIndexBlockReadResponse queue data err s := rfl
theorem exec_entryReadResponse (s : State) (queue : Nat) (data : Bytes) (err : Bool) : exec (.entryReadResponse queue data err) s = execEntryReadResponse queue data err s := rfl
theorem exec_admission (s : State) (queue : Nat) : exec (.admission queue) s = execAdmit queue s := rfl
theorem exec_nop (s : State) (did : Nat) : exec (.nop did) s = execNop did s := rfl
theorem exec_move (s : State) (did : Nat) : exec (.move did) s = execMove did s := rfl
theorem exec_gather (s : State) (did : Nat) : exec (.gather did) s = execGather did s := rfl
theorem exec_scatter (s : State) (did : Nat) : exec (.scatter did) s = execScatter did s := rfl
theorem exec_scatterAdd (s : State) (did : Nat) : exec (.scatterAdd did) s = execScatterAdd did s := rfl
theorem exec_automorph (s : State) (did : Nat) : exec (.automorph did) s = execAutomorph did s := rfl
theorem exec_limbXpose (s : State) (did : Nat) : exec (.limbXpose did) s = execLimbXpose did s := rfl
theorem exec_expand (s : State) (did : Nat) : exec (.expand did) s = execExpand did s := rfl
theorem exec_lift (s : State) (did : Nat) : exec (.lift did) s = execLift did s := rfl
theorem exec_condition (s : State) (did : Nat) : exec (.condition did) s = execCondition did s := rfl
theorem exec_signal (s : State) (did : Nat) : exec (.signal did) s = execSignal did s := rfl
theorem exec_wait (s : State) (did : Nat) : exec (.wait did) s = execWait did s := rfl
theorem exec_fence (s : State) (did : Nat) : exec (.fence did) s = execFence did s := rfl
theorem exec_paramSet (s : State) (did : Nat) : exec (.paramSet did) s = execParamSet did s := rfl
theorem exec_replay (s : State) (did : Nat) : exec (.replay did) s = execReplay did s := rfl
theorem exec_mark (s : State) (did : Nat) : exec (.mark did) s = execMark did s := rfl
theorem exec_replayEntryReadResponse (s : State) (did : Nat) (data : Bytes) (err : Bool) : exec (.replayEntryReadResponse did data err) s = execReplayEntryReadResponse did data err s := rfl
theorem exec_moverIssueCycle (s : State) (mover : Nat) : exec (.moverIssueCycle mover) s = execMoverIssueCycle mover s := rfl
theorem exec_walkGranuleRead (s : State) (walk : Nat) (data : Bytes) (err : Bool) : exec (.walkGranuleRead walk data err) s = execWalkGranuleRead walk data err s := rfl
theorem exec_memoryReadResponse (s : State) (req : Nat) (data : Bytes) (poison ce : Bool) : exec (.memoryReadResponse req data poison ce) s = execMemoryReadResponse req data poison ce s := rfl
theorem exec_memoryWriteAck (s : State) (req : Nat) : exec (.memoryWriteAck req) s = execMemoryWriteAck req s := rfl
theorem exec_atomicRmw (s : State) (req : Nat) (data : Bytes) (err : Bool) : exec (.atomicRmw req data err) s = execAtomicRmw req data err s := rfl
theorem exec_descriptorComplete (s : State) (did : Nat) : exec (.descriptorComplete did) s = execDescriptorComplete did s := rfl
theorem exec_lensStagingGrant (s : State) (g : Nat) : exec (.lensStagingGrant g) s = execLensStagingGrant g s := rfl
theorem exec_lensHoldExpiry (s : State) (did : Nat) : exec (.lensHoldExpiry did) s = execLensHoldExpiry did s := rfl
theorem exec_streamHalt (s : State) (did : Nat) : exec (.streamHalt did) s = execStreamHalt did s := rfl
theorem exec_createQueue (s : State) : exec .createQueue s = execCreateQueue s := rfl
theorem exec_destroyQueue (s : State) : exec .destroyQueue s = execDestroyQueue s := rfl
theorem exec_enableQueue (s : State) : exec .enableQueue s = execEnableQueue s := rfl
theorem exec_disableQueue (s : State) : exec .disableQueue s = execDisableQueue s := rfl
theorem exec_resetQueue (s : State) : exec .resetQueue s = execResetQueue s := rfl
theorem exec_modifyQueue (s : State) : exec .modifyQueue s = execModifyQueue s := rfl
theorem exec_resumeStream (s : State) : exec .resumeStream s = execResumeStream s := rfl
theorem exec_abandonStream (s : State) : exec .abandonStream s = execAbandonStream s := rfl
theorem exec_resumePlacement (s : State) (did : Nat) : exec (.resumePlacement did) s = execResumePlacement did s := rfl
theorem exec_expanderCoreGrant (s : State) (g : Nat) : exec (.expanderCoreGrant g) s = execExpanderCoreGrant g s := rfl
theorem exec_xofPermutation (s : State) (g core : Nat) (parityFail : Bool) : exec (.xofPermutation g core parityFail) s = execXofPermutation g core parityFail s := rfl
theorem exec_liftSlotGrant (s : State) (u : Nat) : exec (.liftSlotGrant u) s = execLiftSlotGrant u s := rfl
theorem exec_liftUnitCycle (s : State) (u : Nat) : exec (.liftUnitCycle u) s = execLiftUnitCycle u s := rfl
theorem exec_cpDeliveryTransfer (s : State) (g : Nat) : exec (.cpDeliveryTransfer g) s = execCpDeliveryTransfer g s := rfl
theorem exec_cpWindowRequest (s : State) (g : Nat) (req : CpReq) : exec (.cpWindowRequest g req) s = execCpWindowRequest g req s := rfl
theorem exec_cpAixWord (s : State) (g chan : Nat) (vals : List (BitVec 32)) : exec (.cpAixWord g chan vals) s = execCpAixWord g chan vals s := rfl
theorem exec_bankPortCycle (s : State) (bank port : Nat) (ecc : Ecc) : exec (.bankPortCycle bank port ecc) s = execBankPortCycle bank port ecc s := rfl
theorem exec_bankScrub (s : State) (bank : Nat) (ecc : Ecc) : exec (.bankScrub bank ecc) s = execBankScrub bank ecc s := rfl
theorem exec_retain (s : State) (pair : Nat) : exec (.retain pair) s = execRetain pair s := rfl
theorem exec_retentionEntry (s : State) (pair : Nat) : exec (.retentionEntry pair) s = execRetentionEntry pair s := rfl
theorem exec_wake (s : State) (pair : Nat) : exec (.wake pair) s = execWake pair s := rfl
theorem exec_pairWakeComplete (s : State) (pair : Nat) : exec (.pairWakeComplete pair) s = execPairWakeComplete pair s := rfl
theorem exec_setOp (s : State) (island freq seq : Nat) : exec (.setOp island freq seq) s = execSetOp island freq seq s := rfl
theorem exec_operatingPointChange (s : State) (island : Nat) : exec (.operatingPointChange island) s = execOperatingPointChange island s := rfl
theorem exec_pdAck (s : State) (domain state : Nat) : exec (.pdAck domain state) s = execPdAck domain state s := rfl
theorem exec_pdAckTimeout (s : State) (domain : Nat) : exec (.pdAckTimeout domain) s = execPdAckTimeout domain s := rfl
theorem exec_refClockLoss (s : State) : exec .refClockLoss s = execRefClockLoss s := rfl
theorem exec_atInv (s : State) (port : Port) (part : Part) (value : Word) : exec (.atInv port part value) s = execAtInv port part value s := rfl
theorem exec_invalidationComplete (s : State) : exec .invalidationComplete s = execInvalidationComplete s := rfl
theorem exec_atTableWrite (s : State) (port : Port) (part : Part) (value : Word) : exec (.atTableWrite port part value) s = execAtTableWrite port part value s := rfl
theorem exec_atEpochHalving (s : State) : exec .atEpochHalving s = execAtEpochHalving s := rfl
theorem exec_bySignal (s : State) (port : Port) (part : Part) (value : Word) : exec (.bySignal port part value) s = execBySignal port part value s := rfl
theorem exec_bySignalRelease (s : State) (port : Port) : exec (.bySignalRelease port) s = execBySignalRelease port s := rfl
theorem exec_bySet (s : State) (port : Port) (part : Part) (value : Word) : exec (.bySet port part value) s = execBySet port part value s := rfl
theorem exec_byArm (s : State) (port : Port) (part : Part) (value : Word) : exec (.byArm port part value) s = execByArm port part value s := rfl
theorem exec_byDisarm (s : State) (port : Port) (part : Part) (value : Word) : exec (.byDisarm port part value) s = execByDisarm port part value s := rfl
theorem exec_fqDataRead (s : State) (port : Port) (f : Nat) : exec (.fqDataRead port f) s = execFqDataRead port f s := rfl
theorem exec_fqMark (s : State) (port : Port) (f : Nat) : exec (.fqMark port f) s = execFqMark port f s := rfl
theorem exec_fqRewind (s : State) (port : Port) (f : Nat) : exec (.fqRewind port f) s = execFqRewind port f s := rfl
theorem exec_fqRelease (s : State) (port : Port) (f : Nat) : exec (.fqRelease port f) s = execFqRelease port f s := rfl
theorem exec_fqMarkRelease (s : State) (port : Port) (f : Nat) : exec (.fqMarkRelease port f) s = execFqMarkRelease port f s := rfl
theorem exec_waitLong (s : State) (g : Nat) : exec (.waitLong g) s = execWaitLong g s := rfl
theorem exec_linkLock (s : State) (l : Nat) : exec (.linkLock l) s = execLinkLock l s := rfl
theorem exec_linkLockLoss (s : State) (l : Nat) : exec (.linkLockLoss l) s = execLinkLockLoss l s := rfl
theorem exec_linkSend (s : State) (l : Nat) : exec (.linkSend l) s = execLinkSend l s := rfl
theorem exec_linkIdleTimer (s : State) (l : Nat) : exec (.linkIdleTimer l) s = execLinkIdleTimer l s := rfl
theorem exec_ackTimeout (s : State) (l : Nat) : exec (.ackTimeout l) s = execAckTimeout l s := rfl
theorem exec_beaconTimer (s : State) (l : Nat) : exec (.beaconTimer l) s = execBeaconTimer l s := rfl
theorem exec_lineAckTimer (s : State) (line : Nat) : exec (.lineAckTimer line) s = execLineAckTimer line s := rfl
theorem exec_lineRetry (s : State) (line : Nat) : exec (.lineRetry line) s = execLineRetry line s := rfl
theorem exec_lineLost (s : State) (line : Nat) : exec (.lineLost line) s = execLineLost line s := rfl
theorem exec_busyRetry (s : State) (line : Nat) : exec (.busyRetry line) s = execBusyRetry line s := rfl
theorem exec_linkIdle (s : State) (l : Nat) (b : LinkBlock) : exec (.linkIdle l b) s = execLinkIdle l b s := rfl
theorem exec_linkData (s : State) (l : Nat) (b : LinkBlock) : exec (.linkData l b) s = execLinkData l b s := rfl
theorem exec_linkDataMasked (s : State) (l : Nat) (b : LinkBlock) : exec (.linkDataMasked l b) s = execLinkDataMasked l b s := rfl
theorem exec_linkAdd (s : State) (l : Nat) (b : LinkBlock) : exec (.linkAdd l b) s = execLinkAdd l b s := rfl
theorem exec_linkSignal (s : State) (l : Nat) (b : LinkBlock) : exec (.linkSignal l b) s = execLinkSignal l b s := rfl
theorem exec_lineAck (s : State) (l : Nat) (b : LinkBlock) : exec (.lineAck l b) s = execLineAck l b s := rfl
theorem exec_beacon (s : State) (l : Nat) (b : LinkBlock) : exec (.beacon l b) s = execBeacon l b s := rfl
theorem exec_fog (s : State) (l : Nat) (b : LinkBlock) : exec (.fog l b) s = execFog l b s := rfl
theorem exec_nack (s : State) (l : Nat) (b : LinkBlock) : exec (.nack l b) s = execNack l b s := rfl
theorem exec_close (s : State) (l : Nat) (b : LinkBlock) : exec (.close l b) s = execClose l b s := rfl
theorem exec_busy (s : State) (l : Nat) (b : LinkBlock) : exec (.busy l b) s = execBusy l b s := rfl
theorem exec_restore (s : State) (port : Port) (l : Nat) : exec (.restore port l) s = execRestore port l s := rfl
theorem exec_memoryPortTimeout (s : State) (p : Nat) : exec (.memoryPortTimeout p) s = execMemoryPortTimeout p s := rfl
theorem exec_mpFailed (s : State) (p : Nat) : exec (.mpFailed p) s = execMpFailed p s := rfl
theorem exec_mpDrained (s : State) (p : Nat) : exec (.mpDrained p) s = execMpDrained p s := rfl
theorem exec_quiesceTimeout (s : State) (p : Nat) : exec (.quiesceTimeout p) s = execQuiesceTimeout p s := rfl
theorem exec_bankPortTimeout (s : State) (bank port : Nat) : exec (.bankPortTimeout bank port) s = execBankPortTimeout bank port s := rfl
theorem exec_hmRetireReq (s : State) (port : Port) (part : Part) (value : Word) : exec (.hmRetireReq port part value) s = execHmRetireReq port part value s := rfl
theorem exec_ageingPeriod (s : State) (margins : List Nat) : exec (.ageingPeriod margins) s = execAgeingPeriod margins s := rfl
theorem exec_memoryRepairDone (s : State) (mem : Nat) (ok : Bool) : exec (.memoryRepairDone mem ok) s = execMemoryRepairDone mem ok s := rfl
theorem exec_keeperWatchdog (s : State) : exec .keeperWatchdog s = execKeeperWatchdog s := rfl
theorem exec_fatalDumpWritten (s : State) (trap : Bytes) : exec (.fatalDumpWritten trap) s = execFatalDumpWritten trap s := rfl
theorem exec_tpLockSet (s : State) (port : Port) : exec (.tpLockSet port) s = execTpLockSet port s := rfl
theorem exec_tpInjArm (s : State) (port : Port) (part : Part) (value : Word) : exec (.tpInjArm port part value) s = execTpInjArm port part value s := rfl
theorem exec_tpTgRun (s : State) (port : Port) (p : Nat) (part : Part) (value : Word) : exec (.tpTgRun port p part value) s = execTpTgRun port p part value s := rfl
theorem exec_tgCycle (s : State) (p : Nat) : exec (.tgCycle p) s = execTgCycle p s := rfl
theorem exec_regAccess (s : State) (dr : BitVec 88) : exec (.regAccess dr) s = execRegAccess dr s := rfl
theorem exec_idcode (s : State) : exec .idcode s = execIdcode s := rfl
theorem exec_wsExtest (s : State) : exec .wsExtest s = execWsExtest s := rfl
theorem exec_wsIntest (s : State) : exec .wsIntest s = execWsIntest s := rfl
theorem exec_wsBypass (s : State) : exec .wsBypass s = execWsBypass s := rfl
theorem exec_bypass (s : State) : exec .bypass s = execBypass s := rfl
theorem exec_limitWindowExpiry (s : State) : exec .limitWindowExpiry s = execLimitWindowExpiry s := rfl
theorem exec_refClockReturn (s : State) : exec .refClockReturn s = execRefClockReturn s := rfl

end Sys2Proof.Machine
end

