-- ==== Sys2Proof/Laws/Fields.lean ====
section
/-! SUPPORT. The laws of bit fields: what a field of a word holds after a field or a bit of it is set. -/

namespace Sys2Proof.Machine

theorem bit_and (a b : Word) (i : Nat) : bit (a &&& b) i = (bit a i && bit b i) := by simp [bit]

theorem bit_or (a b : Word) (i : Nat) : bit (a ||| b) i = (bit a i || bit b i) := by simp [bit]

theorem bit_not (a : Word) {i : Nat} (h : i < 64) : bit (~~~a) i = !bit a i := by simp [bit, h]

/-- A word is what its bits are. -/
theorem word_ext {a b : Word} (h : ∀ i, i < 64 → bit a i = bit b i) : a = b := BitVec.eq_of_getLsbD_eq fun i hi => h i hi

/-- A field is the number of the bits from its low to its high end. -/
theorem fld_testBit (w : Word) (hi lo j : Nat) : (fld w hi lo).testBit j = (decide (j < hi + 1 - lo) && bit w (lo + j)) := by
  simp [fld, bit, Nat.testBit_mod_two_pow, Nat.testBit_div_two_pow, Nat.add_comm, BitVec.testBit_toNat]

theorem bit_fmask {hi lo i : Nat} (h : i < 64) : bit (fmask hi lo) i = (decide (lo ≤ i) && decide (i ≤ hi)) := by
  simp only [fmask, bit, BitVec.getLsbD_ofNat, h, decide_true, Bool.true_and]
  rw [Nat.testBit_two_pow_mul, Nat.testBit_two_pow_sub_one, Bool.eq_iff_iff]
  simp only [Bool.and_eq_true, decide_eq_true_eq]
  omega

/-- Setting a field replaces its bits and no other bit. -/
theorem bit_putFld {w : Word} {hi lo v i : Nat} (h : i < 64) :
    bit (putFld w hi lo v) i = (if lo ≤ i ∧ i ≤ hi then v.testBit (i - lo) else bit w i) := by
  rw [putFld, bit_or, bit_and, bit_not _ h, bit_fmask h]
  have e : bit (BitVec.ofNat 64 (2 ^ lo * (v % 2 ^ (hi + 1 - lo)))) i = (decide (lo ≤ i) && (decide (i ≤ hi) && v.testBit (i - lo))) := by
    simp only [bit, BitVec.getLsbD_ofNat, h, decide_true, Bool.true_and]
    rw [Nat.testBit_two_pow_mul, Nat.testBit_mod_two_pow]
    by_cases h1 : lo ≤ i
    · simp only [h1, decide_true, Bool.true_and]
      congr 1
      simp only [decide_eq_decide]; omega
    · simp [h1]
  rw [e]
  by_cases h1 : lo ≤ i <;> by_cases h2 : i ≤ hi <;> simp [h1, h2]

/-- A field that is set reads the number, reduced to the field's width. -/
theorem fld_putFld {w : Word} {hi lo v : Nat} (h : hi < 64) : fld (putFld w hi lo v) hi lo = v % 2 ^ (hi + 1 - lo) := by
  apply Nat.eq_of_testBit_eq
  intro j
  rw [fld_testBit, Nat.testBit_mod_two_pow]
  by_cases hj : j < hi + 1 - lo
  · rw [bit_putFld (by omega), if_pos (by omega)]; simp
  · simp [hj]

/-- A field that does not meet the one that is set reads as before. -/
theorem fld_putFld_ne {w : Word} {hi lo v hi' lo' : Nat} (h : hi' < 64) (hd : hi' < lo ∨ hi < lo') :
    fld (putFld w hi lo v) hi' lo' = fld w hi' lo' := by
  apply Nat.eq_of_testBit_eq
  intro j
  rw [fld_testBit, fld_testBit]
  by_cases hj : j < hi' + 1 - lo'
  · rw [bit_putFld (by omega), if_neg (by omega)]
  · simp [hj]

theorem bit_putFld_ne {w : Word} {hi lo v i : Nat} (h : i < 64) (hd : i < lo ∨ hi < i) : bit (putFld w hi lo v) i = bit w i := by
  rw [bit_putFld h, if_neg (by omega)]

/-- A bit that is set or cleared reads so, and no other bit changes. -/
theorem bit_putBit {w : Word} {i j : Nat} {b : Bool} (h : j < 64) : bit (putBit w i b) j = if j = i then b else bit w j := by
  rw [putBit, bit_putFld h]
  by_cases e : j = i
  · subst e; cases b <;> simp
  · rw [if_neg (by omega), if_neg e]

theorem fld_lt (w : Word) (hi lo : Nat) : fld w hi lo < 2 ^ (hi + 1 - lo) := Nat.mod_lt _ (Nat.two_pow_pos _)

theorem bit_merge {a b m : Word} {i : Nat} (h : i < 64) : bit (merge a b m) i = if bit m i then bit b i else bit a i := by
  rw [merge, bit_or, bit_and, bit_and, bit_not _ h]
  cases bit m i <;> simp

end Sys2Proof.Machine
end

