-- ==== Sys2Proof/Laws/Gates.lean ====
section
/-! SUPPORT. What the gates of a meaning do: when a command has its effect, and when it leaves the state as it is. -/

namespace Sys2Proof.Machine

variable {f : State → State} {s t : State}

/-- An answer changes nothing of the new state but the queue. -/
theorem answer_eq : answer s t = .next { t with pending := s.pending } := rfl

theorem answer_self : answer s s = .next s := rfl

/-- A meaning that ends in an answer answers a next state with the queue as it was. -/
theorem answer_completes : ∃ u, answer s t = .next u ∧ u.pending = s.pending := ⟨_, rfl, rfl⟩

theorem outOfReset_completes : ∃ u, outOfReset f s = .next u ∧ u.pending = s.pending := answer_completes
theorem whenNormal_completes : ∃ u, whenNormal f s = .next u ∧ u.pending = s.pending := answer_completes
theorem whenServing_completes : ∃ u, whenServing f s = .next u ∧ u.pending = s.pending := answer_completes
theorem whenIssuing_completes : ∃ u, whenIssuing f s = .next u ∧ u.pending = s.pending := answer_completes

theorem outOfReset_acts (h : s.rst.inEffect = false) : outOfReset f s = .next { f s with pending := s.pending } := by
  simp [outOfReset, answer, h]

theorem outOfReset_inert (h : s.rst.inEffect = true) : outOfReset f s = .next s := by simp [outOfReset, answer, h]

theorem whenNormal_acts (h : s.normal = true) : whenNormal f s = .next { f s with pending := s.pending } := by
  simp [whenNormal, answer, h]

theorem whenNormal_inert (h : s.normal = false) : whenNormal f s = .next s := by simp [whenNormal, answer, h]

theorem whenServing_acts (h : s.serving = true) : whenServing f s = .next { f s with pending := s.pending } := by
  simp [whenServing, answer, h]

theorem whenServing_inert (h : s.serving = false) : whenServing f s = .next s := by simp [whenServing, answer, h]

theorem whenIssuing_acts (h : s.issuing = true) : whenIssuing f s = .next { f s with pending := s.pending } := by
  simp [whenIssuing, answer, h]

theorem whenIssuing_inert (h : s.issuing = false) : whenIssuing f s = .next s := by simp [whenIssuing, answer, h]

/-- The queue of commands is no part of what a mode test looks at. -/
@[simp] theorem normal_pending (p : List Instr) : ({ s with pending := p } : State).normal = s.normal := rfl
@[simp] theorem issuing_pending (p : List Instr) : ({ s with pending := p } : State).issuing = s.issuing := rfl
@[simp] theorem serving_pending (p : List Instr) : ({ s with pending := p } : State).serving = s.serving := rfl

theorem normal_of_issuing (h : s.issuing = true) : s.normal = true := by
  simp only [State.issuing, Bool.and_eq_true] at h; exact h.1.1

theorem serving_of_normal (h : s.normal = true) : s.serving = true := by simp [State.serving, h]

theorem issuing_iff : s.issuing = true ↔ s.normal = true ∧ s.kp.fatal = none ∧ s.rst.abort = false := by
  simp [State.issuing, and_assoc]

theorem normal_iff : s.normal = true ↔ s.rst.inEffect = false ∧ s.kp.mode = .normal := by simp [State.normal]

end Sys2Proof.Machine
end

