-- ==== Sys2Proof/Laws/Tables.lean ====
section
/-! SUPPORT. The laws of the sparse tables and of the register files: what a lookup gives after an update, and that every update keeps
the rising order of the keys. -/

namespace Sys2Proof.Machine

variable {α β : Type} {t : List (Nat × α)} {j k : Nat} {v : α}

/-! ### Lookups -/

@[simp] theorem tget_nil : tget ([] : List (Nat × α)) k = none := rfl

theorem tget_cons (a : α) (r : List (Nat × α)) : tget ((j, a) :: r) k = if j = k then some a else tget r k := rfl

theorem tget_tput (t : List (Nat × α)) (k j : Nat) (v : α) : tget (tput t k v) j = if j = k then some v else tget t j := by
  induction t with
  | nil => by_cases h : k = j <;> simp [tput, tget, h, eq_comm]
  | cons p r ih =>
    obtain ⟨i, a⟩ := p
    simp only [tput]
    split
    · by_cases h : k = j <;> simp [tget, h, eq_comm]
    · split
      · subst_vars
        by_cases h : i = j
        · simp [tget, h]
        · simp [tget, h, Ne.symm h]
      · simp only [tget, ih]
        by_cases h : i = j
        · subst h; simp [eq_comm, *]
        · simp [h]

@[simp] theorem tget_tput_self (t : List (Nat × α)) (k : Nat) (v : α) : tget (tput t k v) k = some v := by simp [tget_tput]

theorem tget_tput_ne (h : j ≠ k) : tget (tput t k v) j = tget t j := by simp [tget_tput, h]

theorem tget_tdel_ne (h : j ≠ k) : tget (tdel t k) j = tget t j := by
  induction t with
  | nil => rfl
  | cons p r ih =>
    obtain ⟨i, a⟩ := p
    simp only [tdel, tget]
    split
    · subst_vars; simp [Ne.symm h]
    · simp only [tget, ih]

/-! ### Rising keys -/

/-- In a table with rising keys every later key is greater than the first. -/
theorem tsorted_cons {a : α} {r : List (Nat × α)} : tsorted ((j, a) :: r) = true ↔ (∀ p ∈ r, j < p.1) ∧ tsorted r = true := by
  induction r generalizing j a with
  | nil => simp [tsorted]
  | cons p r ih =>
    obtain ⟨i, b⟩ := p
    rw [tsorted, Bool.and_eq_true, decide_eq_true_eq, ih]
    refine ⟨fun ⟨h, h', hs⟩ => ⟨?_, h', hs⟩, fun ⟨h, hs⟩ => ⟨h _ (List.mem_cons_self ..), hs⟩⟩
    intro p hp
    rcases List.mem_cons.mp hp with rfl | hp
    · exact h
    · exact h.trans (h' p hp)

theorem mem_tput {p : Nat × α} : p ∈ tput t k v → p = (k, v) ∨ p ∈ t := by
  induction t with
  | nil => simp [tput]
  | cons q r ih =>
    obtain ⟨i, a⟩ := q
    simp only [tput]
    split
    · simp
    · split
      · intro h; rcases List.mem_cons.mp h with h | h <;> simp [h]
      · intro h
        rcases List.mem_cons.mp h with h | h
        · simp [h]
        · rcases ih h with h | h <;> simp [h]

theorem mem_tdel {p : Nat × α} : p ∈ tdel t k → p ∈ t := by
  induction t with
  | nil => simp [tdel]
  | cons q r ih =>
    obtain ⟨i, a⟩ := q
    simp only [tdel]
    split
    · exact List.mem_cons_of_mem _
    · intro h
      rcases List.mem_cons.mp h with h | h
      · simp [h]
      · simp [ih h]

theorem tsorted_tput (h : tsorted t = true) (k : Nat) (v : α) : tsorted (tput t k v) = true := by
  induction t with
  | nil => rfl
  | cons q r ih =>
    obtain ⟨i, a⟩ := q
    have hr := tsorted_cons.mp h
    simp only [tput]
    split
    · rename_i hk
      exact tsorted_cons.mpr ⟨fun p hp => by
        rcases List.mem_cons.mp hp with rfl | hp
        · exact hk
        · exact hk.trans (hr.1 p hp), h⟩
    · split
      · subst_vars; exact tsorted_cons.mpr hr
      · refine tsorted_cons.mpr ⟨fun p hp => ?_, ih hr.2⟩
        rcases mem_tput hp with rfl | hp
        · simp only; omega
        · exact hr.1 p hp

theorem tsorted_tdel (h : tsorted t = true) (k : Nat) : tsorted (tdel t k) = true := by
  induction t with
  | nil => rfl
  | cons q r ih =>
    obtain ⟨i, a⟩ := q
    have hr := tsorted_cons.mp h
    simp only [tdel]
    split
    · exact hr.2
    · exact tsorted_cons.mpr ⟨fun p hp => hr.1 p (mem_tdel hp), ih hr.2⟩

theorem tsorted_tmod (h : tsorted t = true) (k : Nat) (f : α → α) : tsorted (tmod t k f) = true := by
  unfold tmod
  split
  · exact h
  · exact tsorted_tput h ..

theorem tsorted_filter (h : tsorted t = true) (p : Nat × α → Bool) : tsorted (t.filter p) = true := by
  induction t with
  | nil => rfl
  | cons q r ih =>
    obtain ⟨i, a⟩ := q
    have hr := tsorted_cons.mp h
    rw [List.filter_cons]
    split
    · exact tsorted_cons.mpr ⟨fun x hx => hr.1 x (List.mem_filter.mp hx).1, ih hr.2⟩
    · exact ih hr.2

theorem tsorted_map (h : tsorted t = true) (f : Nat × α → β) : tsorted (t.map (fun p => (p.1, f p))) = true := by
  induction t with
  | nil => rfl
  | cons q r ih =>
    obtain ⟨i, a⟩ := q
    have hr := tsorted_cons.mp h
    refine tsorted_cons.mpr ⟨fun x hx => ?_, ih hr.2⟩
    obtain ⟨y, hy, rfl⟩ := List.mem_map.mp hx
    exact hr.1 y hy

theorem tget_none_of_lt (h : ∀ p ∈ t, k < p.1) : tget t k = none := by
  induction t with
  | nil => rfl
  | cons q r ih =>
    obtain ⟨i, a⟩ := q
    have hi : i ≠ k := by have := h _ (List.mem_cons_self ..); simp only at this; omega
    simp [tget, hi, ih fun p hp => h p (List.mem_cons_of_mem _ hp)]

theorem tget_tdel_self (h : tsorted t = true) : tget (tdel t k) k = none := by
  induction t with
  | nil => rfl
  | cons q r ih =>
    obtain ⟨i, a⟩ := q
    have hr := tsorted_cons.mp h
    simp only [tdel]
    split
    · subst_vars; exact tget_none_of_lt hr.1
    · rename_i hi; simp [tget, hi, ih hr.2]

theorem tget_tdel (h : tsorted t = true) : tget (tdel t k) j = if j = k then none else tget t j := by
  split
  · subst_vars; exact tget_tdel_self h
  · rename_i hj; exact tget_tdel_ne hj

/-! ### Register files -/

theorem rput_eq (g : Nat) (f : RegFile) (k : Nat) (v : Word) :
    rput g f k v = if v = resetOf g k then tdel f k else tput f k v := by cases f <;> rfl

/-- A register that is set reads its new value, and every other register reads as before. -/
theorem rget_rput {f : RegFile} (h : tsorted f = true) (g k j : Nat) (v : Word) :
    rget g (rput g f k v) j = if j = k then v else rget g f j := by
  simp only [rget, rput_eq]
  split
  · rw [tget_tdel h]; split <;> simp_all
  · rw [tget_tput]; split <;> simp_all

theorem tsorted_rput {f : RegFile} (h : tsorted f = true) (g k : Nat) (v : Word) : tsorted (rput g f k v) = true := by
  rw [rput_eq]
  split
  · exact tsorted_tdel h k
  · exact tsorted_tput h k v

/-- A register whose reset value is the same on every die: all but QM_FETCH_CFG, MV_CFG and EX_CFG. -/
theorem resetOf_same {k : Nat} (h : (regRow (k % 2 ^ 24)).all (fun r => k % 2 ^ 24 != Reg.qmFetchCfg && r.base != Reg.mvCfg 0 &&
    r.base != Reg.exCfg 0) = true) (g g' : Nat) : resetOf g k = resetOf g' k := by
  unfold resetOf
  generalize k % 2 ^ 24 = off at h ⊢
  cases hr : regRow off with
  | none => simp [hr]
  | some r =>
    simp only [hr, Option.all_some, Bool.and_eq_true, bne_iff_ne] at h
    simp [hr, h]

theorem rget_rput_ne (f : RegFile) (g : Nat) {k j : Nat} (v : Word) (h : j ≠ k) : rget g (rput g f k v) j = rget g f j := by
  simp only [rget, rput_eq]
  split
  · rw [tget_tdel_ne h]
  · rw [tget_tput_ne h]

end Sys2Proof.Machine
end

