-- ==== Sys2Proof/Laws/Memory.lean ====
section
/-! SUPPORT. The laws of the window memory: a byte written reads back, every other byte reads as before, and every operation on the
memory keeps its canonical form. -/

namespace Sys2Proof.Machine

theorem Memory.wf_iff {ram : List Host.Cell} : Memory.wf ram = true ↔ tsorted ram = true ∧ ∀ c ∈ ram, c.2 ≠ Memory.blank := by
  simp [Memory.wf]

theorem ramByte_ramPut {ram : List Host.Cell} (h : Memory.wf ram = true) (o a : Nat) (b : Byte) :
    ramByte (ramPut ram o b) a = if a = o then b else ramByte ram a := by
  have hs := (Memory.wf_iff.mp h).1
  simp only [ramByte, ramPut]
  split
  · rw [tget_tdel hs]; split <;> simp_all
  · rw [tget_tput]; split <;> simp_all

theorem Memory.wf_ramPut {ram : List Host.Cell} (h : Memory.wf ram = true) (o : Nat) (b : Byte) : Memory.wf (ramPut ram o b) = true := by
  obtain ⟨hs, hz⟩ := Memory.wf_iff.mp h
  unfold ramPut
  split
  · exact Memory.wf_iff.mpr ⟨tsorted_tdel hs o, fun c hc => hz c (mem_tdel hc)⟩
  · rename_i hb
    refine Memory.wf_iff.mpr ⟨tsorted_tput hs o b, fun c hc => ?_⟩
    rcases mem_tput hc with rfl | hc
    · exact hb
    · exact hz c hc

theorem Memory.wf_ramWrite {ram : List Host.Cell} (h : Memory.wf ram = true) (o : Nat) (data : Bytes) (en : List Bool) :
    Memory.wf (ramWrite ram o data en) = true := by
  induction data generalizing ram o en with
  | nil => simpa [ramWrite] using h
  | cons b bs ih =>
    cases en with
    | nil => simpa [ramWrite] using h
    | cons e es =>
      simp only [ramWrite]
      exact ih (by split; exacts [Memory.wf_ramPut h o b, h]) ..

theorem Memory.wf_filter {ram : List Host.Cell} (h : Memory.wf ram = true) (p : Host.Cell → Bool) :
    Memory.wf (ram.filter p) = true := by
  obtain ⟨hs, hz⟩ := Memory.wf_iff.mp h
  exact Memory.wf_iff.mpr ⟨tsorted_filter hs p, fun c hc => hz c (List.mem_filter.mp hc).1⟩

/-- A bank pair that loses its power, or a bank that is retired, leaves the rest of the window in its form. -/
theorem Memory.wf_dropPair {ram : List Host.Cell} (h : Memory.wf ram = true) (p : Nat) : Memory.wf (dropPair ram p) = true :=
  Memory.wf_filter h _

theorem Memory.wf_reset : Memory.wf State.reset.win.ram = true := rfl

@[simp] theorem ramRead_length (ram : List Host.Cell) (o len : Nat) : (ramRead ram o len).length = len := by simp [ramRead]

end Sys2Proof.Machine
end

