-- ==== Sys2Proof/Laws/State.lean ====
section
/-! SUPPORT. What each plain update of the state does to each field of it: one lemma for each field and update, so that no proof unfolds
a record update; and the reads that undo the writes. -/

namespace Sys2Proof.Machine

variable (s : State)

/-! `State.useFree` -/

@[simp] theorem State.useFree_pending : (s.useFree).pending = s.pending := rfl
@[simp] theorem State.useFree_free : (s.useFree).free = s.free + 1 := rfl
@[simp] theorem State.useFree_ids : (s.useFree).ids = s.ids := rfl
@[simp] theorem State.useFree_out : (s.useFree).out = s.out := rfl
@[simp] theorem State.useFree_die : (s.useFree).die = s.die := rfl
@[simp] theorem State.useFree_rst : (s.useFree).rst = s.rst := rfl
@[simp] theorem State.useFree_kp : (s.useFree).kp = s.kp := rfl
@[simp] theorem State.useFree_regs : (s.useFree).regs = s.regs := rfl
@[simp] theorem State.useFree_cfg : (s.useFree).cfg = s.cfg := rfl
@[simp] theorem State.useFree_commit : (s.useFree).commit = s.commit := rfl
@[simp] theorem State.useFree_images : (s.useFree).images = s.images := rfl
@[simp] theorem State.useFree_admin : (s.useFree).admin = s.admin := rfl
@[simp] theorem State.useFree_queues : (s.useFree).queues = s.queues := rfl
@[simp] theorem State.useFree_qmParked : (s.useFree).qmParked = s.qmParked := rfl
@[simp] theorem State.useFree_fetchOrder : (s.useFree).fetchOrder = s.fetchOrder := rfl
@[simp] theorem State.useFree_qmResults : (s.useFree).qmResults = s.qmResults := rfl
@[simp] theorem State.useFree_descs : (s.useFree).descs = s.descs := rfl
@[simp] theorem State.useFree_reqs : (s.useFree).reqs = s.reqs := rfl
@[simp] theorem State.useFree_xl : (s.useFree).xl = s.xl := rfl
@[simp] theorem State.useFree_sync : (s.useFree).sync = s.sync := rfl
@[simp] theorem State.useFree_win : (s.useFree).win = s.win := rfl
@[simp] theorem State.useFree_cps : (s.useFree).cps = s.cps := rfl
@[simp] theorem State.useFree_fab : (s.useFree).fab = s.fab := rfl
@[simp] theorem State.useFree_sup : (s.useFree).sup = s.sup := rfl
@[simp] theorem State.useFree_tap : (s.useFree).tap = s.tap := rfl
@[simp] theorem State.useFree_drr : (s.useFree).drr = s.drr := rfl

/-! `State.useId` -/

@[simp] theorem State.useId_pending : (s.useId).pending = s.pending := rfl
@[simp] theorem State.useId_free : (s.useId).free = s.free := rfl
@[simp] theorem State.useId_ids : (s.useId).ids = s.ids + 1 := rfl
@[simp] theorem State.useId_out : (s.useId).out = s.out := rfl
@[simp] theorem State.useId_die : (s.useId).die = s.die := rfl
@[simp] theorem State.useId_rst : (s.useId).rst = s.rst := rfl
@[simp] theorem State.useId_kp : (s.useId).kp = s.kp := rfl
@[simp] theorem State.useId_regs : (s.useId).regs = s.regs := rfl
@[simp] theorem State.useId_cfg : (s.useId).cfg = s.cfg := rfl
@[simp] theorem State.useId_commit : (s.useId).commit = s.commit := rfl
@[simp] theorem State.useId_images : (s.useId).images = s.images := rfl
@[simp] theorem State.useId_admin : (s.useId).admin = s.admin := rfl
@[simp] theorem State.useId_queues : (s.useId).queues = s.queues := rfl
@[simp] theorem State.useId_qmParked : (s.useId).qmParked = s.qmParked := rfl
@[simp] theorem State.useId_fetchOrder : (s.useId).fetchOrder = s.fetchOrder := rfl
@[simp] theorem State.useId_qmResults : (s.useId).qmResults = s.qmResults := rfl
@[simp] theorem State.useId_descs : (s.useId).descs = s.descs := rfl
@[simp] theorem State.useId_reqs : (s.useId).reqs = s.reqs := rfl
@[simp] theorem State.useId_xl : (s.useId).xl = s.xl := rfl
@[simp] theorem State.useId_sync : (s.useId).sync = s.sync := rfl
@[simp] theorem State.useId_win : (s.useId).win = s.win := rfl
@[simp] theorem State.useId_cps : (s.useId).cps = s.cps := rfl
@[simp] theorem State.useId_fab : (s.useId).fab = s.fab := rfl
@[simp] theorem State.useId_sup : (s.useId).sup = s.sup := rfl
@[simp] theorem State.useId_tap : (s.useId).tap = s.tap := rfl
@[simp] theorem State.useId_drr : (s.useId).drr = s.drr := rfl

/-! `State.emit` -/

@[simp] theorem State.emit_pending (o : Out) : (s.emit o).pending = s.pending := rfl
@[simp] theorem State.emit_free (o : Out) : (s.emit o).free = s.free := rfl
@[simp] theorem State.emit_ids (o : Out) : (s.emit o).ids = s.ids := rfl
@[simp] theorem State.emit_out (o : Out) : (s.emit o).out = s.out ++ [o] := rfl
@[simp] theorem State.emit_die (o : Out) : (s.emit o).die = s.die := rfl
@[simp] theorem State.emit_rst (o : Out) : (s.emit o).rst = s.rst := rfl
@[simp] theorem State.emit_kp (o : Out) : (s.emit o).kp = s.kp := rfl
@[simp] theorem State.emit_regs (o : Out) : (s.emit o).regs = s.regs := rfl
@[simp] theorem State.emit_cfg (o : Out) : (s.emit o).cfg = s.cfg := rfl
@[simp] theorem State.emit_commit (o : Out) : (s.emit o).commit = s.commit := rfl
@[simp] theorem State.emit_images (o : Out) : (s.emit o).images = s.images := rfl
@[simp] theorem State.emit_admin (o : Out) : (s.emit o).admin = s.admin := rfl
@[simp] theorem State.emit_queues (o : Out) : (s.emit o).queues = s.queues := rfl
@[simp] theorem State.emit_qmParked (o : Out) : (s.emit o).qmParked = s.qmParked := rfl
@[simp] theorem State.emit_fetchOrder (o : Out) : (s.emit o).fetchOrder = s.fetchOrder := rfl
@[simp] theorem State.emit_qmResults (o : Out) : (s.emit o).qmResults = s.qmResults := rfl
@[simp] theorem State.emit_descs (o : Out) : (s.emit o).descs = s.descs := rfl
@[simp] theorem State.emit_reqs (o : Out) : (s.emit o).reqs = s.reqs := rfl
@[simp] theorem State.emit_xl (o : Out) : (s.emit o).xl = s.xl := rfl
@[simp] theorem State.emit_sync (o : Out) : (s.emit o).sync = s.sync := rfl
@[simp] theorem State.emit_win (o : Out) : (s.emit o).win = s.win := rfl
@[simp] theorem State.emit_cps (o : Out) : (s.emit o).cps = s.cps := rfl
@[simp] theorem State.emit_fab (o : Out) : (s.emit o).fab = s.fab := rfl
@[simp] theorem State.emit_sup (o : Out) : (s.emit o).sup = s.sup := rfl
@[simp] theorem State.emit_tap (o : Out) : (s.emit o).tap = s.tap := rfl
@[simp] theorem State.emit_drr (o : Out) : (s.emit o).drr = s.drr := rfl

/-! `State.setReg` -/

@[simp] theorem State.setReg_pending (k : Nat) (v : Word) : (s.setReg k v).pending = s.pending := rfl
@[simp] theorem State.setReg_free (k : Nat) (v : Word) : (s.setReg k v).free = s.free := rfl
@[simp] theorem State.setReg_ids (k : Nat) (v : Word) : (s.setReg k v).ids = s.ids := rfl
@[simp] theorem State.setReg_out (k : Nat) (v : Word) : (s.setReg k v).out = s.out := rfl
@[simp] theorem State.setReg_die (k : Nat) (v : Word) : (s.setReg k v).die = s.die := rfl
@[simp] theorem State.setReg_rst (k : Nat) (v : Word) : (s.setReg k v).rst = s.rst := rfl
@[simp] theorem State.setReg_kp (k : Nat) (v : Word) : (s.setReg k v).kp = s.kp := rfl
@[simp] theorem State.setReg_regs (k : Nat) (v : Word) : (s.setReg k v).regs = rput s.grade s.regs k v := rfl
@[simp] theorem State.setReg_cfg (k : Nat) (v : Word) : (s.setReg k v).cfg = s.cfg := rfl
@[simp] theorem State.setReg_commit (k : Nat) (v : Word) : (s.setReg k v).commit = s.commit := rfl
@[simp] theorem State.setReg_images (k : Nat) (v : Word) : (s.setReg k v).images = s.images := rfl
@[simp] theorem State.setReg_admin (k : Nat) (v : Word) : (s.setReg k v).admin = s.admin := rfl
@[simp] theorem State.setReg_queues (k : Nat) (v : Word) : (s.setReg k v).queues = s.queues := rfl
@[simp] theorem State.setReg_qmParked (k : Nat) (v : Word) : (s.setReg k v).qmParked = s.qmParked := rfl
@[simp] theorem State.setReg_fetchOrder (k : Nat) (v : Word) : (s.setReg k v).fetchOrder = s.fetchOrder := rfl
@[simp] theorem State.setReg_qmResults (k : Nat) (v : Word) : (s.setReg k v).qmResults = s.qmResults := rfl
@[simp] theorem State.setReg_descs (k : Nat) (v : Word) : (s.setReg k v).descs = s.descs := rfl
@[simp] theorem State.setReg_reqs (k : Nat) (v : Word) : (s.setReg k v).reqs = s.reqs := rfl
@[simp] theorem State.setReg_xl (k : Nat) (v : Word) : (s.setReg k v).xl = s.xl := rfl
@[simp] theorem State.setReg_sync (k : Nat) (v : Word) : (s.setReg k v).sync = s.sync := rfl
@[simp] theorem State.setReg_win (k : Nat) (v : Word) : (s.setReg k v).win = s.win := rfl
@[simp] theorem State.setReg_cps (k : Nat) (v : Word) : (s.setReg k v).cps = s.cps := rfl
@[simp] theorem State.setReg_fab (k : Nat) (v : Word) : (s.setReg k v).fab = s.fab := rfl
@[simp] theorem State.setReg_sup (k : Nat) (v : Word) : (s.setReg k v).sup = s.sup := rfl
@[simp] theorem State.setReg_tap (k : Nat) (v : Word) : (s.setReg k v).tap = s.tap := rfl
@[simp] theorem State.setReg_drr (k : Nat) (v : Word) : (s.setReg k v).drr = s.drr := rfl

/-! `State.setFld` -/

@[simp] theorem State.setFld_pending (k hi lo v : Nat) : (s.setFld k hi lo v).pending = s.pending := rfl
@[simp] theorem State.setFld_free (k hi lo v : Nat) : (s.setFld k hi lo v).free = s.free := rfl
@[simp] theorem State.setFld_ids (k hi lo v : Nat) : (s.setFld k hi lo v).ids = s.ids := rfl
@[simp] theorem State.setFld_out (k hi lo v : Nat) : (s.setFld k hi lo v).out = s.out := rfl
@[simp] theorem State.setFld_die (k hi lo v : Nat) : (s.setFld k hi lo v).die = s.die := rfl
@[simp] theorem State.setFld_rst (k hi lo v : Nat) : (s.setFld k hi lo v).rst = s.rst := rfl
@[simp] theorem State.setFld_kp (k hi lo v : Nat) : (s.setFld k hi lo v).kp = s.kp := rfl
@[simp] theorem State.setFld_regs (k hi lo v : Nat) : (s.setFld k hi lo v).regs = rput s.grade s.regs k (putFld (s.reg k) hi lo v) := rfl
@[simp] theorem State.setFld_cfg (k hi lo v : Nat) : (s.setFld k hi lo v).cfg = s.cfg := rfl
@[simp] theorem State.setFld_commit (k hi lo v : Nat) : (s.setFld k hi lo v).commit = s.commit := rfl
@[simp] theorem State.setFld_images (k hi lo v : Nat) : (s.setFld k hi lo v).images = s.images := rfl
@[simp] theorem State.setFld_admin (k hi lo v : Nat) : (s.setFld k hi lo v).admin = s.admin := rfl
@[simp] theorem State.setFld_queues (k hi lo v : Nat) : (s.setFld k hi lo v).queues = s.queues := rfl
@[simp] theorem State.setFld_qmParked (k hi lo v : Nat) : (s.setFld k hi lo v).qmParked = s.qmParked := rfl
@[simp] theorem State.setFld_fetchOrder (k hi lo v : Nat) : (s.setFld k hi lo v).fetchOrder = s.fetchOrder := rfl
@[simp] theorem State.setFld_qmResults (k hi lo v : Nat) : (s.setFld k hi lo v).qmResults = s.qmResults := rfl
@[simp] theorem State.setFld_descs (k hi lo v : Nat) : (s.setFld k hi lo v).descs = s.descs := rfl
@[simp] theorem State.setFld_reqs (k hi lo v : Nat) : (s.setFld k hi lo v).reqs = s.reqs := rfl
@[simp] theorem State.setFld_xl (k hi lo v : Nat) : (s.setFld k hi lo v).xl = s.xl := rfl
@[simp] theorem State.setFld_sync (k hi lo v : Nat) : (s.setFld k hi lo v).sync = s.sync := rfl
@[simp] theorem State.setFld_win (k hi lo v : Nat) : (s.setFld k hi lo v).win = s.win := rfl
@[simp] theorem State.setFld_cps (k hi lo v : Nat) : (s.setFld k hi lo v).cps = s.cps := rfl
@[simp] theorem State.setFld_fab (k hi lo v : Nat) : (s.setFld k hi lo v).fab = s.fab := rfl
@[simp] theorem State.setFld_sup (k hi lo v : Nat) : (s.setFld k hi lo v).sup = s.sup := rfl
@[simp] theorem State.setFld_tap (k hi lo v : Nat) : (s.setFld k hi lo v).tap = s.tap := rfl
@[simp] theorem State.setFld_drr (k hi lo v : Nat) : (s.setFld k hi lo v).drr = s.drr := rfl

/-! `State.bump` -/

@[simp] theorem State.bump_pending (k hi lo n : Nat) : (s.bump k hi lo n).pending = s.pending := rfl
@[simp] theorem State.bump_free (k hi lo n : Nat) : (s.bump k hi lo n).free = s.free := rfl
@[simp] theorem State.bump_ids (k hi lo n : Nat) : (s.bump k hi lo n).ids = s.ids := rfl
@[simp] theorem State.bump_out (k hi lo n : Nat) : (s.bump k hi lo n).out = s.out := rfl
@[simp] theorem State.bump_die (k hi lo n : Nat) : (s.bump k hi lo n).die = s.die := rfl
@[simp] theorem State.bump_rst (k hi lo n : Nat) : (s.bump k hi lo n).rst = s.rst := rfl
@[simp] theorem State.bump_kp (k hi lo n : Nat) : (s.bump k hi lo n).kp = s.kp := rfl
@[simp] theorem State.bump_regs (k hi lo n : Nat) : (s.bump k hi lo n).regs = rput s.grade s.regs k (putFld (s.reg k) hi lo (s.regFld k hi lo + n)) := rfl
@[simp] theorem State.bump_cfg (k hi lo n : Nat) : (s.bump k hi lo n).cfg = s.cfg := rfl
@[simp] theorem State.bump_commit (k hi lo n : Nat) : (s.bump k hi lo n).commit = s.commit := rfl
@[simp] theorem State.bump_images (k hi lo n : Nat) : (s.bump k hi lo n).images = s.images := rfl
@[simp] theorem State.bump_admin (k hi lo n : Nat) : (s.bump k hi lo n).admin = s.admin := rfl
@[simp] theorem State.bump_queues (k hi lo n : Nat) : (s.bump k hi lo n).queues = s.queues := rfl
@[simp] theorem State.bump_qmParked (k hi lo n : Nat) : (s.bump k hi lo n).qmParked = s.qmParked := rfl
@[simp] theorem State.bump_fetchOrder (k hi lo n : Nat) : (s.bump k hi lo n).fetchOrder = s.fetchOrder := rfl
@[simp] theorem State.bump_qmResults (k hi lo n : Nat) : (s.bump k hi lo n).qmResults = s.qmResults := rfl
@[simp] theorem State.bump_descs (k hi lo n : Nat) : (s.bump k hi lo n).descs = s.descs := rfl
@[simp] theorem State.bump_reqs (k hi lo n : Nat) : (s.bump k hi lo n).reqs = s.reqs := rfl
@[simp] theorem State.bump_xl (k hi lo n : Nat) : (s.bump k hi lo n).xl = s.xl := rfl
@[simp] theorem State.bump_sync (k hi lo n : Nat) : (s.bump k hi lo n).sync = s.sync := rfl
@[simp] theorem State.bump_win (k hi lo n : Nat) : (s.bump k hi lo n).win = s.win := rfl
@[simp] theorem State.bump_cps (k hi lo n : Nat) : (s.bump k hi lo n).cps = s.cps := rfl
@[simp] theorem State.bump_fab (k hi lo n : Nat) : (s.bump k hi lo n).fab = s.fab := rfl
@[simp] theorem State.bump_sup (k hi lo n : Nat) : (s.bump k hi lo n).sup = s.sup := rfl
@[simp] theorem State.bump_tap (k hi lo n : Nat) : (s.bump k hi lo n).tap = s.tap := rfl
@[simp] theorem State.bump_drr (k hi lo n : Nat) : (s.bump k hi lo n).drr = s.drr := rfl

/-! `State.bumpSat` -/

@[simp] theorem State.bumpSat_pending (k hi lo n : Nat) : (s.bumpSat k hi lo n).pending = s.pending := rfl
@[simp] theorem State.bumpSat_free (k hi lo n : Nat) : (s.bumpSat k hi lo n).free = s.free := rfl
@[simp] theorem State.bumpSat_ids (k hi lo n : Nat) : (s.bumpSat k hi lo n).ids = s.ids := rfl
@[simp] theorem State.bumpSat_out (k hi lo n : Nat) : (s.bumpSat k hi lo n).out = s.out := rfl
@[simp] theorem State.bumpSat_die (k hi lo n : Nat) : (s.bumpSat k hi lo n).die = s.die := rfl
@[simp] theorem State.bumpSat_rst (k hi lo n : Nat) : (s.bumpSat k hi lo n).rst = s.rst := rfl
@[simp] theorem State.bumpSat_kp (k hi lo n : Nat) : (s.bumpSat k hi lo n).kp = s.kp := rfl
@[simp] theorem State.bumpSat_regs (k hi lo n : Nat) : (s.bumpSat k hi lo n).regs = rput s.grade s.regs k (putFld (s.reg k) hi lo (min (s.regFld k hi lo + n) (2 ^ (hi + 1 - lo) - 1))) := rfl
@[simp] theorem State.bumpSat_cfg (k hi lo n : Nat) : (s.bumpSat k hi lo n).cfg = s.cfg := rfl
@[simp] theorem State.bumpSat_commit (k hi lo n : Nat) : (s.bumpSat k hi lo n).commit = s.commit := rfl
@[simp] theorem State.bumpSat_images (k hi lo n : Nat) : (s.bumpSat k hi lo n).images = s.images := rfl
@[simp] theorem State.bumpSat_admin (k hi lo n : Nat) : (s.bumpSat k hi lo n).admin = s.admin := rfl
@[simp] theorem State.bumpSat_queues (k hi lo n : Nat) : (s.bumpSat k hi lo n).queues = s.queues := rfl
@[simp] theorem State.bumpSat_qmParked (k hi lo n : Nat) : (s.bumpSat k hi lo n).qmParked = s.qmParked := rfl
@[simp] theorem State.bumpSat_fetchOrder (k hi lo n : Nat) : (s.bumpSat k hi lo n).fetchOrder = s.fetchOrder := rfl
@[simp] theorem State.bumpSat_qmResults (k hi lo n : Nat) : (s.bumpSat k hi lo n).qmResults = s.qmResults := rfl
@[simp] theorem State.bumpSat_descs (k hi lo n : Nat) : (s.bumpSat k hi lo n).descs = s.descs := rfl
@[simp] theorem State.bumpSat_reqs (k hi lo n : Nat) : (s.bumpSat k hi lo n).reqs = s.reqs := rfl
@[simp] theorem State.bumpSat_xl (k hi lo n : Nat) : (s.bumpSat k hi lo n).xl = s.xl := rfl
@[simp] theorem State.bumpSat_sync (k hi lo n : Nat) : (s.bumpSat k hi lo n).sync = s.sync := rfl
@[simp] theorem State.bumpSat_win (k hi lo n : Nat) : (s.bumpSat k hi lo n).win = s.win := rfl
@[simp] theorem State.bumpSat_cps (k hi lo n : Nat) : (s.bumpSat k hi lo n).cps = s.cps := rfl
@[simp] theorem State.bumpSat_fab (k hi lo n : Nat) : (s.bumpSat k hi lo n).fab = s.fab := rfl
@[simp] theorem State.bumpSat_sup (k hi lo n : Nat) : (s.bumpSat k hi lo n).sup = s.sup := rfl
@[simp] theorem State.bumpSat_tap (k hi lo n : Nat) : (s.bumpSat k hi lo n).tap = s.tap := rfl
@[simp] theorem State.bumpSat_drr (k hi lo n : Nat) : (s.bumpSat k hi lo n).drr = s.drr := rfl

/-! `State.event` -/

@[simp] theorem State.event_pending (ev b cnt hi lo : Nat) : (s.event ev b cnt hi lo).pending = s.pending := rfl
@[simp] theorem State.event_free (ev b cnt hi lo : Nat) : (s.event ev b cnt hi lo).free = s.free := rfl
@[simp] theorem State.event_ids (ev b cnt hi lo : Nat) : (s.event ev b cnt hi lo).ids = s.ids := rfl
@[simp] theorem State.event_out (ev b cnt hi lo : Nat) : (s.event ev b cnt hi lo).out = s.out := rfl
@[simp] theorem State.event_die (ev b cnt hi lo : Nat) : (s.event ev b cnt hi lo).die = s.die := rfl
@[simp] theorem State.event_rst (ev b cnt hi lo : Nat) : (s.event ev b cnt hi lo).rst = s.rst := rfl
@[simp] theorem State.event_kp (ev b cnt hi lo : Nat) : (s.event ev b cnt hi lo).kp = s.kp := rfl
@[simp] theorem State.event_cfg (ev b cnt hi lo : Nat) : (s.event ev b cnt hi lo).cfg = s.cfg := rfl
@[simp] theorem State.event_commit (ev b cnt hi lo : Nat) : (s.event ev b cnt hi lo).commit = s.commit := rfl
@[simp] theorem State.event_images (ev b cnt hi lo : Nat) : (s.event ev b cnt hi lo).images = s.images := rfl
@[simp] theorem State.event_admin (ev b cnt hi lo : Nat) : (s.event ev b cnt hi lo).admin = s.admin := rfl
@[simp] theorem State.event_queues (ev b cnt hi lo : Nat) : (s.event ev b cnt hi lo).queues = s.queues := rfl
@[simp] theorem State.event_qmParked (ev b cnt hi lo : Nat) : (s.event ev b cnt hi lo).qmParked = s.qmParked := rfl
@[simp] theorem State.event_fetchOrder (ev b cnt hi lo : Nat) : (s.event ev b cnt hi lo).fetchOrder = s.fetchOrder := rfl
@[simp] theorem State.event_qmResults (ev b cnt hi lo : Nat) : (s.event ev b cnt hi lo).qmResults = s.qmResults := rfl
@[simp] theorem State.event_descs (ev b cnt hi lo : Nat) : (s.event ev b cnt hi lo).descs = s.descs := rfl
@[simp] theorem State.event_reqs (ev b cnt hi lo : Nat) : (s.event ev b cnt hi lo).reqs = s.reqs := rfl
@[simp] theorem State.event_xl (ev b cnt hi lo : Nat) : (s.event ev b cnt hi lo).xl = s.xl := rfl
@[simp] theorem State.event_sync (ev b cnt hi lo : Nat) : (s.event ev b cnt hi lo).sync = s.sync := rfl
@[simp] theorem State.event_win (ev b cnt hi lo : Nat) : (s.event ev b cnt hi lo).win = s.win := rfl
@[simp] theorem State.event_cps (ev b cnt hi lo : Nat) : (s.event ev b cnt hi lo).cps = s.cps := rfl
@[simp] theorem State.event_fab (ev b cnt hi lo : Nat) : (s.event ev b cnt hi lo).fab = s.fab := rfl
@[simp] theorem State.event_sup (ev b cnt hi lo : Nat) : (s.event ev b cnt hi lo).sup = s.sup := rfl
@[simp] theorem State.event_tap (ev b cnt hi lo : Nat) : (s.event ev b cnt hi lo).tap = s.tap := rfl
@[simp] theorem State.event_drr (ev b cnt hi lo : Nat) : (s.event ev b cnt hi lo).drr = s.drr := rfl

/-! `State.setShadow` -/

@[simp] theorem State.setShadow_pending (k : Nat) (v : Word) : (s.setShadow k v).pending = s.pending := rfl
@[simp] theorem State.setShadow_free (k : Nat) (v : Word) : (s.setShadow k v).free = s.free := rfl
@[simp] theorem State.setShadow_ids (k : Nat) (v : Word) : (s.setShadow k v).ids = s.ids := rfl
@[simp] theorem State.setShadow_out (k : Nat) (v : Word) : (s.setShadow k v).out = s.out := rfl
@[simp] theorem State.setShadow_die (k : Nat) (v : Word) : (s.setShadow k v).die = s.die := rfl
@[simp] theorem State.setShadow_rst (k : Nat) (v : Word) : (s.setShadow k v).rst = s.rst := rfl
@[simp] theorem State.setShadow_kp (k : Nat) (v : Word) : (s.setShadow k v).kp = s.kp := rfl
@[simp] theorem State.setShadow_regs (k : Nat) (v : Word) : (s.setShadow k v).regs = s.regs := rfl
@[simp] theorem State.setShadow_cfg (k : Nat) (v : Word) : (s.setShadow k v).cfg = { s.cfg with shadow := rput s.grade s.cfg.shadow k v } := rfl
@[simp] theorem State.setShadow_commit (k : Nat) (v : Word) : (s.setShadow k v).commit = s.commit := rfl
@[simp] theorem State.setShadow_images (k : Nat) (v : Word) : (s.setShadow k v).images = s.images := rfl
@[simp] theorem State.setShadow_admin (k : Nat) (v : Word) : (s.setShadow k v).admin = s.admin := rfl
@[simp] theorem State.setShadow_queues (k : Nat) (v : Word) : (s.setShadow k v).queues = s.queues := rfl
@[simp] theorem State.setShadow_qmParked (k : Nat) (v : Word) : (s.setShadow k v).qmParked = s.qmParked := rfl
@[simp] theorem State.setShadow_fetchOrder (k : Nat) (v : Word) : (s.setShadow k v).fetchOrder = s.fetchOrder := rfl
@[simp] theorem State.setShadow_qmResults (k : Nat) (v : Word) : (s.setShadow k v).qmResults = s.qmResults := rfl
@[simp] theorem State.setShadow_descs (k : Nat) (v : Word) : (s.setShadow k v).descs = s.descs := rfl
@[simp] theorem State.setShadow_reqs (k : Nat) (v : Word) : (s.setShadow k v).reqs = s.reqs := rfl
@[simp] theorem State.setShadow_xl (k : Nat) (v : Word) : (s.setShadow k v).xl = s.xl := rfl
@[simp] theorem State.setShadow_sync (k : Nat) (v : Word) : (s.setShadow k v).sync = s.sync := rfl
@[simp] theorem State.setShadow_win (k : Nat) (v : Word) : (s.setShadow k v).win = s.win := rfl
@[simp] theorem State.setShadow_cps (k : Nat) (v : Word) : (s.setShadow k v).cps = s.cps := rfl
@[simp] theorem State.setShadow_fab (k : Nat) (v : Word) : (s.setShadow k v).fab = s.fab := rfl
@[simp] theorem State.setShadow_sup (k : Nat) (v : Word) : (s.setShadow k v).sup = s.sup := rfl
@[simp] theorem State.setShadow_tap (k : Nat) (v : Word) : (s.setShadow k v).tap = s.tap := rfl
@[simp] theorem State.setShadow_drr (k : Nat) (v : Word) : (s.setShadow k v).drr = s.drr := rfl

/-! `State.putImage` -/

@[simp] theorem State.putImage_pending (mem bank i : Nat) (v : Word) : (s.putImage mem bank i v).pending = s.pending := rfl
@[simp] theorem State.putImage_free (mem bank i : Nat) (v : Word) : (s.putImage mem bank i v).free = s.free := rfl
@[simp] theorem State.putImage_ids (mem bank i : Nat) (v : Word) : (s.putImage mem bank i v).ids = s.ids := rfl
@[simp] theorem State.putImage_out (mem bank i : Nat) (v : Word) : (s.putImage mem bank i v).out = s.out := rfl
@[simp] theorem State.putImage_die (mem bank i : Nat) (v : Word) : (s.putImage mem bank i v).die = s.die := rfl
@[simp] theorem State.putImage_rst (mem bank i : Nat) (v : Word) : (s.putImage mem bank i v).rst = s.rst := rfl
@[simp] theorem State.putImage_kp (mem bank i : Nat) (v : Word) : (s.putImage mem bank i v).kp = s.kp := rfl
@[simp] theorem State.putImage_regs (mem bank i : Nat) (v : Word) : (s.putImage mem bank i v).regs = s.regs := rfl
@[simp] theorem State.putImage_cfg (mem bank i : Nat) (v : Word) : (s.putImage mem bank i v).cfg = s.cfg := rfl
@[simp] theorem State.putImage_commit (mem bank i : Nat) (v : Word) : (s.putImage mem bank i v).commit = s.commit := rfl
@[simp] theorem State.putImage_admin (mem bank i : Nat) (v : Word) : (s.putImage mem bank i v).admin = s.admin := rfl
@[simp] theorem State.putImage_queues (mem bank i : Nat) (v : Word) : (s.putImage mem bank i v).queues = s.queues := rfl
@[simp] theorem State.putImage_qmParked (mem bank i : Nat) (v : Word) : (s.putImage mem bank i v).qmParked = s.qmParked := rfl
@[simp] theorem State.putImage_fetchOrder (mem bank i : Nat) (v : Word) : (s.putImage mem bank i v).fetchOrder = s.fetchOrder := rfl
@[simp] theorem State.putImage_qmResults (mem bank i : Nat) (v : Word) : (s.putImage mem bank i v).qmResults = s.qmResults := rfl
@[simp] theorem State.putImage_descs (mem bank i : Nat) (v : Word) : (s.putImage mem bank i v).descs = s.descs := rfl
@[simp] theorem State.putImage_reqs (mem bank i : Nat) (v : Word) : (s.putImage mem bank i v).reqs = s.reqs := rfl
@[simp] theorem State.putImage_xl (mem bank i : Nat) (v : Word) : (s.putImage mem bank i v).xl = s.xl := rfl
@[simp] theorem State.putImage_sync (mem bank i : Nat) (v : Word) : (s.putImage mem bank i v).sync = s.sync := rfl
@[simp] theorem State.putImage_win (mem bank i : Nat) (v : Word) : (s.putImage mem bank i v).win = s.win := rfl
@[simp] theorem State.putImage_cps (mem bank i : Nat) (v : Word) : (s.putImage mem bank i v).cps = s.cps := rfl
@[simp] theorem State.putImage_fab (mem bank i : Nat) (v : Word) : (s.putImage mem bank i v).fab = s.fab := rfl
@[simp] theorem State.putImage_sup (mem bank i : Nat) (v : Word) : (s.putImage mem bank i v).sup = s.sup := rfl
@[simp] theorem State.putImage_tap (mem bank i : Nat) (v : Word) : (s.putImage mem bank i v).tap = s.tap := rfl
@[simp] theorem State.putImage_drr (mem bank i : Nat) (v : Word) : (s.putImage mem bank i v).drr = s.drr := rfl

/-! `State.addReq` -/

@[simp] theorem State.addReq_pending (r : MemReq) : (s.addReq r).pending = s.pending := rfl
@[simp] theorem State.addReq_free (r : MemReq) : (s.addReq r).free = s.free := rfl
@[simp] theorem State.addReq_ids (r : MemReq) : (s.addReq r).ids = s.ids + 1 := rfl
@[simp] theorem State.addReq_out (r : MemReq) : (s.addReq r).out = s.out := rfl
@[simp] theorem State.addReq_die (r : MemReq) : (s.addReq r).die = s.die := rfl
@[simp] theorem State.addReq_rst (r : MemReq) : (s.addReq r).rst = s.rst := rfl
@[simp] theorem State.addReq_kp (r : MemReq) : (s.addReq r).kp = s.kp := rfl
@[simp] theorem State.addReq_regs (r : MemReq) : (s.addReq r).regs = s.regs := rfl
@[simp] theorem State.addReq_cfg (r : MemReq) : (s.addReq r).cfg = s.cfg := rfl
@[simp] theorem State.addReq_commit (r : MemReq) : (s.addReq r).commit = s.commit := rfl
@[simp] theorem State.addReq_images (r : MemReq) : (s.addReq r).images = s.images := rfl
@[simp] theorem State.addReq_admin (r : MemReq) : (s.addReq r).admin = s.admin := rfl
@[simp] theorem State.addReq_queues (r : MemReq) : (s.addReq r).queues = s.queues := rfl
@[simp] theorem State.addReq_qmParked (r : MemReq) : (s.addReq r).qmParked = s.qmParked := rfl
@[simp] theorem State.addReq_fetchOrder (r : MemReq) : (s.addReq r).fetchOrder = s.fetchOrder := rfl
@[simp] theorem State.addReq_qmResults (r : MemReq) : (s.addReq r).qmResults = s.qmResults := rfl
@[simp] theorem State.addReq_descs (r : MemReq) : (s.addReq r).descs = s.descs := rfl
@[simp] theorem State.addReq_xl (r : MemReq) : (s.addReq r).xl = s.xl := rfl
@[simp] theorem State.addReq_sync (r : MemReq) : (s.addReq r).sync = s.sync := rfl
@[simp] theorem State.addReq_win (r : MemReq) : (s.addReq r).win = s.win := rfl
@[simp] theorem State.addReq_cps (r : MemReq) : (s.addReq r).cps = s.cps := rfl
@[simp] theorem State.addReq_fab (r : MemReq) : (s.addReq r).fab = s.fab := rfl
@[simp] theorem State.addReq_sup (r : MemReq) : (s.addReq r).sup = s.sup := rfl
@[simp] theorem State.addReq_tap (r : MemReq) : (s.addReq r).tap = s.tap := rfl
@[simp] theorem State.addReq_drr (r : MemReq) : (s.addReq r).drr = s.drr := rfl

/-! `State.dropReq` -/

@[simp] theorem State.dropReq_pending (i : Nat) : (s.dropReq i).pending = s.pending := rfl
@[simp] theorem State.dropReq_free (i : Nat) : (s.dropReq i).free = s.free := rfl
@[simp] theorem State.dropReq_ids (i : Nat) : (s.dropReq i).ids = s.ids := rfl
@[simp] theorem State.dropReq_out (i : Nat) : (s.dropReq i).out = s.out := rfl
@[simp] theorem State.dropReq_die (i : Nat) : (s.dropReq i).die = s.die := rfl
@[simp] theorem State.dropReq_rst (i : Nat) : (s.dropReq i).rst = s.rst := rfl
@[simp] theorem State.dropReq_kp (i : Nat) : (s.dropReq i).kp = s.kp := rfl
@[simp] theorem State.dropReq_regs (i : Nat) : (s.dropReq i).regs = s.regs := rfl
@[simp] theorem State.dropReq_cfg (i : Nat) : (s.dropReq i).cfg = s.cfg := rfl
@[simp] theorem State.dropReq_commit (i : Nat) : (s.dropReq i).commit = s.commit := rfl
@[simp] theorem State.dropReq_images (i : Nat) : (s.dropReq i).images = s.images := rfl
@[simp] theorem State.dropReq_admin (i : Nat) : (s.dropReq i).admin = s.admin := rfl
@[simp] theorem State.dropReq_queues (i : Nat) : (s.dropReq i).queues = s.queues := rfl
@[simp] theorem State.dropReq_qmParked (i : Nat) : (s.dropReq i).qmParked = s.qmParked := rfl
@[simp] theorem State.dropReq_fetchOrder (i : Nat) : (s.dropReq i).fetchOrder = s.fetchOrder := rfl
@[simp] theorem State.dropReq_qmResults (i : Nat) : (s.dropReq i).qmResults = s.qmResults := rfl
@[simp] theorem State.dropReq_descs (i : Nat) : (s.dropReq i).descs = s.descs := rfl
@[simp] theorem State.dropReq_reqs (i : Nat) : (s.dropReq i).reqs = s.reqs.filter (fun r => r.id != i) := rfl
@[simp] theorem State.dropReq_xl (i : Nat) : (s.dropReq i).xl = s.xl := rfl
@[simp] theorem State.dropReq_sync (i : Nat) : (s.dropReq i).sync = s.sync := rfl
@[simp] theorem State.dropReq_win (i : Nat) : (s.dropReq i).win = s.win := rfl
@[simp] theorem State.dropReq_cps (i : Nat) : (s.dropReq i).cps = s.cps := rfl
@[simp] theorem State.dropReq_fab (i : Nat) : (s.dropReq i).fab = s.fab := rfl
@[simp] theorem State.dropReq_sup (i : Nat) : (s.dropReq i).sup = s.sup := rfl
@[simp] theorem State.dropReq_tap (i : Nat) : (s.dropReq i).tap = s.tap := rfl
@[simp] theorem State.dropReq_drr (i : Nat) : (s.dropReq i).drr = s.drr := rfl

/-! `State.dropWalk` -/

@[simp] theorem State.dropWalk_pending (i : Nat) : (s.dropWalk i).pending = s.pending := rfl
@[simp] theorem State.dropWalk_free (i : Nat) : (s.dropWalk i).free = s.free := rfl
@[simp] theorem State.dropWalk_ids (i : Nat) : (s.dropWalk i).ids = s.ids := rfl
@[simp] theorem State.dropWalk_out (i : Nat) : (s.dropWalk i).out = s.out := rfl
@[simp] theorem State.dropWalk_die (i : Nat) : (s.dropWalk i).die = s.die := rfl
@[simp] theorem State.dropWalk_rst (i : Nat) : (s.dropWalk i).rst = s.rst := rfl
@[simp] theorem State.dropWalk_kp (i : Nat) : (s.dropWalk i).kp = s.kp := rfl
@[simp] theorem State.dropWalk_regs (i : Nat) : (s.dropWalk i).regs = s.regs := rfl
@[simp] theorem State.dropWalk_cfg (i : Nat) : (s.dropWalk i).cfg = s.cfg := rfl
@[simp] theorem State.dropWalk_commit (i : Nat) : (s.dropWalk i).commit = s.commit := rfl
@[simp] theorem State.dropWalk_images (i : Nat) : (s.dropWalk i).images = s.images := rfl
@[simp] theorem State.dropWalk_admin (i : Nat) : (s.dropWalk i).admin = s.admin := rfl
@[simp] theorem State.dropWalk_queues (i : Nat) : (s.dropWalk i).queues = s.queues := rfl
@[simp] theorem State.dropWalk_qmParked (i : Nat) : (s.dropWalk i).qmParked = s.qmParked := rfl
@[simp] theorem State.dropWalk_fetchOrder (i : Nat) : (s.dropWalk i).fetchOrder = s.fetchOrder := rfl
@[simp] theorem State.dropWalk_qmResults (i : Nat) : (s.dropWalk i).qmResults = s.qmResults := rfl
@[simp] theorem State.dropWalk_descs (i : Nat) : (s.dropWalk i).descs = s.descs := rfl
@[simp] theorem State.dropWalk_reqs (i : Nat) : (s.dropWalk i).reqs = s.reqs := rfl
@[simp] theorem State.dropWalk_xl (i : Nat) : (s.dropWalk i).xl = { s.xl with walks := s.xl.walks.filter (fun w => w.id != i) } := rfl
@[simp] theorem State.dropWalk_sync (i : Nat) : (s.dropWalk i).sync = s.sync := rfl
@[simp] theorem State.dropWalk_win (i : Nat) : (s.dropWalk i).win = s.win := rfl
@[simp] theorem State.dropWalk_cps (i : Nat) : (s.dropWalk i).cps = s.cps := rfl
@[simp] theorem State.dropWalk_fab (i : Nat) : (s.dropWalk i).fab = s.fab := rfl
@[simp] theorem State.dropWalk_sup (i : Nat) : (s.dropWalk i).sup = s.sup := rfl
@[simp] theorem State.dropWalk_tap (i : Nat) : (s.dropWalk i).tap = s.tap := rfl
@[simp] theorem State.dropWalk_drr (i : Nat) : (s.dropWalk i).drr = s.drr := rfl

/-! `State.setBuoy` -/

@[simp] theorem State.setBuoy_pending (b : Nat) (x : Buoy) : (s.setBuoy b x).pending = s.pending := rfl
@[simp] theorem State.setBuoy_free (b : Nat) (x : Buoy) : (s.setBuoy b x).free = s.free := rfl
@[simp] theorem State.setBuoy_ids (b : Nat) (x : Buoy) : (s.setBuoy b x).ids = s.ids := rfl
@[simp] theorem State.setBuoy_out (b : Nat) (x : Buoy) : (s.setBuoy b x).out = s.out := rfl
@[simp] theorem State.setBuoy_die (b : Nat) (x : Buoy) : (s.setBuoy b x).die = s.die := rfl
@[simp] theorem State.setBuoy_rst (b : Nat) (x : Buoy) : (s.setBuoy b x).rst = s.rst := rfl
@[simp] theorem State.setBuoy_kp (b : Nat) (x : Buoy) : (s.setBuoy b x).kp = s.kp := rfl
@[simp] theorem State.setBuoy_regs (b : Nat) (x : Buoy) : (s.setBuoy b x).regs = s.regs := rfl
@[simp] theorem State.setBuoy_cfg (b : Nat) (x : Buoy) : (s.setBuoy b x).cfg = s.cfg := rfl
@[simp] theorem State.setBuoy_commit (b : Nat) (x : Buoy) : (s.setBuoy b x).commit = s.commit := rfl
@[simp] theorem State.setBuoy_images (b : Nat) (x : Buoy) : (s.setBuoy b x).images = s.images := rfl
@[simp] theorem State.setBuoy_admin (b : Nat) (x : Buoy) : (s.setBuoy b x).admin = s.admin := rfl
@[simp] theorem State.setBuoy_queues (b : Nat) (x : Buoy) : (s.setBuoy b x).queues = s.queues := rfl
@[simp] theorem State.setBuoy_qmParked (b : Nat) (x : Buoy) : (s.setBuoy b x).qmParked = s.qmParked := rfl
@[simp] theorem State.setBuoy_fetchOrder (b : Nat) (x : Buoy) : (s.setBuoy b x).fetchOrder = s.fetchOrder := rfl
@[simp] theorem State.setBuoy_qmResults (b : Nat) (x : Buoy) : (s.setBuoy b x).qmResults = s.qmResults := rfl
@[simp] theorem State.setBuoy_descs (b : Nat) (x : Buoy) : (s.setBuoy b x).descs = s.descs := rfl
@[simp] theorem State.setBuoy_reqs (b : Nat) (x : Buoy) : (s.setBuoy b x).reqs = s.reqs := rfl
@[simp] theorem State.setBuoy_xl (b : Nat) (x : Buoy) : (s.setBuoy b x).xl = s.xl := rfl
@[simp] theorem State.setBuoy_win (b : Nat) (x : Buoy) : (s.setBuoy b x).win = s.win := rfl
@[simp] theorem State.setBuoy_cps (b : Nat) (x : Buoy) : (s.setBuoy b x).cps = s.cps := rfl
@[simp] theorem State.setBuoy_fab (b : Nat) (x : Buoy) : (s.setBuoy b x).fab = s.fab := rfl
@[simp] theorem State.setBuoy_sup (b : Nat) (x : Buoy) : (s.setBuoy b x).sup = s.sup := rfl
@[simp] theorem State.setBuoy_tap (b : Nat) (x : Buoy) : (s.setBuoy b x).tap = s.tap := rfl
@[simp] theorem State.setBuoy_drr (b : Nat) (x : Buoy) : (s.setBuoy b x).drr = s.drr := rfl

/-! `State.setClaimants` -/

@[simp] theorem State.setClaimants_pending (b : Nat) (l : List Claimant) : (s.setClaimants b l).pending = s.pending := rfl
@[simp] theorem State.setClaimants_free (b : Nat) (l : List Claimant) : (s.setClaimants b l).free = s.free := rfl
@[simp] theorem State.setClaimants_ids (b : Nat) (l : List Claimant) : (s.setClaimants b l).ids = s.ids := rfl
@[simp] theorem State.setClaimants_out (b : Nat) (l : List Claimant) : (s.setClaimants b l).out = s.out := rfl
@[simp] theorem State.setClaimants_die (b : Nat) (l : List Claimant) : (s.setClaimants b l).die = s.die := rfl
@[simp] theorem State.setClaimants_rst (b : Nat) (l : List Claimant) : (s.setClaimants b l).rst = s.rst := rfl
@[simp] theorem State.setClaimants_kp (b : Nat) (l : List Claimant) : (s.setClaimants b l).kp = s.kp := rfl
@[simp] theorem State.setClaimants_regs (b : Nat) (l : List Claimant) : (s.setClaimants b l).regs = s.regs := rfl
@[simp] theorem State.setClaimants_cfg (b : Nat) (l : List Claimant) : (s.setClaimants b l).cfg = s.cfg := rfl
@[simp] theorem State.setClaimants_commit (b : Nat) (l : List Claimant) : (s.setClaimants b l).commit = s.commit := rfl
@[simp] theorem State.setClaimants_images (b : Nat) (l : List Claimant) : (s.setClaimants b l).images = s.images := rfl
@[simp] theorem State.setClaimants_admin (b : Nat) (l : List Claimant) : (s.setClaimants b l).admin = s.admin := rfl
@[simp] theorem State.setClaimants_queues (b : Nat) (l : List Claimant) : (s.setClaimants b l).queues = s.queues := rfl
@[simp] theorem State.setClaimants_qmParked (b : Nat) (l : List Claimant) : (s.setClaimants b l).qmParked = s.qmParked := rfl
@[simp] theorem State.setClaimants_fetchOrder (b : Nat) (l : List Claimant) : (s.setClaimants b l).fetchOrder = s.fetchOrder := rfl
@[simp] theorem State.setClaimants_qmResults (b : Nat) (l : List Claimant) : (s.setClaimants b l).qmResults = s.qmResults := rfl
@[simp] theorem State.setClaimants_descs (b : Nat) (l : List Claimant) : (s.setClaimants b l).descs = s.descs := rfl
@[simp] theorem State.setClaimants_reqs (b : Nat) (l : List Claimant) : (s.setClaimants b l).reqs = s.reqs := rfl
@[simp] theorem State.setClaimants_xl (b : Nat) (l : List Claimant) : (s.setClaimants b l).xl = s.xl := rfl
@[simp] theorem State.setClaimants_win (b : Nat) (l : List Claimant) : (s.setClaimants b l).win = s.win := rfl
@[simp] theorem State.setClaimants_cps (b : Nat) (l : List Claimant) : (s.setClaimants b l).cps = s.cps := rfl
@[simp] theorem State.setClaimants_fab (b : Nat) (l : List Claimant) : (s.setClaimants b l).fab = s.fab := rfl
@[simp] theorem State.setClaimants_sup (b : Nat) (l : List Claimant) : (s.setClaimants b l).sup = s.sup := rfl
@[simp] theorem State.setClaimants_tap (b : Nat) (l : List Claimant) : (s.setClaimants b l).tap = s.tap := rfl
@[simp] theorem State.setClaimants_drr (b : Nat) (l : List Claimant) : (s.setClaimants b l).drr = s.drr := rfl

/-! `State.setFq` -/

@[simp] theorem State.setFq_pending (f : Nat) (x : FlashQ) : (s.setFq f x).pending = s.pending := rfl
@[simp] theorem State.setFq_free (f : Nat) (x : FlashQ) : (s.setFq f x).free = s.free := rfl
@[simp] theorem State.setFq_ids (f : Nat) (x : FlashQ) : (s.setFq f x).ids = s.ids := rfl
@[simp] theorem State.setFq_out (f : Nat) (x : FlashQ) : (s.setFq f x).out = s.out := rfl
@[simp] theorem State.setFq_die (f : Nat) (x : FlashQ) : (s.setFq f x).die = s.die := rfl
@[simp] theorem State.setFq_rst (f : Nat) (x : FlashQ) : (s.setFq f x).rst = s.rst := rfl
@[simp] theorem State.setFq_kp (f : Nat) (x : FlashQ) : (s.setFq f x).kp = s.kp := rfl
@[simp] theorem State.setFq_regs (f : Nat) (x : FlashQ) : (s.setFq f x).regs = s.regs := rfl
@[simp] theorem State.setFq_cfg (f : Nat) (x : FlashQ) : (s.setFq f x).cfg = s.cfg := rfl
@[simp] theorem State.setFq_commit (f : Nat) (x : FlashQ) : (s.setFq f x).commit = s.commit := rfl
@[simp] theorem State.setFq_images (f : Nat) (x : FlashQ) : (s.setFq f x).images = s.images := rfl
@[simp] theorem State.setFq_admin (f : Nat) (x : FlashQ) : (s.setFq f x).admin = s.admin := rfl
@[simp] theorem State.setFq_queues (f : Nat) (x : FlashQ) : (s.setFq f x).queues = s.queues := rfl
@[simp] theorem State.setFq_qmParked (f : Nat) (x : FlashQ) : (s.setFq f x).qmParked = s.qmParked := rfl
@[simp] theorem State.setFq_fetchOrder (f : Nat) (x : FlashQ) : (s.setFq f x).fetchOrder = s.fetchOrder := rfl
@[simp] theorem State.setFq_qmResults (f : Nat) (x : FlashQ) : (s.setFq f x).qmResults = s.qmResults := rfl
@[simp] theorem State.setFq_descs (f : Nat) (x : FlashQ) : (s.setFq f x).descs = s.descs := rfl
@[simp] theorem State.setFq_reqs (f : Nat) (x : FlashQ) : (s.setFq f x).reqs = s.reqs := rfl
@[simp] theorem State.setFq_xl (f : Nat) (x : FlashQ) : (s.setFq f x).xl = s.xl := rfl
@[simp] theorem State.setFq_sync (f : Nat) (x : FlashQ) : (s.setFq f x).sync = { s.sync with fqs := tput s.sync.fqs f x } := rfl
@[simp] theorem State.setFq_win (f : Nat) (x : FlashQ) : (s.setFq f x).win = s.win := rfl
@[simp] theorem State.setFq_cps (f : Nat) (x : FlashQ) : (s.setFq f x).cps = s.cps := rfl
@[simp] theorem State.setFq_fab (f : Nat) (x : FlashQ) : (s.setFq f x).fab = s.fab := rfl
@[simp] theorem State.setFq_sup (f : Nat) (x : FlashQ) : (s.setFq f x).sup = s.sup := rfl
@[simp] theorem State.setFq_tap (f : Nat) (x : FlashQ) : (s.setFq f x).tap = s.tap := rfl
@[simp] theorem State.setFq_drr (f : Nat) (x : FlashQ) : (s.setFq f x).drr = s.drr := rfl

/-! `State.setHeld` -/

@[simp] theorem State.setHeld_pending (p : Port) (l : List HeldSignal) : (s.setHeld p l).pending = s.pending := rfl
@[simp] theorem State.setHeld_free (p : Port) (l : List HeldSignal) : (s.setHeld p l).free = s.free := rfl
@[simp] theorem State.setHeld_ids (p : Port) (l : List HeldSignal) : (s.setHeld p l).ids = s.ids := rfl
@[simp] theorem State.setHeld_out (p : Port) (l : List HeldSignal) : (s.setHeld p l).out = s.out := rfl
@[simp] theorem State.setHeld_die (p : Port) (l : List HeldSignal) : (s.setHeld p l).die = s.die := rfl
@[simp] theorem State.setHeld_rst (p : Port) (l : List HeldSignal) : (s.setHeld p l).rst = s.rst := rfl
@[simp] theorem State.setHeld_kp (p : Port) (l : List HeldSignal) : (s.setHeld p l).kp = s.kp := rfl
@[simp] theorem State.setHeld_regs (p : Port) (l : List HeldSignal) : (s.setHeld p l).regs = s.regs := rfl
@[simp] theorem State.setHeld_cfg (p : Port) (l : List HeldSignal) : (s.setHeld p l).cfg = s.cfg := rfl
@[simp] theorem State.setHeld_commit (p : Port) (l : List HeldSignal) : (s.setHeld p l).commit = s.commit := rfl
@[simp] theorem State.setHeld_images (p : Port) (l : List HeldSignal) : (s.setHeld p l).images = s.images := rfl
@[simp] theorem State.setHeld_admin (p : Port) (l : List HeldSignal) : (s.setHeld p l).admin = s.admin := rfl
@[simp] theorem State.setHeld_queues (p : Port) (l : List HeldSignal) : (s.setHeld p l).queues = s.queues := rfl
@[simp] theorem State.setHeld_qmParked (p : Port) (l : List HeldSignal) : (s.setHeld p l).qmParked = s.qmParked := rfl
@[simp] theorem State.setHeld_fetchOrder (p : Port) (l : List HeldSignal) : (s.setHeld p l).fetchOrder = s.fetchOrder := rfl
@[simp] theorem State.setHeld_qmResults (p : Port) (l : List HeldSignal) : (s.setHeld p l).qmResults = s.qmResults := rfl
@[simp] theorem State.setHeld_descs (p : Port) (l : List HeldSignal) : (s.setHeld p l).descs = s.descs := rfl
@[simp] theorem State.setHeld_reqs (p : Port) (l : List HeldSignal) : (s.setHeld p l).reqs = s.reqs := rfl
@[simp] theorem State.setHeld_xl (p : Port) (l : List HeldSignal) : (s.setHeld p l).xl = s.xl := rfl
@[simp] theorem State.setHeld_win (p : Port) (l : List HeldSignal) : (s.setHeld p l).win = s.win := rfl
@[simp] theorem State.setHeld_cps (p : Port) (l : List HeldSignal) : (s.setHeld p l).cps = s.cps := rfl
@[simp] theorem State.setHeld_fab (p : Port) (l : List HeldSignal) : (s.setHeld p l).fab = s.fab := rfl
@[simp] theorem State.setHeld_sup (p : Port) (l : List HeldSignal) : (s.setHeld p l).sup = s.sup := rfl
@[simp] theorem State.setHeld_tap (p : Port) (l : List HeldSignal) : (s.setHeld p l).tap = s.tap := rfl
@[simp] theorem State.setHeld_drr (p : Port) (l : List HeldSignal) : (s.setHeld p l).drr = s.drr := rfl

/-! `State.setDesc` -/

@[simp] theorem State.setDesc_pending (d : Desc) : (s.setDesc d).pending = s.pending := rfl
@[simp] theorem State.setDesc_free (d : Desc) : (s.setDesc d).free = s.free := rfl
@[simp] theorem State.setDesc_ids (d : Desc) : (s.setDesc d).ids = s.ids := rfl
@[simp] theorem State.setDesc_out (d : Desc) : (s.setDesc d).out = s.out := rfl
@[simp] theorem State.setDesc_die (d : Desc) : (s.setDesc d).die = s.die := rfl
@[simp] theorem State.setDesc_rst (d : Desc) : (s.setDesc d).rst = s.rst := rfl
@[simp] theorem State.setDesc_kp (d : Desc) : (s.setDesc d).kp = s.kp := rfl
@[simp] theorem State.setDesc_regs (d : Desc) : (s.setDesc d).regs = s.regs := rfl
@[simp] theorem State.setDesc_cfg (d : Desc) : (s.setDesc d).cfg = s.cfg := rfl
@[simp] theorem State.setDesc_commit (d : Desc) : (s.setDesc d).commit = s.commit := rfl
@[simp] theorem State.setDesc_images (d : Desc) : (s.setDesc d).images = s.images := rfl
@[simp] theorem State.setDesc_admin (d : Desc) : (s.setDesc d).admin = s.admin := rfl
@[simp] theorem State.setDesc_queues (d : Desc) : (s.setDesc d).queues = s.queues := rfl
@[simp] theorem State.setDesc_qmParked (d : Desc) : (s.setDesc d).qmParked = s.qmParked := rfl
@[simp] theorem State.setDesc_fetchOrder (d : Desc) : (s.setDesc d).fetchOrder = s.fetchOrder := rfl
@[simp] theorem State.setDesc_qmResults (d : Desc) : (s.setDesc d).qmResults = s.qmResults := rfl
@[simp] theorem State.setDesc_descs (d : Desc) : (s.setDesc d).descs = s.descs.map (fun e => if e.id = d.id then d else e) := rfl
@[simp] theorem State.setDesc_reqs (d : Desc) : (s.setDesc d).reqs = s.reqs := rfl
@[simp] theorem State.setDesc_xl (d : Desc) : (s.setDesc d).xl = s.xl := rfl
@[simp] theorem State.setDesc_sync (d : Desc) : (s.setDesc d).sync = s.sync := rfl
@[simp] theorem State.setDesc_win (d : Desc) : (s.setDesc d).win = s.win := rfl
@[simp] theorem State.setDesc_cps (d : Desc) : (s.setDesc d).cps = s.cps := rfl
@[simp] theorem State.setDesc_fab (d : Desc) : (s.setDesc d).fab = s.fab := rfl
@[simp] theorem State.setDesc_sup (d : Desc) : (s.setDesc d).sup = s.sup := rfl
@[simp] theorem State.setDesc_tap (d : Desc) : (s.setDesc d).tap = s.tap := rfl
@[simp] theorem State.setDesc_drr (d : Desc) : (s.setDesc d).drr = s.drr := rfl

/-! `State.onDesc` -/

@[simp] theorem State.onDesc_pending (did : Nat) (f : Desc → Desc) : (s.onDesc did f).pending = s.pending := rfl
@[simp] theorem State.onDesc_free (did : Nat) (f : Desc → Desc) : (s.onDesc did f).free = s.free := rfl
@[simp] theorem State.onDesc_ids (did : Nat) (f : Desc → Desc) : (s.onDesc did f).ids = s.ids := rfl
@[simp] theorem State.onDesc_out (did : Nat) (f : Desc → Desc) : (s.onDesc did f).out = s.out := rfl
@[simp] theorem State.onDesc_die (did : Nat) (f : Desc → Desc) : (s.onDesc did f).die = s.die := rfl
@[simp] theorem State.onDesc_rst (did : Nat) (f : Desc → Desc) : (s.onDesc did f).rst = s.rst := rfl
@[simp] theorem State.onDesc_kp (did : Nat) (f : Desc → Desc) : (s.onDesc did f).kp = s.kp := rfl
@[simp] theorem State.onDesc_regs (did : Nat) (f : Desc → Desc) : (s.onDesc did f).regs = s.regs := rfl
@[simp] theorem State.onDesc_cfg (did : Nat) (f : Desc → Desc) : (s.onDesc did f).cfg = s.cfg := rfl
@[simp] theorem State.onDesc_commit (did : Nat) (f : Desc → Desc) : (s.onDesc did f).commit = s.commit := rfl
@[simp] theorem State.onDesc_images (did : Nat) (f : Desc → Desc) : (s.onDesc did f).images = s.images := rfl
@[simp] theorem State.onDesc_admin (did : Nat) (f : Desc → Desc) : (s.onDesc did f).admin = s.admin := rfl
@[simp] theorem State.onDesc_queues (did : Nat) (f : Desc → Desc) : (s.onDesc did f).queues = s.queues := rfl
@[simp] theorem State.onDesc_qmParked (did : Nat) (f : Desc → Desc) : (s.onDesc did f).qmParked = s.qmParked := rfl
@[simp] theorem State.onDesc_fetchOrder (did : Nat) (f : Desc → Desc) : (s.onDesc did f).fetchOrder = s.fetchOrder := rfl
@[simp] theorem State.onDesc_qmResults (did : Nat) (f : Desc → Desc) : (s.onDesc did f).qmResults = s.qmResults := rfl
@[simp] theorem State.onDesc_descs (did : Nat) (f : Desc → Desc) : (s.onDesc did f).descs = s.descs.map (fun e => if e.id = did then f e else e) := rfl
@[simp] theorem State.onDesc_reqs (did : Nat) (f : Desc → Desc) : (s.onDesc did f).reqs = s.reqs := rfl
@[simp] theorem State.onDesc_xl (did : Nat) (f : Desc → Desc) : (s.onDesc did f).xl = s.xl := rfl
@[simp] theorem State.onDesc_sync (did : Nat) (f : Desc → Desc) : (s.onDesc did f).sync = s.sync := rfl
@[simp] theorem State.onDesc_win (did : Nat) (f : Desc → Desc) : (s.onDesc did f).win = s.win := rfl
@[simp] theorem State.onDesc_cps (did : Nat) (f : Desc → Desc) : (s.onDesc did f).cps = s.cps := rfl
@[simp] theorem State.onDesc_fab (did : Nat) (f : Desc → Desc) : (s.onDesc did f).fab = s.fab := rfl
@[simp] theorem State.onDesc_sup (did : Nat) (f : Desc → Desc) : (s.onDesc did f).sup = s.sup := rfl
@[simp] theorem State.onDesc_tap (did : Nat) (f : Desc → Desc) : (s.onDesc did f).tap = s.tap := rfl
@[simp] theorem State.onDesc_drr (did : Nat) (f : Desc → Desc) : (s.onDesc did f).drr = s.drr := rfl

/-! `State.addDesc` -/

@[simp] theorem State.addDesc_pending (d : Desc) : (s.addDesc d).pending = s.pending := rfl
@[simp] theorem State.addDesc_free (d : Desc) : (s.addDesc d).free = s.free := rfl
@[simp] theorem State.addDesc_ids (d : Desc) : (s.addDesc d).ids = s.ids + 1 := rfl
@[simp] theorem State.addDesc_out (d : Desc) : (s.addDesc d).out = s.out := rfl
@[simp] theorem State.addDesc_die (d : Desc) : (s.addDesc d).die = s.die := rfl
@[simp] theorem State.addDesc_rst (d : Desc) : (s.addDesc d).rst = s.rst := rfl
@[simp] theorem State.addDesc_kp (d : Desc) : (s.addDesc d).kp = s.kp := rfl
@[simp] theorem State.addDesc_regs (d : Desc) : (s.addDesc d).regs = s.regs := rfl
@[simp] theorem State.addDesc_cfg (d : Desc) : (s.addDesc d).cfg = s.cfg := rfl
@[simp] theorem State.addDesc_commit (d : Desc) : (s.addDesc d).commit = s.commit := rfl
@[simp] theorem State.addDesc_images (d : Desc) : (s.addDesc d).images = s.images := rfl
@[simp] theorem State.addDesc_admin (d : Desc) : (s.addDesc d).admin = s.admin := rfl
@[simp] theorem State.addDesc_queues (d : Desc) : (s.addDesc d).queues = s.queues := rfl
@[simp] theorem State.addDesc_qmParked (d : Desc) : (s.addDesc d).qmParked = s.qmParked := rfl
@[simp] theorem State.addDesc_fetchOrder (d : Desc) : (s.addDesc d).fetchOrder = s.fetchOrder := rfl
@[simp] theorem State.addDesc_qmResults (d : Desc) : (s.addDesc d).qmResults = s.qmResults := rfl
@[simp] theorem State.addDesc_descs (d : Desc) : (s.addDesc d).descs = s.descs ++ [{ d with id := s.ids, order := s.ids }] := rfl
@[simp] theorem State.addDesc_reqs (d : Desc) : (s.addDesc d).reqs = s.reqs := rfl
@[simp] theorem State.addDesc_xl (d : Desc) : (s.addDesc d).xl = s.xl := rfl
@[simp] theorem State.addDesc_sync (d : Desc) : (s.addDesc d).sync = s.sync := rfl
@[simp] theorem State.addDesc_win (d : Desc) : (s.addDesc d).win = s.win := rfl
@[simp] theorem State.addDesc_cps (d : Desc) : (s.addDesc d).cps = s.cps := rfl
@[simp] theorem State.addDesc_fab (d : Desc) : (s.addDesc d).fab = s.fab := rfl
@[simp] theorem State.addDesc_sup (d : Desc) : (s.addDesc d).sup = s.sup := rfl
@[simp] theorem State.addDesc_tap (d : Desc) : (s.addDesc d).tap = s.tap := rfl
@[simp] theorem State.addDesc_drr (d : Desc) : (s.addDesc d).drr = s.drr := rfl

/-! `State.dropDesc` -/

@[simp] theorem State.dropDesc_pending (did : Nat) : (s.dropDesc did).pending = s.pending := rfl
@[simp] theorem State.dropDesc_free (did : Nat) : (s.dropDesc did).free = s.free := rfl
@[simp] theorem State.dropDesc_ids (did : Nat) : (s.dropDesc did).ids = s.ids := rfl
@[simp] theorem State.dropDesc_out (did : Nat) : (s.dropDesc did).out = s.out := rfl
@[simp] theorem State.dropDesc_die (did : Nat) : (s.dropDesc did).die = s.die := rfl
@[simp] theorem State.dropDesc_rst (did : Nat) : (s.dropDesc did).rst = s.rst := rfl
@[simp] theorem State.dropDesc_kp (did : Nat) : (s.dropDesc did).kp = s.kp := rfl
@[simp] theorem State.dropDesc_regs (did : Nat) : (s.dropDesc did).regs = s.regs := rfl
@[simp] theorem State.dropDesc_cfg (did : Nat) : (s.dropDesc did).cfg = s.cfg := rfl
@[simp] theorem State.dropDesc_commit (did : Nat) : (s.dropDesc did).commit = s.commit := rfl
@[simp] theorem State.dropDesc_images (did : Nat) : (s.dropDesc did).images = s.images := rfl
@[simp] theorem State.dropDesc_admin (did : Nat) : (s.dropDesc did).admin = s.admin := rfl
@[simp] theorem State.dropDesc_queues (did : Nat) : (s.dropDesc did).queues = s.queues := rfl
@[simp] theorem State.dropDesc_qmParked (did : Nat) : (s.dropDesc did).qmParked = s.qmParked := rfl
@[simp] theorem State.dropDesc_fetchOrder (did : Nat) : (s.dropDesc did).fetchOrder = s.fetchOrder := rfl
@[simp] theorem State.dropDesc_qmResults (did : Nat) : (s.dropDesc did).qmResults = s.qmResults := rfl
@[simp] theorem State.dropDesc_descs (did : Nat) : (s.dropDesc did).descs = s.descs.filter (fun d => d.id != did) := rfl
@[simp] theorem State.dropDesc_reqs (did : Nat) : (s.dropDesc did).reqs = s.reqs := rfl
@[simp] theorem State.dropDesc_xl (did : Nat) : (s.dropDesc did).xl = s.xl := rfl
@[simp] theorem State.dropDesc_sync (did : Nat) : (s.dropDesc did).sync = s.sync := rfl
@[simp] theorem State.dropDesc_win (did : Nat) : (s.dropDesc did).win = s.win := rfl
@[simp] theorem State.dropDesc_cps (did : Nat) : (s.dropDesc did).cps = s.cps := rfl
@[simp] theorem State.dropDesc_fab (did : Nat) : (s.dropDesc did).fab = s.fab := rfl
@[simp] theorem State.dropDesc_sup (did : Nat) : (s.dropDesc did).sup = s.sup := rfl
@[simp] theorem State.dropDesc_tap (did : Nat) : (s.dropDesc did).tap = s.tap := rfl
@[simp] theorem State.dropDesc_drr (did : Nat) : (s.dropDesc did).drr = s.drr := rfl

/-! `State.settleCores` -/

@[simp] theorem State.settleCores_pending : (s.settleCores).pending = s.pending := rfl
@[simp] theorem State.settleCores_free : (s.settleCores).free = s.free := rfl
@[simp] theorem State.settleCores_ids : (s.settleCores).ids = s.ids := rfl
@[simp] theorem State.settleCores_out : (s.settleCores).out = s.out := rfl
@[simp] theorem State.settleCores_die : (s.settleCores).die = s.die := rfl
@[simp] theorem State.settleCores_rst : (s.settleCores).rst = s.rst := rfl
@[simp] theorem State.settleCores_kp : (s.settleCores).kp = s.kp := rfl
@[simp] theorem State.settleCores_regs : (s.settleCores).regs = s.regs := rfl
@[simp] theorem State.settleCores_cfg : (s.settleCores).cfg = s.cfg := rfl
@[simp] theorem State.settleCores_commit : (s.settleCores).commit = s.commit := rfl
@[simp] theorem State.settleCores_images : (s.settleCores).images = s.images := rfl
@[simp] theorem State.settleCores_admin : (s.settleCores).admin = s.admin := rfl
@[simp] theorem State.settleCores_queues : (s.settleCores).queues = s.queues := rfl
@[simp] theorem State.settleCores_qmParked : (s.settleCores).qmParked = s.qmParked := rfl
@[simp] theorem State.settleCores_fetchOrder : (s.settleCores).fetchOrder = s.fetchOrder := rfl
@[simp] theorem State.settleCores_qmResults : (s.settleCores).qmResults = s.qmResults := rfl
@[simp] theorem State.settleCores_descs : (s.settleCores).descs = s.descs.map s.askCores := rfl
@[simp] theorem State.settleCores_reqs : (s.settleCores).reqs = s.reqs := rfl
@[simp] theorem State.settleCores_xl : (s.settleCores).xl = s.xl := rfl
@[simp] theorem State.settleCores_sync : (s.settleCores).sync = s.sync := rfl
@[simp] theorem State.settleCores_win : (s.settleCores).win = s.win := rfl
@[simp] theorem State.settleCores_cps : (s.settleCores).cps = s.cps := rfl
@[simp] theorem State.settleCores_fab : (s.settleCores).fab = s.fab := rfl
@[simp] theorem State.settleCores_sup : (s.settleCores).sup = s.sup := rfl
@[simp] theorem State.settleCores_tap : (s.settleCores).tap = s.tap := rfl
@[simp] theorem State.settleCores_drr : (s.settleCores).drr = s.drr := rfl

/-! `State.setQueue` -/

@[simp] theorem State.setQueue_pending (q : Nat) (x : Queue) : (s.setQueue q x).pending = s.pending := rfl
@[simp] theorem State.setQueue_free (q : Nat) (x : Queue) : (s.setQueue q x).free = s.free := rfl
@[simp] theorem State.setQueue_ids (q : Nat) (x : Queue) : (s.setQueue q x).ids = s.ids := rfl
@[simp] theorem State.setQueue_out (q : Nat) (x : Queue) : (s.setQueue q x).out = s.out := rfl
@[simp] theorem State.setQueue_die (q : Nat) (x : Queue) : (s.setQueue q x).die = s.die := rfl
@[simp] theorem State.setQueue_rst (q : Nat) (x : Queue) : (s.setQueue q x).rst = s.rst := rfl
@[simp] theorem State.setQueue_kp (q : Nat) (x : Queue) : (s.setQueue q x).kp = s.kp := rfl
@[simp] theorem State.setQueue_regs (q : Nat) (x : Queue) : (s.setQueue q x).regs = s.regs := rfl
@[simp] theorem State.setQueue_cfg (q : Nat) (x : Queue) : (s.setQueue q x).cfg = s.cfg := rfl
@[simp] theorem State.setQueue_commit (q : Nat) (x : Queue) : (s.setQueue q x).commit = s.commit := rfl
@[simp] theorem State.setQueue_images (q : Nat) (x : Queue) : (s.setQueue q x).images = s.images := rfl
@[simp] theorem State.setQueue_admin (q : Nat) (x : Queue) : (s.setQueue q x).admin = s.admin := rfl
@[simp] theorem State.setQueue_queues (q : Nat) (x : Queue) : (s.setQueue q x).queues = tput s.queues q x := rfl
@[simp] theorem State.setQueue_qmParked (q : Nat) (x : Queue) : (s.setQueue q x).qmParked = s.qmParked := rfl
@[simp] theorem State.setQueue_fetchOrder (q : Nat) (x : Queue) : (s.setQueue q x).fetchOrder = s.fetchOrder := rfl
@[simp] theorem State.setQueue_qmResults (q : Nat) (x : Queue) : (s.setQueue q x).qmResults = s.qmResults := rfl
@[simp] theorem State.setQueue_descs (q : Nat) (x : Queue) : (s.setQueue q x).descs = s.descs := rfl
@[simp] theorem State.setQueue_reqs (q : Nat) (x : Queue) : (s.setQueue q x).reqs = s.reqs := rfl
@[simp] theorem State.setQueue_xl (q : Nat) (x : Queue) : (s.setQueue q x).xl = s.xl := rfl
@[simp] theorem State.setQueue_sync (q : Nat) (x : Queue) : (s.setQueue q x).sync = s.sync := rfl
@[simp] theorem State.setQueue_win (q : Nat) (x : Queue) : (s.setQueue q x).win = s.win := rfl
@[simp] theorem State.setQueue_cps (q : Nat) (x : Queue) : (s.setQueue q x).cps = s.cps := rfl
@[simp] theorem State.setQueue_fab (q : Nat) (x : Queue) : (s.setQueue q x).fab = s.fab := rfl
@[simp] theorem State.setQueue_sup (q : Nat) (x : Queue) : (s.setQueue q x).sup = s.sup := rfl
@[simp] theorem State.setQueue_tap (q : Nat) (x : Queue) : (s.setQueue q x).tap = s.tap := rfl
@[simp] theorem State.setQueue_drr (q : Nat) (x : Queue) : (s.setQueue q x).drr = s.drr := rfl

/-! `State.onQueue` -/

@[simp] theorem State.onQueue_pending (q : Nat) (f : Queue → Queue) : (s.onQueue q f).pending = s.pending := rfl
@[simp] theorem State.onQueue_free (q : Nat) (f : Queue → Queue) : (s.onQueue q f).free = s.free := rfl
@[simp] theorem State.onQueue_ids (q : Nat) (f : Queue → Queue) : (s.onQueue q f).ids = s.ids := rfl
@[simp] theorem State.onQueue_out (q : Nat) (f : Queue → Queue) : (s.onQueue q f).out = s.out := rfl
@[simp] theorem State.onQueue_die (q : Nat) (f : Queue → Queue) : (s.onQueue q f).die = s.die := rfl
@[simp] theorem State.onQueue_rst (q : Nat) (f : Queue → Queue) : (s.onQueue q f).rst = s.rst := rfl
@[simp] theorem State.onQueue_kp (q : Nat) (f : Queue → Queue) : (s.onQueue q f).kp = s.kp := rfl
@[simp] theorem State.onQueue_regs (q : Nat) (f : Queue → Queue) : (s.onQueue q f).regs = s.regs := rfl
@[simp] theorem State.onQueue_cfg (q : Nat) (f : Queue → Queue) : (s.onQueue q f).cfg = s.cfg := rfl
@[simp] theorem State.onQueue_commit (q : Nat) (f : Queue → Queue) : (s.onQueue q f).commit = s.commit := rfl
@[simp] theorem State.onQueue_images (q : Nat) (f : Queue → Queue) : (s.onQueue q f).images = s.images := rfl
@[simp] theorem State.onQueue_admin (q : Nat) (f : Queue → Queue) : (s.onQueue q f).admin = s.admin := rfl
@[simp] theorem State.onQueue_queues (q : Nat) (f : Queue → Queue) : (s.onQueue q f).queues = tmod s.queues q f := rfl
@[simp] theorem State.onQueue_qmParked (q : Nat) (f : Queue → Queue) : (s.onQueue q f).qmParked = s.qmParked := rfl
@[simp] theorem State.onQueue_fetchOrder (q : Nat) (f : Queue → Queue) : (s.onQueue q f).fetchOrder = s.fetchOrder := rfl
@[simp] theorem State.onQueue_qmResults (q : Nat) (f : Queue → Queue) : (s.onQueue q f).qmResults = s.qmResults := rfl
@[simp] theorem State.onQueue_descs (q : Nat) (f : Queue → Queue) : (s.onQueue q f).descs = s.descs := rfl
@[simp] theorem State.onQueue_reqs (q : Nat) (f : Queue → Queue) : (s.onQueue q f).reqs = s.reqs := rfl
@[simp] theorem State.onQueue_xl (q : Nat) (f : Queue → Queue) : (s.onQueue q f).xl = s.xl := rfl
@[simp] theorem State.onQueue_sync (q : Nat) (f : Queue → Queue) : (s.onQueue q f).sync = s.sync := rfl
@[simp] theorem State.onQueue_win (q : Nat) (f : Queue → Queue) : (s.onQueue q f).win = s.win := rfl
@[simp] theorem State.onQueue_cps (q : Nat) (f : Queue → Queue) : (s.onQueue q f).cps = s.cps := rfl
@[simp] theorem State.onQueue_fab (q : Nat) (f : Queue → Queue) : (s.onQueue q f).fab = s.fab := rfl
@[simp] theorem State.onQueue_sup (q : Nat) (f : Queue → Queue) : (s.onQueue q f).sup = s.sup := rfl
@[simp] theorem State.onQueue_tap (q : Nat) (f : Queue → Queue) : (s.onQueue q f).tap = s.tap := rfl
@[simp] theorem State.onQueue_drr (q : Nat) (f : Queue → Queue) : (s.onQueue q f).drr = s.drr := rfl

/-! `State.setCport` -/

@[simp] theorem State.setCport_pending (g : Nat) (x : CPort) : (s.setCport g x).pending = s.pending := rfl
@[simp] theorem State.setCport_free (g : Nat) (x : CPort) : (s.setCport g x).free = s.free := rfl
@[simp] theorem State.setCport_ids (g : Nat) (x : CPort) : (s.setCport g x).ids = s.ids := rfl
@[simp] theorem State.setCport_out (g : Nat) (x : CPort) : (s.setCport g x).out = s.out := rfl
@[simp] theorem State.setCport_die (g : Nat) (x : CPort) : (s.setCport g x).die = s.die := rfl
@[simp] theorem State.setCport_rst (g : Nat) (x : CPort) : (s.setCport g x).rst = s.rst := rfl
@[simp] theorem State.setCport_kp (g : Nat) (x : CPort) : (s.setCport g x).kp = s.kp := rfl
@[simp] theorem State.setCport_regs (g : Nat) (x : CPort) : (s.setCport g x).regs = s.regs := rfl
@[simp] theorem State.setCport_cfg (g : Nat) (x : CPort) : (s.setCport g x).cfg = s.cfg := rfl
@[simp] theorem State.setCport_commit (g : Nat) (x : CPort) : (s.setCport g x).commit = s.commit := rfl
@[simp] theorem State.setCport_images (g : Nat) (x : CPort) : (s.setCport g x).images = s.images := rfl
@[simp] theorem State.setCport_admin (g : Nat) (x : CPort) : (s.setCport g x).admin = s.admin := rfl
@[simp] theorem State.setCport_queues (g : Nat) (x : CPort) : (s.setCport g x).queues = s.queues := rfl
@[simp] theorem State.setCport_qmParked (g : Nat) (x : CPort) : (s.setCport g x).qmParked = s.qmParked := rfl
@[simp] theorem State.setCport_fetchOrder (g : Nat) (x : CPort) : (s.setCport g x).fetchOrder = s.fetchOrder := rfl
@[simp] theorem State.setCport_qmResults (g : Nat) (x : CPort) : (s.setCport g x).qmResults = s.qmResults := rfl
@[simp] theorem State.setCport_descs (g : Nat) (x : CPort) : (s.setCport g x).descs = s.descs := rfl
@[simp] theorem State.setCport_reqs (g : Nat) (x : CPort) : (s.setCport g x).reqs = s.reqs := rfl
@[simp] theorem State.setCport_xl (g : Nat) (x : CPort) : (s.setCport g x).xl = s.xl := rfl
@[simp] theorem State.setCport_sync (g : Nat) (x : CPort) : (s.setCport g x).sync = s.sync := rfl
@[simp] theorem State.setCport_win (g : Nat) (x : CPort) : (s.setCport g x).win = s.win := rfl
@[simp] theorem State.setCport_cps (g : Nat) (x : CPort) : (s.setCport g x).cps = tput s.cps g x := rfl
@[simp] theorem State.setCport_fab (g : Nat) (x : CPort) : (s.setCport g x).fab = s.fab := rfl
@[simp] theorem State.setCport_sup (g : Nat) (x : CPort) : (s.setCport g x).sup = s.sup := rfl
@[simp] theorem State.setCport_tap (g : Nat) (x : CPort) : (s.setCport g x).tap = s.tap := rfl
@[simp] theorem State.setCport_drr (g : Nat) (x : CPort) : (s.setCport g x).drr = s.drr := rfl

/-! `State.setChan` -/

@[simp] theorem State.setChan_pending (g c : Nat) (ch : Channel) : (s.setChan g c ch).pending = s.pending := rfl
@[simp] theorem State.setChan_free (g c : Nat) (ch : Channel) : (s.setChan g c ch).free = s.free := rfl
@[simp] theorem State.setChan_ids (g c : Nat) (ch : Channel) : (s.setChan g c ch).ids = s.ids := rfl
@[simp] theorem State.setChan_out (g c : Nat) (ch : Channel) : (s.setChan g c ch).out = s.out := rfl
@[simp] theorem State.setChan_die (g c : Nat) (ch : Channel) : (s.setChan g c ch).die = s.die := rfl
@[simp] theorem State.setChan_rst (g c : Nat) (ch : Channel) : (s.setChan g c ch).rst = s.rst := rfl
@[simp] theorem State.setChan_kp (g c : Nat) (ch : Channel) : (s.setChan g c ch).kp = s.kp := rfl
@[simp] theorem State.setChan_regs (g c : Nat) (ch : Channel) : (s.setChan g c ch).regs = s.regs := rfl
@[simp] theorem State.setChan_cfg (g c : Nat) (ch : Channel) : (s.setChan g c ch).cfg = s.cfg := rfl
@[simp] theorem State.setChan_commit (g c : Nat) (ch : Channel) : (s.setChan g c ch).commit = s.commit := rfl
@[simp] theorem State.setChan_images (g c : Nat) (ch : Channel) : (s.setChan g c ch).images = s.images := rfl
@[simp] theorem State.setChan_admin (g c : Nat) (ch : Channel) : (s.setChan g c ch).admin = s.admin := rfl
@[simp] theorem State.setChan_queues (g c : Nat) (ch : Channel) : (s.setChan g c ch).queues = s.queues := rfl
@[simp] theorem State.setChan_qmParked (g c : Nat) (ch : Channel) : (s.setChan g c ch).qmParked = s.qmParked := rfl
@[simp] theorem State.setChan_fetchOrder (g c : Nat) (ch : Channel) : (s.setChan g c ch).fetchOrder = s.fetchOrder := rfl
@[simp] theorem State.setChan_qmResults (g c : Nat) (ch : Channel) : (s.setChan g c ch).qmResults = s.qmResults := rfl
@[simp] theorem State.setChan_descs (g c : Nat) (ch : Channel) : (s.setChan g c ch).descs = s.descs := rfl
@[simp] theorem State.setChan_reqs (g c : Nat) (ch : Channel) : (s.setChan g c ch).reqs = s.reqs := rfl
@[simp] theorem State.setChan_xl (g c : Nat) (ch : Channel) : (s.setChan g c ch).xl = s.xl := rfl
@[simp] theorem State.setChan_sync (g c : Nat) (ch : Channel) : (s.setChan g c ch).sync = s.sync := rfl
@[simp] theorem State.setChan_win (g c : Nat) (ch : Channel) : (s.setChan g c ch).win = s.win := rfl
@[simp] theorem State.setChan_cps (g c : Nat) (ch : Channel) : (s.setChan g c ch).cps = tput s.cps g { s.cport g with chans := tput (s.cport g).chans c ch } := rfl
@[simp] theorem State.setChan_fab (g c : Nat) (ch : Channel) : (s.setChan g c ch).fab = s.fab := rfl
@[simp] theorem State.setChan_sup (g c : Nat) (ch : Channel) : (s.setChan g c ch).sup = s.sup := rfl
@[simp] theorem State.setChan_tap (g c : Nat) (ch : Channel) : (s.setChan g c ch).tap = s.tap := rfl
@[simp] theorem State.setChan_drr (g c : Nat) (ch : Channel) : (s.setChan g c ch).drr = s.drr := rfl

/-! `State.setPair` -/

@[simp] theorem State.setPair_pending (p : Nat) (x : Pair) : (s.setPair p x).pending = s.pending := rfl
@[simp] theorem State.setPair_free (p : Nat) (x : Pair) : (s.setPair p x).free = s.free := rfl
@[simp] theorem State.setPair_ids (p : Nat) (x : Pair) : (s.setPair p x).ids = s.ids := rfl
@[simp] theorem State.setPair_out (p : Nat) (x : Pair) : (s.setPair p x).out = s.out := rfl
@[simp] theorem State.setPair_die (p : Nat) (x : Pair) : (s.setPair p x).die = s.die := rfl
@[simp] theorem State.setPair_rst (p : Nat) (x : Pair) : (s.setPair p x).rst = s.rst := rfl
@[simp] theorem State.setPair_kp (p : Nat) (x : Pair) : (s.setPair p x).kp = s.kp := rfl
@[simp] theorem State.setPair_regs (p : Nat) (x : Pair) : (s.setPair p x).regs = s.regs := rfl
@[simp] theorem State.setPair_cfg (p : Nat) (x : Pair) : (s.setPair p x).cfg = s.cfg := rfl
@[simp] theorem State.setPair_commit (p : Nat) (x : Pair) : (s.setPair p x).commit = s.commit := rfl
@[simp] theorem State.setPair_images (p : Nat) (x : Pair) : (s.setPair p x).images = s.images := rfl
@[simp] theorem State.setPair_admin (p : Nat) (x : Pair) : (s.setPair p x).admin = s.admin := rfl
@[simp] theorem State.setPair_queues (p : Nat) (x : Pair) : (s.setPair p x).queues = s.queues := rfl
@[simp] theorem State.setPair_qmParked (p : Nat) (x : Pair) : (s.setPair p x).qmParked = s.qmParked := rfl
@[simp] theorem State.setPair_fetchOrder (p : Nat) (x : Pair) : (s.setPair p x).fetchOrder = s.fetchOrder := rfl
@[simp] theorem State.setPair_qmResults (p : Nat) (x : Pair) : (s.setPair p x).qmResults = s.qmResults := rfl
@[simp] theorem State.setPair_descs (p : Nat) (x : Pair) : (s.setPair p x).descs = s.descs := rfl
@[simp] theorem State.setPair_reqs (p : Nat) (x : Pair) : (s.setPair p x).reqs = s.reqs := rfl
@[simp] theorem State.setPair_xl (p : Nat) (x : Pair) : (s.setPair p x).xl = s.xl := rfl
@[simp] theorem State.setPair_sync (p : Nat) (x : Pair) : (s.setPair p x).sync = s.sync := rfl
@[simp] theorem State.setPair_win (p : Nat) (x : Pair) : (s.setPair p x).win = { s.win with pairs := tput s.win.pairs p x } := rfl
@[simp] theorem State.setPair_cps (p : Nat) (x : Pair) : (s.setPair p x).cps = s.cps := rfl
@[simp] theorem State.setPair_fab (p : Nat) (x : Pair) : (s.setPair p x).fab = s.fab := rfl
@[simp] theorem State.setPair_sup (p : Nat) (x : Pair) : (s.setPair p x).sup = s.sup := rfl
@[simp] theorem State.setPair_tap (p : Nat) (x : Pair) : (s.setPair p x).tap = s.tap := rfl
@[simp] theorem State.setPair_drr (p : Nat) (x : Pair) : (s.setPair p x).drr = s.drr := rfl

/-! `State.setLink` -/

@[simp] theorem State.setLink_pending (l : Nat) (x : Link) : (s.setLink l x).pending = s.pending := rfl
@[simp] theorem State.setLink_free (l : Nat) (x : Link) : (s.setLink l x).free = s.free := rfl
@[simp] theorem State.setLink_ids (l : Nat) (x : Link) : (s.setLink l x).ids = s.ids := rfl
@[simp] theorem State.setLink_out (l : Nat) (x : Link) : (s.setLink l x).out = s.out := rfl
@[simp] theorem State.setLink_die (l : Nat) (x : Link) : (s.setLink l x).die = s.die := rfl
@[simp] theorem State.setLink_rst (l : Nat) (x : Link) : (s.setLink l x).rst = s.rst := rfl
@[simp] theorem State.setLink_kp (l : Nat) (x : Link) : (s.setLink l x).kp = s.kp := rfl
@[simp] theorem State.setLink_regs (l : Nat) (x : Link) : (s.setLink l x).regs = s.regs := rfl
@[simp] theorem State.setLink_cfg (l : Nat) (x : Link) : (s.setLink l x).cfg = s.cfg := rfl
@[simp] theorem State.setLink_commit (l : Nat) (x : Link) : (s.setLink l x).commit = s.commit := rfl
@[simp] theorem State.setLink_images (l : Nat) (x : Link) : (s.setLink l x).images = s.images := rfl
@[simp] theorem State.setLink_admin (l : Nat) (x : Link) : (s.setLink l x).admin = s.admin := rfl
@[simp] theorem State.setLink_queues (l : Nat) (x : Link) : (s.setLink l x).queues = s.queues := rfl
@[simp] theorem State.setLink_qmParked (l : Nat) (x : Link) : (s.setLink l x).qmParked = s.qmParked := rfl
@[simp] theorem State.setLink_fetchOrder (l : Nat) (x : Link) : (s.setLink l x).fetchOrder = s.fetchOrder := rfl
@[simp] theorem State.setLink_qmResults (l : Nat) (x : Link) : (s.setLink l x).qmResults = s.qmResults := rfl
@[simp] theorem State.setLink_descs (l : Nat) (x : Link) : (s.setLink l x).descs = s.descs := rfl
@[simp] theorem State.setLink_reqs (l : Nat) (x : Link) : (s.setLink l x).reqs = s.reqs := rfl
@[simp] theorem State.setLink_xl (l : Nat) (x : Link) : (s.setLink l x).xl = s.xl := rfl
@[simp] theorem State.setLink_sync (l : Nat) (x : Link) : (s.setLink l x).sync = s.sync := rfl
@[simp] theorem State.setLink_win (l : Nat) (x : Link) : (s.setLink l x).win = s.win := rfl
@[simp] theorem State.setLink_cps (l : Nat) (x : Link) : (s.setLink l x).cps = s.cps := rfl
@[simp] theorem State.setLink_fab (l : Nat) (x : Link) : (s.setLink l x).fab = { s.fab with links := tput s.fab.links l x } := rfl
@[simp] theorem State.setLink_sup (l : Nat) (x : Link) : (s.setLink l x).sup = s.sup := rfl
@[simp] theorem State.setLink_tap (l : Nat) (x : Link) : (s.setLink l x).tap = s.tap := rfl
@[simp] theorem State.setLink_drr (l : Nat) (x : Link) : (s.setLink l x).drr = s.drr := rfl

/-! `State.setIn` -/

@[simp] theorem State.setIn_pending (k : Nat) (x : InLine) : (s.setIn k x).pending = s.pending := rfl
@[simp] theorem State.setIn_free (k : Nat) (x : InLine) : (s.setIn k x).free = s.free := rfl
@[simp] theorem State.setIn_ids (k : Nat) (x : InLine) : (s.setIn k x).ids = s.ids := rfl
@[simp] theorem State.setIn_out (k : Nat) (x : InLine) : (s.setIn k x).out = s.out := rfl
@[simp] theorem State.setIn_die (k : Nat) (x : InLine) : (s.setIn k x).die = s.die := rfl
@[simp] theorem State.setIn_rst (k : Nat) (x : InLine) : (s.setIn k x).rst = s.rst := rfl
@[simp] theorem State.setIn_kp (k : Nat) (x : InLine) : (s.setIn k x).kp = s.kp := rfl
@[simp] theorem State.setIn_regs (k : Nat) (x : InLine) : (s.setIn k x).regs = s.regs := rfl
@[simp] theorem State.setIn_cfg (k : Nat) (x : InLine) : (s.setIn k x).cfg = s.cfg := rfl
@[simp] theorem State.setIn_commit (k : Nat) (x : InLine) : (s.setIn k x).commit = s.commit := rfl
@[simp] theorem State.setIn_images (k : Nat) (x : InLine) : (s.setIn k x).images = s.images := rfl
@[simp] theorem State.setIn_admin (k : Nat) (x : InLine) : (s.setIn k x).admin = s.admin := rfl
@[simp] theorem State.setIn_queues (k : Nat) (x : InLine) : (s.setIn k x).queues = s.queues := rfl
@[simp] theorem State.setIn_qmParked (k : Nat) (x : InLine) : (s.setIn k x).qmParked = s.qmParked := rfl
@[simp] theorem State.setIn_fetchOrder (k : Nat) (x : InLine) : (s.setIn k x).fetchOrder = s.fetchOrder := rfl
@[simp] theorem State.setIn_qmResults (k : Nat) (x : InLine) : (s.setIn k x).qmResults = s.qmResults := rfl
@[simp] theorem State.setIn_descs (k : Nat) (x : InLine) : (s.setIn k x).descs = s.descs := rfl
@[simp] theorem State.setIn_reqs (k : Nat) (x : InLine) : (s.setIn k x).reqs = s.reqs := rfl
@[simp] theorem State.setIn_xl (k : Nat) (x : InLine) : (s.setIn k x).xl = s.xl := rfl
@[simp] theorem State.setIn_sync (k : Nat) (x : InLine) : (s.setIn k x).sync = s.sync := rfl
@[simp] theorem State.setIn_win (k : Nat) (x : InLine) : (s.setIn k x).win = s.win := rfl
@[simp] theorem State.setIn_cps (k : Nat) (x : InLine) : (s.setIn k x).cps = s.cps := rfl
@[simp] theorem State.setIn_fab (k : Nat) (x : InLine) : (s.setIn k x).fab = { s.fab with inb := tput s.fab.inb k x } := rfl
@[simp] theorem State.setIn_sup (k : Nat) (x : InLine) : (s.setIn k x).sup = s.sup := rfl
@[simp] theorem State.setIn_tap (k : Nat) (x : InLine) : (s.setIn k x).tap = s.tap := rfl
@[simp] theorem State.setIn_drr (k : Nat) (x : InLine) : (s.setIn k x).drr = s.drr := rfl

/-! `State.setLine` -/

@[simp] theorem State.setLine_pending (n : Nat) (x : OutLine) : (s.setLine n x).pending = s.pending := rfl
@[simp] theorem State.setLine_free (n : Nat) (x : OutLine) : (s.setLine n x).free = s.free := rfl
@[simp] theorem State.setLine_ids (n : Nat) (x : OutLine) : (s.setLine n x).ids = s.ids := rfl
@[simp] theorem State.setLine_out (n : Nat) (x : OutLine) : (s.setLine n x).out = s.out := rfl
@[simp] theorem State.setLine_die (n : Nat) (x : OutLine) : (s.setLine n x).die = s.die := rfl
@[simp] theorem State.setLine_rst (n : Nat) (x : OutLine) : (s.setLine n x).rst = s.rst := rfl
@[simp] theorem State.setLine_kp (n : Nat) (x : OutLine) : (s.setLine n x).kp = s.kp := rfl
@[simp] theorem State.setLine_regs (n : Nat) (x : OutLine) : (s.setLine n x).regs = s.regs := rfl
@[simp] theorem State.setLine_cfg (n : Nat) (x : OutLine) : (s.setLine n x).cfg = s.cfg := rfl
@[simp] theorem State.setLine_commit (n : Nat) (x : OutLine) : (s.setLine n x).commit = s.commit := rfl
@[simp] theorem State.setLine_images (n : Nat) (x : OutLine) : (s.setLine n x).images = s.images := rfl
@[simp] theorem State.setLine_admin (n : Nat) (x : OutLine) : (s.setLine n x).admin = s.admin := rfl
@[simp] theorem State.setLine_queues (n : Nat) (x : OutLine) : (s.setLine n x).queues = s.queues := rfl
@[simp] theorem State.setLine_qmParked (n : Nat) (x : OutLine) : (s.setLine n x).qmParked = s.qmParked := rfl
@[simp] theorem State.setLine_fetchOrder (n : Nat) (x : OutLine) : (s.setLine n x).fetchOrder = s.fetchOrder := rfl
@[simp] theorem State.setLine_qmResults (n : Nat) (x : OutLine) : (s.setLine n x).qmResults = s.qmResults := rfl
@[simp] theorem State.setLine_descs (n : Nat) (x : OutLine) : (s.setLine n x).descs = s.descs := rfl
@[simp] theorem State.setLine_reqs (n : Nat) (x : OutLine) : (s.setLine n x).reqs = s.reqs := rfl
@[simp] theorem State.setLine_xl (n : Nat) (x : OutLine) : (s.setLine n x).xl = s.xl := rfl
@[simp] theorem State.setLine_sync (n : Nat) (x : OutLine) : (s.setLine n x).sync = s.sync := rfl
@[simp] theorem State.setLine_win (n : Nat) (x : OutLine) : (s.setLine n x).win = s.win := rfl
@[simp] theorem State.setLine_cps (n : Nat) (x : OutLine) : (s.setLine n x).cps = s.cps := rfl
@[simp] theorem State.setLine_fab (n : Nat) (x : OutLine) : (s.setLine n x).fab = { s.fab with out := tput s.fab.out n x } := rfl
@[simp] theorem State.setLine_sup (n : Nat) (x : OutLine) : (s.setLine n x).sup = s.sup := rfl
@[simp] theorem State.setLine_tap (n : Nat) (x : OutLine) : (s.setLine n x).tap = s.tap := rfl
@[simp] theorem State.setLine_drr (n : Nat) (x : OutLine) : (s.setLine n x).drr = s.drr := rfl

/-! `State.loopBlock` -/

@[simp] theorem State.loopBlock_pending (b : LinkBlock) : (s.loopBlock b).pending = s.pending := rfl
@[simp] theorem State.loopBlock_free (b : LinkBlock) : (s.loopBlock b).free = s.free := rfl
@[simp] theorem State.loopBlock_ids (b : LinkBlock) : (s.loopBlock b).ids = s.ids := rfl
@[simp] theorem State.loopBlock_out (b : LinkBlock) : (s.loopBlock b).out = s.out := rfl
@[simp] theorem State.loopBlock_die (b : LinkBlock) : (s.loopBlock b).die = s.die := rfl
@[simp] theorem State.loopBlock_rst (b : LinkBlock) : (s.loopBlock b).rst = s.rst := rfl
@[simp] theorem State.loopBlock_kp (b : LinkBlock) : (s.loopBlock b).kp = s.kp := rfl
@[simp] theorem State.loopBlock_regs (b : LinkBlock) : (s.loopBlock b).regs = s.regs := rfl
@[simp] theorem State.loopBlock_cfg (b : LinkBlock) : (s.loopBlock b).cfg = s.cfg := rfl
@[simp] theorem State.loopBlock_commit (b : LinkBlock) : (s.loopBlock b).commit = s.commit := rfl
@[simp] theorem State.loopBlock_images (b : LinkBlock) : (s.loopBlock b).images = s.images := rfl
@[simp] theorem State.loopBlock_admin (b : LinkBlock) : (s.loopBlock b).admin = s.admin := rfl
@[simp] theorem State.loopBlock_queues (b : LinkBlock) : (s.loopBlock b).queues = s.queues := rfl
@[simp] theorem State.loopBlock_qmParked (b : LinkBlock) : (s.loopBlock b).qmParked = s.qmParked := rfl
@[simp] theorem State.loopBlock_fetchOrder (b : LinkBlock) : (s.loopBlock b).fetchOrder = s.fetchOrder := rfl
@[simp] theorem State.loopBlock_qmResults (b : LinkBlock) : (s.loopBlock b).qmResults = s.qmResults := rfl
@[simp] theorem State.loopBlock_descs (b : LinkBlock) : (s.loopBlock b).descs = s.descs := rfl
@[simp] theorem State.loopBlock_reqs (b : LinkBlock) : (s.loopBlock b).reqs = s.reqs := rfl
@[simp] theorem State.loopBlock_xl (b : LinkBlock) : (s.loopBlock b).xl = s.xl := rfl
@[simp] theorem State.loopBlock_sync (b : LinkBlock) : (s.loopBlock b).sync = s.sync := rfl
@[simp] theorem State.loopBlock_win (b : LinkBlock) : (s.loopBlock b).win = s.win := rfl
@[simp] theorem State.loopBlock_cps (b : LinkBlock) : (s.loopBlock b).cps = s.cps := rfl
@[simp] theorem State.loopBlock_fab (b : LinkBlock) : (s.loopBlock b).fab = { s.fab with loop := s.fab.loop ++ [b] } := rfl
@[simp] theorem State.loopBlock_sup (b : LinkBlock) : (s.loopBlock b).sup = s.sup := rfl
@[simp] theorem State.loopBlock_tap (b : LinkBlock) : (s.loopBlock b).tap = s.tap := rfl
@[simp] theorem State.loopBlock_drr (b : LinkBlock) : (s.loopBlock b).drr = s.drr := rfl

/-! `State.tapSelect` -/

@[simp] theorem State.tapSelect_pending (ir : Nat) (data : Word) : (s.tapSelect ir data).pending = s.pending := rfl
@[simp] theorem State.tapSelect_free (ir : Nat) (data : Word) : (s.tapSelect ir data).free = s.free := rfl
@[simp] theorem State.tapSelect_ids (ir : Nat) (data : Word) : (s.tapSelect ir data).ids = s.ids := rfl
@[simp] theorem State.tapSelect_out (ir : Nat) (data : Word) : (s.tapSelect ir data).out = s.out := rfl
@[simp] theorem State.tapSelect_die (ir : Nat) (data : Word) : (s.tapSelect ir data).die = s.die := rfl
@[simp] theorem State.tapSelect_rst (ir : Nat) (data : Word) : (s.tapSelect ir data).rst = s.rst := rfl
@[simp] theorem State.tapSelect_kp (ir : Nat) (data : Word) : (s.tapSelect ir data).kp = s.kp := rfl
@[simp] theorem State.tapSelect_regs (ir : Nat) (data : Word) : (s.tapSelect ir data).regs = s.regs := rfl
@[simp] theorem State.tapSelect_cfg (ir : Nat) (data : Word) : (s.tapSelect ir data).cfg = s.cfg := rfl
@[simp] theorem State.tapSelect_commit (ir : Nat) (data : Word) : (s.tapSelect ir data).commit = s.commit := rfl
@[simp] theorem State.tapSelect_images (ir : Nat) (data : Word) : (s.tapSelect ir data).images = s.images := rfl
@[simp] theorem State.tapSelect_admin (ir : Nat) (data : Word) : (s.tapSelect ir data).admin = s.admin := rfl
@[simp] theorem State.tapSelect_queues (ir : Nat) (data : Word) : (s.tapSelect ir data).queues = s.queues := rfl
@[simp] theorem State.tapSelect_qmParked (ir : Nat) (data : Word) : (s.tapSelect ir data).qmParked = s.qmParked := rfl
@[simp] theorem State.tapSelect_fetchOrder (ir : Nat) (data : Word) : (s.tapSelect ir data).fetchOrder = s.fetchOrder := rfl
@[simp] theorem State.tapSelect_qmResults (ir : Nat) (data : Word) : (s.tapSelect ir data).qmResults = s.qmResults := rfl
@[simp] theorem State.tapSelect_descs (ir : Nat) (data : Word) : (s.tapSelect ir data).descs = s.descs := rfl
@[simp] theorem State.tapSelect_reqs (ir : Nat) (data : Word) : (s.tapSelect ir data).reqs = s.reqs := rfl
@[simp] theorem State.tapSelect_xl (ir : Nat) (data : Word) : (s.tapSelect ir data).xl = s.xl := rfl
@[simp] theorem State.tapSelect_sync (ir : Nat) (data : Word) : (s.tapSelect ir data).sync = s.sync := rfl
@[simp] theorem State.tapSelect_win (ir : Nat) (data : Word) : (s.tapSelect ir data).win = s.win := rfl
@[simp] theorem State.tapSelect_cps (ir : Nat) (data : Word) : (s.tapSelect ir data).cps = s.cps := rfl
@[simp] theorem State.tapSelect_fab (ir : Nat) (data : Word) : (s.tapSelect ir data).fab = s.fab := rfl
@[simp] theorem State.tapSelect_sup (ir : Nat) (data : Word) : (s.tapSelect ir data).sup = s.sup := rfl
@[simp] theorem State.tapSelect_tap (ir : Nat) (data : Word) : (s.tapSelect ir data).tap = { s.tap with ir := ir, data := data } := rfl
@[simp] theorem State.tapSelect_drr (ir : Nat) (data : Word) : (s.tapSelect ir data).drr = s.drr := rfl
/-! Reads of what an update leaves. -/

@[simp] theorem State.grade_of_die {s t : State} (h : t.die = s.die) : t.grade = s.grade := by simp [State.grade, h]

end Sys2Proof.Machine
end

