-- ==== Sys2Proof/Laws/Shared.lean ====
section
/-! SUPPORT. The laws of the shared operations, one for each: everything that setting a register, an event, a record of the keeper's log, a
refused write, a fatal event, a request to a power switch and a turn of an arbitration point can change. -/

namespace Sys2Proof.Machine

variable (s : State)

/-! ### Registers -/

/-- Two states of one die read a register alike where their register files do. -/
theorem State.reg_eq {s t : State} (hd : t.die = s.die) (hr : t.regs = s.regs) (k : Nat) : t.reg k = s.reg k := by
  simp [State.reg, State.grade, hd, hr]

theorem State.act_eq {s t : State} (hd : t.die = s.die) (hr : t.cfg.active = s.cfg.active) (k : Nat) : t.act k = s.act k := by
  simp [State.act, State.grade, hd, hr]

theorem State.shadow_eq {s t : State} (hd : t.die = s.die) (hr : t.cfg.shadow = s.cfg.shadow) (k : Nat) : t.shadow k = s.shadow k := by
  simp [State.shadow, State.grade, hd, hr]

theorem State.reg_setReg {s : State} (h : tsorted s.regs = true) (k j : Nat) (v : Word) :
    (s.setReg k v).reg j = if j = k then v else s.reg j := rget_rput h ..

theorem State.reg_setReg_ne {j k : Nat} (v : Word) (h : j ≠ k) : (s.setReg k v).reg j = s.reg j := rget_rput_ne _ _ _ h

/-- A register set to another value than its reset value reads it, whatever the order of the file. -/
theorem State.reg_setReg_self {k : Nat} {v : Word} (h : v ≠ resetOf s.grade k) : (s.setReg k v).reg k = v := by
  simp [State.reg, State.setReg, rget, rput_eq, h]

theorem State.tsorted_setReg {s : State} (h : tsorted s.regs = true) (k : Nat) (v : Word) : tsorted (s.setReg k v).regs = true :=
  tsorted_rput h ..

theorem State.reg_setFld_ne {j k : Nat} (hi lo v : Nat) (h : j ≠ k) : (s.setFld k hi lo v).reg j = s.reg j := s.reg_setReg_ne _ h

theorem State.reg_setFld {s : State} (h : tsorted s.regs = true) (k j hi lo v : Nat) :
    (s.setFld k hi lo v).reg j = if j = k then putFld (s.reg k) hi lo v else s.reg j := reg_setReg h ..

theorem State.tsorted_setFld {s : State} (h : tsorted s.regs = true) (k hi lo v : Nat) : tsorted (s.setFld k hi lo v).regs = true :=
  tsorted_setReg h ..

theorem State.tsorted_bump {s : State} (h : tsorted s.regs = true) (k hi lo n : Nat) : tsorted (s.bump k hi lo n).regs = true :=
  tsorted_setReg h ..

/-! ### Events -/

/-- An event changes no register but its own two. -/
theorem State.reg_event_ne {ev b cnt hi lo j : Nat} (h1 : j ≠ ev) (h2 : j ≠ cnt) : (s.event ev b cnt hi lo).reg j = s.reg j := by
  unfold State.event State.bump
  rw [State.reg_setFld_ne _ _ _ _ h2, State.reg_setReg_ne _ _ h1]

theorem State.tsorted_event {s : State} (h : tsorted s.regs = true) (ev b cnt hi lo : Nat) :
    tsorted (s.event ev b cnt hi lo).regs = true := tsorted_bump (tsorted_setReg h ..) ..

/-- An event sets its bit and leaves every other bit of its register. -/
theorem State.bit_event {ev b cnt hi lo i : Nat} (hne : ev ≠ cnt) (hr : resetOf s.grade ev = 0) (hb : b < 64) (hi64 : i < 64) :
    bit ((s.event ev b cnt hi lo).reg ev) i = (decide (i = b) || bit (s.reg ev) i) := by
  unfold State.event State.bump
  rw [State.reg_setFld_ne _ _ _ _ hne, State.reg_setReg_self, bit_putBit hi64]
  · by_cases e : i = b <;> simp [e]
  · rw [hr]
    intro h0
    have h1 : bit (putBit (s.reg ev) b true) b = true := by rw [bit_putBit hb]; simp
    rw [h0] at h1
    simp [bit] at h1

/-- An event adds one to its count. -/
theorem State.regFld_event {s : State} (h : tsorted s.regs = true) {ev b cnt hi lo : Nat} (hne : ev ≠ cnt) (hh : hi < 64) :
    (s.event ev b cnt hi lo).regFld cnt hi lo = (s.regFld cnt hi lo + 1) % 2 ^ (hi + 1 - lo) := by
  unfold State.event State.bump State.regFld
  rw [State.reg_setFld (tsorted_setReg h ..), if_pos rfl, fld_putFld hh]
  rw [State.reg_setReg_ne _ _ (Ne.symm hne)]

/-- The event registers are zero after a reset. -/
theorem resetOf_events {k : Nat} (h : k ∈ [Reg.cfEvent, Reg.kpEvent, Reg.qmEvent, Reg.byEvent, Reg.atEvent, Reg.wbEvent, Reg.fbEvent, Reg.hmEvent])
    (g : Nat) : resetOf g k = 0 := by
  simp only [List.mem_cons, List.not_mem_nil, or_false] at h
  rcases h with rfl | rfl | rfl | rfl | rfl | rfl | rfl | rfl <;> exact (resetOf_same (by decide) g 3).trans (by decide)

/-! ### The keeper's log -/

theorem State.evKp_is (b : Nat) : ∃ r, s.evKp b = { s with regs := r } := ⟨_, rfl⟩

theorem State.reg_evKp_ne {j : Nat} (b : Nat) (h1 : j ≠ Reg.kpEvent) (h2 : j ≠ Reg.kpEventCnt) : (s.evKp b).reg j = s.reg j :=
  s.reg_event_ne h1 h2

/-- A record of the log: it is the newest, it takes a free value, and beside the log only the keeper's own event register and count change. -/
theorem State.logRec_is (kind origin ctx obj : Nat) (old new : Word) (detail : Bytes) :
    ∃ r log x o, s.logRec kind origin ctx obj old new detail = { s with
        regs := r, free := s.free + 1,
        kp := { s.kp with log := log ++ [x], nextSeq := (s.kp.nextSeq + 1) % 2 ^ 32, overwritten := o } } ∧
      x = { epoch := s.kp.epoch, kind := kind, origin := origin, seq := s.kp.nextSeq, cycles := Config.cycles s.free, context := ctx,
            object := obj, old := old, new := new, detail := fitTo 20 detail } ∧
      (∀ j, j ≠ Reg.kpEvent → j ≠ Reg.kpEventCnt → rget s.grade r j = s.reg j) ∧ (tsorted s.regs = true → tsorted r = true) := by
  refine ⟨_, _, _, _, rfl, rfl, ?_⟩
  have key : ∀ (p : Prop) [Decidable p] (u : State) (b : Nat), u.die = s.die →
      (∀ j, j ≠ Reg.kpEvent → j ≠ Reg.kpEventCnt → u.reg j = s.reg j) ∧ (tsorted s.regs = true → tsorted u.regs = true) →
      (∀ j, j ≠ Reg.kpEvent → j ≠ Reg.kpEventCnt → (if p then u.evKp b else u).reg j = s.reg j) ∧
        (tsorted s.regs = true → tsorted (if p then u.evKp b else u).regs = true) := by
    intro p _ u b _ ⟨h1, h2⟩
    split
    · exact ⟨fun j hj hj' => (u.reg_evKp_ne b hj hj').trans (h1 j hj hj'), fun h => State.tsorted_event (h2 h) ..⟩
    · exact ⟨h1, h2⟩
  have h1 := key (logSize ≤ s.kp.log.length) s 1 rfl ⟨fun _ _ _ => rfl, id⟩
  generalize hu : (if logSize ≤ s.kp.log.length then s.evKp 1 else s) = u at h1 ⊢
  have d1 : u.die = s.die := by subst hu; split <;> rfl
  have h2 := key (u.regFld Reg.kpLogCfg 14 0 ≠ 0 ∧ ((s.kp.nextSeq + 1) % 2 ^ 32 + 2 ^ 32 - u.regFld Reg.kpLogCfg 63 32) % 2 ^ 32 =
    u.regFld Reg.kpLogCfg 14 0) u 0 d1 h1
  generalize hw : (if u.regFld Reg.kpLogCfg 14 0 ≠ 0 ∧ ((s.kp.nextSeq + 1) % 2 ^ 32 + 2 ^ 32 - u.regFld Reg.kpLogCfg 63 32) % 2 ^ 32 =
    u.regFld Reg.kpLogCfg 14 0 then u.evKp 0 else u) = w at h2 ⊢
  have d2 : w.die = s.die := by subst hw; split <;> exact d1
  exact ⟨fun j hj hj' => by rw [← h2.1 j hj hj', State.reg, State.grade, State.grade, d2], h2.2⟩

/-- A record without context and values. -/
theorem State.logObj_is (kind origin obj : Nat) (detail : Bytes) :
    ∃ r log x o, s.logObj kind origin obj detail = { s with
        regs := r, free := s.free + 1,
        kp := { s.kp with log := log ++ [x], nextSeq := (s.kp.nextSeq + 1) % 2 ^ 32, overwritten := o } } ∧
      x = { epoch := s.kp.epoch, kind := kind, origin := origin, seq := s.kp.nextSeq, cycles := Config.cycles s.free, context := 0xFFFF,
            object := obj, old := 0, new := 0, detail := fitTo 20 detail } ∧
      (∀ j, j ≠ Reg.kpEvent → j ≠ Reg.kpEventCnt → rget s.grade r j = s.reg j) ∧ (tsorted s.regs = true → tsorted r = true) :=
  s.logRec_is ..

/-! ### Fatal events, power switches, arbitration -/

theorem State.raiseFatal_is (reason obj : Nat) : ∃ f, s.raiseFatal reason obj = { s with kp := { s.kp with fatal := f } } ∧
    (s.kp.fatal.isSome = true → f = s.kp.fatal) := ⟨_, rfl, fun h => by simp [h]⟩

/-- A power switch is asked for a state with at most one message, and only its own record changes. -/
theorem State.pdAsk_is (d want : Nat) : ∃ x out, s.pdAsk d want = { s with sup := { s.sup with domains := x }, out := s.out ++ out } ∧
    out.length ≤ 1 := by
  by_cases h : ((tget s.sup.domains d).getD { want := 0, got := 0 }).want = want
  · exact ⟨s.sup.domains, [], by simp [State.pdAsk, h], by simp⟩
  · exact ⟨_, [_], by simp only [State.pdAsk, h, if_false]; rfl, by simp⟩

/-- A turn of an arbitration point changes the arbitration points alone. -/
theorem State.arbitrate_is (point quantum : Nat) (cs : List Cand) : ∃ d, (s.arbitrate point quantum cs).1 = { s with drr := d } := by
  unfold State.arbitrate
  dsimp only
  split
  · exact ⟨_, rfl⟩
  · exact ⟨_, rfl⟩

end Sys2Proof.Machine
end

