-- ==== Sys2Proof/Tests/Slice0.lean ====
section
/-! SUPPORT. Tests: an ill-formed command for each check of well-formedness, a witness for the hypotheses of each statement, and small tests
of single commands whose expected results come from the spec's examples and tables. -/

set_option Elab.async false

namespace Sys2Proof.Tests

open Sys2Proof Sys2Proof.Machine

/-! ### Ill-formed commands -/

theorem wf_refuses_grade : Instr.wf (.powerOnReset { Fuses.full with grade := 5 } Straps.default) = false := by decide +kernel
theorem wf_refuses_computePorts : Instr.wf (.powerOnReset { Fuses.full with computePorts := 4096 } Straps.default) = false := by decide +kernel
theorem wf_refuses_size : Instr.wf (.powerOnReset { Fuses.full with grade := 0 } Straps.default) = false := by decide +kernel
theorem wf_refuses_straps : Instr.wf (.powerOnReset Fuses.full { Straps.default with xpRole := [0, 0, 3, 1] }) = false := by decide +kernel
theorem wf_refuses_ceilings : Instr.wf (.resetRelease true true (List.replicate 33 0)) = false := by decide +kernel
theorem wf_refuses_answer : Instr.wf (.securityResponse 2) = false := by decide +kernel
theorem wf_refuses_port : Instr.wf (.registerWrite (.compute 12) 0x10000 .whole 0) = false := by decide +kernel
theorem wf_refuses_offset : Instr.wf (.registerWrite .host 0x10004 .whole 0) = false := by decide +kernel
theorem wf_refuses_highOffset : Instr.wf (.registerWrite .host (2 ^ 24) .whole 0) = false := by decide +kernel
theorem wf_refuses_value : Instr.wf (.registerWrite .host 0x10000 .lo 0x100000000) = false := by decide +kernel
theorem wf_refuses_island : Instr.wf (.islandRetireReport 32) = false := by decide +kernel
theorem wf_refuses_param : Instr.wf (.prParamWrite .host 64 .whole 0) = false := by decide +kernel
theorem wf_refuses_doorbell : Instr.wf (.doorbell .host 4096) = false := by decide +kernel
theorem wf_refuses_indexBlock : Instr.wf (.indexBlockReadResponse 1 [0] false) = false := by decide +kernel
theorem wf_refuses_entry : Instr.wf (.entryReadResponse 1 (List.replicate 65 0) false) = false := by decide +kernel
theorem wf_refuses_admit : Instr.wf (.admission 4096) = false := by decide +kernel
theorem wf_refuses_replayEntry : Instr.wf (.replayEntryReadResponse 1 (List.replicate 64 0) false) = false := by decide +kernel
theorem wf_refuses_mover : Instr.wf (.moverIssueCycle 48) = false := by decide +kernel
theorem wf_refuses_granule : Instr.wf (.walkGranuleRead 1 [0] false) = false := by decide +kernel
theorem wf_refuses_response : Instr.wf (.memoryReadResponse 1 (List.replicate 257 0) false false) = false := by decide +kernel
theorem wf_refuses_rmw : Instr.wf (.atomicRmw 1 (List.replicate 257 0) false) = false := by decide +kernel
theorem wf_refuses_group : Instr.wf (.lensStagingGrant 12) = false := by decide +kernel
theorem wf_refuses_core : Instr.wf (.xofPermutation 0 32 false) = false := by decide +kernel
theorem wf_refuses_lift : Instr.wf (.liftUnitCycle 16) = false := by decide +kernel
theorem wf_refuses_request : Instr.wf (.cpWindowRequest 0
    { addr := 1, len := 1, write := false, isVolatile := false, seq := false, tag := 0, data := [], enables := [] }) = false := by decide +kernel
theorem wf_refuses_requestLen : Instr.wf (.cpWindowRequest 0
    { addr := 0, len := 17, write := false, isVolatile := false, seq := false, tag := 0, data := [], enables := [] }) = false := by decide +kernel
theorem wf_refuses_requestData : Instr.wf (.cpWindowRequest 0
    { addr := 0, len := 1, write := true, isVolatile := false, seq := false, tag := 0, data := [], enables := [] }) = false := by decide +kernel
theorem wf_refuses_aix : Instr.wf (.cpAixWord 0 0 []) = false := by decide +kernel
theorem wf_refuses_bankPort : Instr.wf (.bankPortCycle 0 2 .clean) = false := by decide +kernel
theorem wf_refuses_bank : Instr.wf (.bankScrub 64 .clean) = false := by decide +kernel
theorem wf_refuses_pair : Instr.wf (.retain 32) = false := by decide +kernel
theorem wf_refuses_freq : Instr.wf (.setOp 0 4096 0) = false := by decide +kernel
theorem wf_refuses_domain : Instr.wf (.pdAck 148 0) = false := by decide +kernel
theorem wf_refuses_pdState : Instr.wf (.pdAck 0 3) = false := by decide +kernel
theorem wf_refuses_fq : Instr.wf (.fqMark .host 256) = false := by decide +kernel
theorem wf_refuses_link : Instr.wf (.linkLock 96) = false := by decide +kernel
theorem wf_refuses_line : Instr.wf (.lineRetry 4096) = false := by decide +kernel
theorem wf_refuses_payload : Instr.wf (.linkData 0 { tag := 0, payload := [0] }) = false := by decide +kernel
theorem wf_refuses_longPayload : Instr.wf (.linkData 0 { tag := 0, payload := List.replicate 2368 0 }) = false := by decide +kernel
theorem wf_refuses_memoryPort : Instr.wf (.mpFailed 64) = false := by decide +kernel
theorem wf_refuses_margin : Instr.wf (.ageingPeriod [4096]) = false := by decide +kernel
theorem wf_refuses_memory : Instr.wf (.memoryRepairDone 0x1C true) = false := by decide +kernel
theorem wf_refuses_trap : Instr.wf (.fatalDumpWritten (List.replicate 129 0)) = false := by decide +kernel
theorem wf_refuses_generator : Instr.wf (.tgCycle 64) = false := by decide +kernel
theorem wf_accepts_full : Instr.wf (.powerOnReset Fuses.full Straps.default) = true := by decide +kernel

/-! ### The states of the witnesses -/

/-- The block of State.reset out of reset, in mode NORMAL, with nothing configured. -/
def live : State := { State.reset with rst := { inEffect := false, level := .cold, abort := false }, kp := { Keeper.cold with mode := .normal } }

/-- The same with the keeper in another state. -/
def kept (f : Keeper → Keeper) : State := { live with kp := f live.kp }

/-- The same with registers, staged registers, queues or descriptors of a test's own. -/
def withRegs (l : RegFile) : State := { live with regs := l }
def withCfg (l : RegFile) : State := { live with cfg := { shadow := l, pending := l, active := l, old := l } }

/-- The state after a command. -/
def post (c : Instr) (s : State) : State :=
  match exec c s with
  | .next t => t
  | _ => s

theorem live_is_normal : live.normal = true ∧ live.issuing = true ∧ live.serving = true ∧ live.canonical = true ∧ live.quietSync = true := by
  decide +kernel

/-! ### Witnesses: the machine as a whole -/

theorem witness_StepsTakeOneCommandAndAlwaysAnswer : State.reset.pending = [] := by decide +kernel

theorem witness_CommandsActOnlyInTheirModes :
    (State.reset.rst.inEffect = true ∧ Instr.actsInReset (.check .host) = false) ∧
    ((kept (fun k => { k with mode := .halted })).kp.mode ≠ .normal ∧ (kept (fun k => { k with mode := .halted })).rst.abort = false ∧
      Instr.actsInAnyMode (.admission 1) = false) ∧
    ((kept (fun k => { k with fatal := some (0x12, 0) })).kp.fatal.isSome = true ∧ Instr.issuesWork (.admission 1) = true) := by decide +kernel

theorem witness_OnlyABlockResetLeavesTheHalt : ∃ t, exec .refClockLoss (kept (fun k => { k with mode := .halted, fatal := some (0x12, 0) })) = .next t ∧
    t.kp.mode = .halted := ⟨_, rfl, by decide +kernel⟩

theorem witness_EveryStepKeepsTheCanonicalForms : State.reset.canonical = true ∧ State.reset.idsRise = true ∧
    ∃ t, exec .idcode State.reset = .next t ∧ t.canonical = true ∧ t.idsRise = true :=
  ⟨by decide +kernel, by decide +kernel, _, rfl, by decide +kernel, by decide +kernel⟩

theorem witness_FusesAndStrapsHoldUntilPowerOn : ∃ t, exec .coldReset State.reset = .next t ∧ t.die = State.reset.die := ⟨_, rfl, by decide +kernel⟩

/-! ### Witnesses: resets, TAP, boot -/

theorem witness_ColdResetsGiveThePowerOnState : ¬(live.rst.inEffect = true ∧ live.rst.level = .cold) ∧ fromCompute .host = false ∧
    live.rst.inEffect = false := by decide +kernel

theorem witness_WarmResetsAbortAndKeepWhatTheTableNames :
    (live.rst.inEffect = false ∧ live.rst.abort = false ∧ fromCompute .debug = false) ∧
    ({ live with rst := { live.rst with abort := true } } : State).rst.abort = true ∧
    ∃ k k', k ∈ retiredRegs ∧ k' ∉ retiredRegs := ⟨by decide +kernel, rfl, Reg.hmRetiredBank, 0, by decide +kernel⟩

theorem witness_ReleaseStartsTheBoot :
    (State.reset.rst.inEffect = true ∧ State.reset.rst.level = .cold) ∧
    ∃ s : State, s.rst.inEffect = true ∧ s.rst.level = .warm ∧ s.kp.cached = [] :=
  ⟨by decide +kernel, { State.reset with rst := { State.reset.rst with level := .warm } }, rfl, rfl, rfl⟩

theorem witness_TapCommandsChangeTheTapAndReachRegisters :
    (State.reset.rst.inEffect = true ∧ State.reset.tpIsLocked = false) ∧ (live.rst.inEffect = false ∧ live.tap.done = true) ∧
    ({ State.reset with sup := { State.reset.sup with tpLocked := true } } : State).tpIsLocked = true ∧
    (¬(0x58000 ≤ 8 * (0 : BitVec 19).toNat ∧ 8 * (0 : BitVec 19).toNat < 0x5C000) ∧ normOff (8 * (0 : BitVec 19).toNat) ≠ Reg.byVal) := by
  decide +kernel

/-- An SFDP area whose first parameter header is the basic table's. -/
def sfdp : Bytes := [0x53, 0x46, 0x44, 0x50, 6, 1, 0, 0xFF, 0, 6, 1, 16, 0x10, 0, 0, 0xFF] ++ [0, 0, 0, 2]

/-- The keeper in its boot, waiting for a read. -/
def booting (st : BootStage) : State := kept (fun k => { k with mode := .booting, stage := st })

theorem witness_NorReadsDriveTheBoot :
    (booting .sfdp).rst.inEffect = false ∧ (booting .sfdp).rst.abort = false ∧ (booting .sfdp).kp.fatal = none ∧ bfptAt sfdp = some 16 ∧
    bfptAt [] = none ∧ (booting .directory).kp.epoch = 0 ∧
    (post (.nvmTransferComplete false []) (booting .directory)).kp.epoch = 1 := by
  decide +kernel

/-- A light list under verification, with another slot behind it or none. -/
def verifying (rest : List SlotEntry) : State :=
  kept (fun k => { k with mode := .booting, job := .list, stage := .auth { slot := 0, offset := 0x4000, length := 64, sequence := 2 } [], slots := rest })

theorem witness_SecurityAnswersDecideTheJob :
    (∀ applyAfter, let s := kept (fun k => { k with job := .code applyAfter 1 })
      s.rst.inEffect = false ∧ s.rst.abort = false ∧ s.kp.fatal = none ∧ s.kp.job = .code applyAfter 1 ∧ s.kp.mode = .normal) ∧
    ((verifying []).kp.slots = [] ∧ (verifying []).kp.job ≠ .none ∧ (verifying []).kp.mode = .booting) ∧
    (let e : SlotEntry := { slot := 1, offset := 0x400000, length := 64, sequence := 1 }
     (verifying [e]).kp.slots = [e]) := by decide +kernel

/-! ### Witnesses: registers and the staged commit -/

/-- A block in a phase of the commit. -/
def inPhase (ph : CommitPhase) (pos : Nat) (reported : List Nat) : State :=
  { live with commit := { live.commit with phase := ph, pos := pos, reported := reported } }

/-- The configuration registers are locked. -/
def locked : State := kept (fun k => { k with locks := [(Reg.atHotCfg, 8)] })

theorem witness_RegisterWritesChangeOnlyCoveredFields_1 :
    normOff Reg.hmCfg = Reg.hmCfg ∧ (∃ r, regRow Reg.hmCfg = some r) ∧ live.absentReg Reg.hmCfg = false ∧
    live.keyOf .host Reg.hmCfg = some Reg.hmCfg ∧ live.lockedReg Reg.hmCfg = false ∧ live.commit.phase = .idle ∧
    fld ((live.writeFields .host Reg.hmCfg .lo 0xFFFFFFFF).shadow Reg.hmCfg) 15 0 = 0xFFFF :=
  ⟨by decide +kernel, ⟨_, rfl⟩, by decide +kernel, by decide +kernel, by decide +kernel, by decide +kernel, by decide +kernel⟩

theorem witness_RegisterWritesChangeOnlyCoveredFields_2 :
    ((regRow Reg.atHotCfg).any (fun r => r.st &&& partMask .lo != 0) = true ∧ Reg.atHotCfg < 2 ^ 24 ∧ fromCompute .debug = false ∧
      locked.keyOf .debug Reg.atHotCfg = some Reg.atHotCfg) ∧
    locked.lockedReg Reg.atHotCfg = true ∧
    ((inPhase .prepare 0 []).lockedReg Reg.atHotCfg = false ∧ (inPhase .prepare 0 []).commit.phase ≠ .idle) ∧
    fld ((locked.writeFields .debug Reg.atHotCfg .lo 1).reg Reg.cfRefuseInfo) 31 24 = 1 ∧
    fld (((inPhase .retire 0 []).writeFields .debug Reg.atHotCfg .lo 1).reg Reg.cfRefuseInfo) 31 24 = 3 := by decide +kernel

theorem witness_RegisterWritesLandByModeAndWindow :
    (live.rst.inEffect = false ∧ fromCompute .host = false ∧ normOff Reg.kpLogCfg = Reg.kpLogCfg ∧ 0x20000 ≤ Reg.kpLogCfg ∧
      Reg.kpLogCfg < 0x30000 ∧ Reg.kpLogCfg ≠ Reg.kpReset) ∧
    (normOff Reg.hmCfg = Reg.hmCfg ∧ ¬(0x20000 ≤ Reg.hmCfg ∧ Reg.hmCfg < 0x30000) ∧ live.kp.mode = .normal ∧ actingOff Reg.hmCfg = false) ∧
    ((booting .sfdp).rst.inEffect = false ∧ (booting .sfdp).kp.mode ≠ .normal) ∧ Part.lo ≠ .whole := by decide +kernel

/-- The last word of bank 1 of the first pattern memory is selected. -/
def imaging : State := withRegs [(Reg.cfImgSel, 0x110), (Reg.cfImgAddr, 0xFFF8)]

theorem witness_ImageWordsGoToTheInactiveBank :
    imaging.normal = true ∧ imaging.isImage (imaging.regFld Reg.cfImgSel 7 0) = true ∧ imaging.commit.phase = .idle ∧
    imaging.regFld Reg.cfImgSel 8 8 ≠ (imaging.image 0x10).active ∧ tsorted (imaging.image 0x10).words = true ∧
    (tget ((post (.cfImgDataWrite .host .whole 0xAB) imaging).image 0x10).words (2 ^ 20 + 0x1FFF)) = some 0xAB ∧
    (post (.cfImgDataWrite .host .whole 0xAB) imaging).regFld Reg.cfImgAddr 18 3 = 0 ∧
    (withRegs [(Reg.cfImgSel, 0x010)]).regFld Reg.cfImgSel 8 8 = ((withRegs [(Reg.cfImgSel, 0x010)]).image 0x10).active ∧
    (inPhase .retire 0 []).isImage ((inPhase .retire 0 []).regFld Reg.cfImgSel 7 0) = true := by decide +kernel

/-- A queue in a state, of context 5 and group 0. -/
def queueIn (st : QState) : Queue := { Queue.blank with state := st, ctx := 5, ring := 0x10000, idx := 0x20000, save := 0x30000, limit := 64, log2 := 4, weight := 1 }

/-- Queue 4095 in a state, and selected by PR_QSEL. -/
def withQueue (st : QState) : State :=
  { live with queues := [(0, { Queue.blank with state := .disabled }), (4095, queueIn st)], regs := [(Reg.prQsel, 4095)] }

theorem witness_ParameterWritesNeedAStoppedQueue :
    (∀ st, st = QState.disabled ∨ st = .error ∨ st = .enabled →
      (withQueue st).normal = true ∧ (withQueue st).regFld Reg.prQsel 11 0 < (withQueue st).nQueues ∧
      tget (withQueue st).queues 4095 = some (queueIn st) ∧ ((withQueue st).queue 4095).state = st) ∧
    (live.queue (live.regFld Reg.prQsel 11 0)).state = .disabled ∧ fromCompute (.compute 11) = true ∧
    ((withRegs [(Reg.prQsel, 7)]).queue 7).state = .absent ∧
    bit ((post (.prParamWrite .host 63 .whole 1) (withRegs [(Reg.prQsel, 7)])).reg Reg.prStat) 0 = true := by
  refine ⟨?_, by decide +kernel, by decide +kernel, by decide +kernel, by decide +kernel⟩
  rintro st (rfl | rfl | rfl) <;> decide +kernel

/-- A shadow set that fails CHECK: a SEED of zero fields where FIELD_RANGE wants one. -/
def failing : State := { live with cfg := { live.cfg with shadow := [(Reg.hmCfg, 0)] } }

/-- A shadow set that swaps the code image. -/
def swapping : State := { live with cfg := { live.cfg with shadow := [(Reg.cfImgCtrl, 0x80000000)] } }

theorem witness_CheckApplyAndDiscard_1 :
    live.normal = true ∧ fromCompute .host = false ∧ live.commit.phase = .idle ∧ runCheck live = none ∧
    live.swaps.find? (fun x => x.1 == 0) = none ∧ runCheck swapping = none ∧ (swapping.swaps.find? (fun x => x.1 == 0)).isSome = true ∧
    (runCheck failing).any (fun f => f.off < 2 ^ 24 && 0 < f.code && f.code < 2 ^ 8 && f.sel < 2 ^ 16 && f.sel2 < 2 ^ 16) = true ∧
    (post (.apply .host) live).commit.phase = .prepare ∧ (post (.apply .host) swapping).commit.phase = .checking := by decide +kernel

theorem witness_CheckApplyAndDiscard_2 :
    (inPhase .checking 0 []).normal = true ∧ (inPhase .checking 0 []).commit.phase ≠ .idle ∧ fromCompute (.compute 0) = true ∧
    fld ((post (.discard .host) (inPhase .checking 0 [])).reg Reg.cfRefuseInfo) 31 24 = 3 ∧
    fld ((post (.discard (.compute 0)) live).reg Reg.cfRefuseInfo) 31 24 = 4 := by decide +kernel

theorem witness_CommitsMoveIslandByIslandAndRetire_1 :
    (inPhase .prepare 0 []).normal = true ∧ (inPhase .prepare 0 []).tokenOrder.getD 0 31 = 30 ∧
    (inPhase .switch ((live.tokenOrder).length - 1) []).commit.phase = .switch ∧
    (post .commitTokenArrival (inPhase .switch 0 [])).commit.epoch = 1 ∧
    (post .commitTokenArrival (inPhase .switch ((live.tokenOrder).length - 1) [])).commit.phase = .retire ∧
    (post .commitTokenArrival (inPhase .prepare ((live.tokenOrder).length - 1) [])).commit.phase = .switch := by decide +kernel

theorem witness_CommitsMoveIslandByIslandAndRetire_2 :
    ((inPhase .retire 0 []).commit.phase = .retire ∧ 30 ∈ (inPhase .retire 0 []).tokenOrder ∧ (inPhase .retire 0 []).oldOn 30 = false ∧
      (∃ i ∈ (inPhase .retire 0 []).tokenOrder, i ≠ 30 ∧ i ∉ (inPhase .retire 0 []).commit.reported)) ∧
    (let l := live.tokenOrder.filter (· ≠ 31)
     (∀ i ∈ (inPhase .retire 0 l).tokenOrder, i = 31 ∨ i ∈ (inPhase .retire 0 l).commit.reported) ∧
      (inPhase .retire 0 l).oldOn 31 = false ∧ (post (.islandRetireReport 31) (inPhase .retire 0 l)).commit.phase = .idle) := by
  refine ⟨⟨by decide +kernel, by decide +kernel, by decide +kernel, 31, by decide +kernel⟩, by decide +kernel⟩

theorem witness_FatalEventsHaltTheBlock :
    (live.rst.inEffect = false ∧ live.kp.mode ≠ .halted ∧ live.kp.fatal = none) ∧ (inPhase .switch 0 []).commit.phase = .switch ∧
    (kept (fun k => { k with fatal := some (0x13, 0) })).kp.fatal = some (0x13, 0) ∧
    (post (.fatalDumpWritten []) (kept (fun k => { k with fatal := some (0x13, 0) }))).kp.dumpReason = 0x13 := by decide +kernel

/-! ### Witnesses: buoys, watches, flash queues -/

/-- An entry of 128 bytes from fields at byte offsets. -/
def entry (l : List (Nat × Nat × Nat)) : Bytes := l.foldl (fun b x => overlay b x.1 (leBytes x.2.1 x.2.2)) (zeros 128)

/-- A NOP that is its chain's only entry. -/
def nopEntry : Bytes := entry [(0, 8, 0x300)]

/-- Descriptor 7 of queue 9, admitted and ready. -/
def desc7 (es : List Bytes) : Desc := { Desc.blank with id := 7, queue := 9, order := 7, entries := es, phase := .ready, sigs := [none, none] }

/-- Queue 9 in a state, with descriptors. -/
def working (ds : List Desc) : State :=
  { live with ids := 20, queues := [(0, { Queue.blank with state := .disabled }), (9, queueIn .enabled)], descs := ds }

theorem witness_CommitsMoveIslandByIslandAndRetire_3 :
    (let s := { inPhase .retire 0 [] with descs := [{ desc7 [nopEntry] with began := true, epoch := 4, phase := .running }] }
     s.normal = true ∧ s.commit.phase = .retire ∧ 30 ∈ s.tokenOrder ∧ 30 ∉ s.commit.reported ∧ s.oldOn 30 = true) := by decide +kernel

/-- Context 5 has the buoys 100 to 115 and two watches, and owns flash queue 3; group 2's port acts for it. -/
def ctx5 : RegFile :=
  [(Reg.byPortCtx 2, 0x8000000000000005), (rkey Reg.byCtxMap 5, 0x200100064), (rkey Reg.fqCfg 3, 0x8000000000400005)].foldl
    (fun f p => tput f p.1 p.2) []

/-- The block with context 5, buoy 115 at a value, and flash queue 3 with a cell. -/
def synced (v : Nat) : State :=
  { withCfg ctx5 with sync := { live.sync with buoys := [(115, { value := v, sat := false, poison := false })],
                                               fqs := [(3, { live.fq 3 with cells := [[(1, 2)]] })] } }

/-- A BY_SIGNAL word: context 5, identifier 15, an operation and an amount. -/
def sigW (op amt : Nat) : Word := word (5 + op * 2 ^ 12 + 15 * 2 ^ 16 + amt * 2 ^ 32)

theorem witness_PortSignalsActOnTheNamedBuoy_1 :
    ((synced 1).normal = true ∧ (synced 1).quietSync = true ∧ (synced 1).sync.held = [] ∧ bit (sigW 0 1) 28 = false ∧
      tsorted (synced 1).regs = true ∧ (synced 1).physOf (fld (sigW 0 1) 9 0) (fld (sigW 0 1) 27 16) = some 115 ∧
      (synced 1).mayAct (.compute 2) (fld (sigW 0 1) 9 0) = true ∧ ((synced 1).buoy 115).poison = false ∧ fld (sigW 0 1) 14 12 = 0 ∧
      fld (sigW 1 1) 14 12 = 1) ∧
    ((post (.bySignal (.compute 2) .whole (sigW 0 0xFFFFFFFE)) (synced 1)).buoy 115 = { value := 0xFFFFFFFF, sat := false, poison := false } ∧
      (post (.bySignal (.compute 2) .whole (sigW 0 0xFFFFFFFF)) (synced 1)).buoy 115 = { value := 0xFFFFFFFF, sat := true, poison := false } ∧
      (post (.bySignal (.compute 2) .whole (sigW 1 1)) (synced 1)).buoy 115 = { value := 0, sat := false, poison := false } ∧
      (post (.bySignal (.compute 2) .whole (sigW 1 2)) (synced 1)).buoy 115 = { value := 1, sat := false, poison := false } ∧
      bit ((post (.bySignal (.compute 2) .whole (sigW 1 2)) (synced 1)).reg Reg.byEvent) 0 = true) ∧
    ((synced 1).physOf 5 16 = none ∧ (synced 1).mayAct (.compute 3) 5 = false ∧ 1 < fld (sigW 2 1) 14 12 ∧
      bit ((post (.bySignal (.compute 3) .whole (sigW 0 1)) (synced 1)).reg Reg.byEvent) 2 = true) := by decide +kernel

/-- A release that waits for an access. -/
def heldSig : HeldSignal := { word := word (5 + 15 * 2 ^ 16 + 2 ^ 28 + 7 * 2 ^ 32), accepted := true, waits := [4] }

/-- A read of an object. -/
def readReq (id : Nat) (o : Owner) : MemReq :=
  { id := id, dest := .mport 0, pa := 0x40000, len := 128, kind := .read, data := [], enables := [], owner := o, master := 25, queue := 9,
    ctx := 5, tag := none, lc := true, held := false, again := false, served := false, sent := false, unit := 0,
    form := { fmt := 0, round := 0, prime := 0 } }

def holding (rs : List MemReq) : State := { synced 1 with reqs := rs, sync := { (synced 1).sync with held := [(3, [heldSig])] } }

theorem witness_PortSignalsActOnTheNamedBuoy_2 :
    (∀ rs, rs = [] ∨ rs = [readReq 4 (.cp 2 0 0)] → (holding rs).normal = true ∧ (holding rs).sync.held = [(copyOf (.compute 2), [heldSig])] ∧
      heldSig.accepted = true ∧ bit heldSig.word 28 = true) ∧
    (∃ i ∈ heldSig.waits, (holding [readReq 4 (.cp 2 0 0)]).reqs.any (fun r => r.id == i) = true) ∧
    ((∀ i ∈ heldSig.waits, (holding []).reqs.any (fun r => r.id == i) = false) ∧ (holding []).quietSync = true ∧
      (holding []).physOf (fld heldSig.word 9 0) (fld heldSig.word 27 16) = some 115 ∧
      (holding []).mayAct (.compute 2) (fld heldSig.word 9 0) = true ∧ fld heldSig.word 14 12 = 0 ∧
      ((post (.bySignalRelease (.compute 2)) (holding [])).buoy 115).value = 8) := by
  refine ⟨?_, ⟨4, by decide +kernel, by decide +kernel⟩, by decide +kernel⟩
  rintro rs (rfl | rfl) <;> decide +kernel

theorem witness_HandSettingsSetTheSelectedBuoy :
    (let s := { synced 9 with regs := [(rkey Reg.bySel 0, word (5 + 15 * 2 ^ 16))] }
     s.normal = true ∧ s.selBuoy 0 = some 115 ∧ s.quietSync = true ∧ tsorted s.sync.buoys = true ∧
      (post (.bySet .host .whole 0x100000002) s).buoy 115 = { value := 2, sat := false, poison := false }) ∧
    (let s := { synced 9 with regs := [(rkey Reg.bySel 0, word (5 + 16 * 2 ^ 16))] }
     s.selBuoy 0 = none ∧ bit ((post (.bySet .host .whole 1) s).reg Reg.byEvent) 2 = true) := by decide +kernel

/-- A watch on buoy 115 at 10, written to the copy of group 2's port, with watches armed before. -/
def arming (ws : Tab Watch) : State :=
  { synced 9 with regs := [(rkey Reg.byArmLo 3, word (5 + 15 * 2 ^ 12 + 10 * 2 ^ 32))],
                  sync := { (synced 9).sync with watches := ws, gens := [(0, 0x3FFFF)] } }

def watch5 : Watch := { ctx := 5, ident := 15, phys := 115, cond := 0, value := 10, each := false, cookie := 0, fq := 3 }

theorem witness_WatchesAreArmedAndDisarmed :
    (let s := arming []
     s.normal = true ∧ tsorted s.regs = true ∧ s.mayAct (.compute 2) 5 = true ∧ s.physOf 5 15 = some 115 ∧
      fld (s.reg (rkey Reg.byArmLo (copyOf (.compute 2)))) 9 0 = 5 ∧ bit (s.act (rkey Reg.fqCfg 3)) 63 = true ∧
      fld (s.act (rkey Reg.fqCfg 3)) 9 0 = 5 ∧ 0 < s.nWatches ∧ tget s.sync.watches 0 = none ∧
      s.watchCount 5 < fld (s.act (rkey Reg.byCtxMap 5)) 46 32 ∧ condHolds 0 (s.buoy 115).value 10 = false ∧
      (post (.byArm (.compute 2) .whole 3) s).reg (rkey Reg.byArmRes 3) = 0) ∧
    (let s := arming [(0, watch5), (1, watch5)]
     fld (s.act (rkey Reg.byCtxMap 5)) 46 32 ≤ s.watchCount 5 ∧ s.mayAct (.compute 3) 5 = false ∧ bit (s.act (rkey Reg.fqCfg 4)) 63 = false ∧
      s.physOf 5 16 = none) ∧
    (let s := arming [(0, watch5)]
     tget s.sync.watches (0xFFFFC000 % 2 ^ 14) = some watch5 ∧ (tget s.sync.gens 0).getD 0 = 0xFFFFC000 / 2 ^ 14 ∧
      s.mayAct (.compute 2) watch5.ctx = true ∧ s.descs = [] ∧ s.sync.claimants = [] ∧ (tget s.sync.gens 0).getD 0 ≠ 0x4000 / 2 ^ 14 ∧
      (post (.byDisarm (.compute 2) .whole 0xFFFFC000) s).sync.watches = []) := by decide +kernel

theorem witness_FlashQueueCommandsAndReads :
    ((synced 0).normal = true ∧ (synced 0).fqReach (.compute 2) 3 = true ∧ (synced 0).fqReach (.compute 3) 3 = false ∧
      ((synced 0).fq 3).cells[((synced 0).fq 3).rd]? = some [(1, 2)] ∧ bit ((synced 0).act (rkey Reg.fqCfg 3)) 63 = true ∧
      bit ((synced 0).reg Reg.tpInj) 63 = false ∧ (live.fq 255).cells[(live.fq 255).rd]? = none) ∧
    (((post (.fqDataRead .host 3) (synced 0)).fq 3).rd = 1 ∧
      ((post (.fqRelease .host 3) (post (.fqMark .host 3) (post (.fqDataRead .host 3) (synced 0)))).fq 3).cells = []) := by decide +kernel

/-- Group 2 lends pairs 0 and 31 with a descriptor that waits. -/
def waiting (stat : Word) : State :=
  { working [{ desc7 [nopEntry] with phase := .waiting, waits := [{ cond := 0, value := 1, phys := 115, ident := 15, met := false, registered := true }] }] with
      regs := [(Reg.byLendStat, stat)], cfg := (withCfg [(Reg.byLendCfg 0, 0x8000000080000001)]).cfg }

theorem witness_LongWaitsAreReportedOnce :
    (∀ st, st = (0 : Word) ∨ st = 1 → (waiting st).normal = true ∧ bit ((waiting st).act (Reg.byLendCfg 0)) 63 = true ∧
      ((waiting st).inGroup 0).any (fun d => d.phase == .waiting && d.waits.any (fun w => !w.met)) = true ∧
      bit ((waiting st).act (Reg.byLendCfg 0)) 48 = false) ∧
    ((waiting 0).inGroup 0).any (waiting 0).isReady = false ∧
    bit ((waiting 0).reg Reg.byLendStat) 0 = false ∧ bit ((waiting 1).reg Reg.byLendStat) 0 = true ∧ 31 ∈ (waiting 0).lendPairs 0 ∧
    ((post (.waitLong 0) (waiting 0)).pair 31).offered = true ∧ ((post (.waitLong 0) (waiting 0)).pair 30).offered = false := by
  refine ⟨?_, by decide +kernel⟩
  rintro st (rfl | rfl) <;> decide +kernel

/-! ### Witnesses: translation, test window, power, reliability -/

/-- A walk of tag 3 for address 0x5000 over a table of four entries at 0x80000, in its middle granule. -/
def walk3 : Walk :=
  { id := 11, tag := 3, va := 0x5000, base := 0x80000, count := 4, lo := 0, hi := 2, did := some 7, queue := 9, mover := some 0, lc := true,
    started := true, cancelled := false, above := 2 ^ 56, under := 0 }

/-- Descriptor 7 waits for a walk. -/
def walking (w : Walk) : State :=
  { working [desc7 [nopEntry]] with xl := { live.xl with walks := [w] }, reqs := [{ readReq 12 (.walk 11) with pa := 0x80040, len := 64 }] }

/-- A granule of two entries, each by its first address and length, with ATTR PRESENT or not. -/
def granule (a la b lb attr : Nat) : Bytes :=
  leBytes 8 a ++ leBytes 8 la ++ leBytes 8 0x200000 ++ leBytes 8 attr ++ leBytes 8 b ++ leBytes 8 lb ++ leBytes 8 0x300000 ++ leBytes 8 attr

theorem witness_InvalidationsEmptyTheCachesOfTheirTag :
    (live.normal = true ∧ tsorted live.regs = true ∧ fromCompute .host = false ∧ fromCompute (.compute 0) = true ∧ live.xl.invs.length < 16) ∧
    (let s := { live with xl := { live.xl with invs := List.replicate 16 { tag := none, waits := [] } } }
     s.normal = true ∧ 16 ≤ s.xl.invs.length ∧ bit ((post (.atInv .host .whole 3) s).reg Reg.atEvent) 2 = true) ∧
    (let s := { walking walk3 with xl := { live.xl with walks := [walk3], invs := [{ tag := some 3, waits := [12] }] } }
     [12].any s.isOut = true ∧ [13].any s.isOut = false) := by decide +kernel

theorem witness_TablesWalksAndAccessCounters_1 :
    (live.normal = true ∧ tsorted live.regs = true ∧ live.regFld Reg.atSel 27 16 < live.nContexts ∧
      (post (.atTableWrite .host .whole 0x0000200000080000) live).reg (rkey Reg.atTable 0) = 0x0000200000080000) ∧
    (fld ((withCfg [(Reg.atHotCfg, 0)]).act Reg.atHotCfg) 15 0 = 0 ∨ fld ((withCfg [(Reg.atHotCfg, 0)]).act Reg.atHotCfg) 15 0 ≠ 0) ∧
    fld ((withCfg [(Reg.atHotCfg, 1)]).act Reg.atHotCfg) 15 0 ≠ 0 ∧
    (post .atEpochHalving { withCfg [(Reg.atHotCfg, 1)] with regs := [(rkey Reg.atCntVal 4095, 7)] }).reg (rkey Reg.atCntVal 4095) = 3 := by
  decide +kernel

theorem witness_TablesWalksAndAccessCounters_2 :
    ((walking walk3).serving = true ∧
      (walking walk3).reqs.find? (fun r => r.owner == .walk 11 && r.answerable) = some { readReq 12 (.walk 11) with pa := 0x80040, len := 64 } ∧
      (walking walk3).xl.walks.find? (fun x => x.id == 11) = some walk3 ∧ walk3.did = some 7 ∧
      (walking walk3).desc 7 = some (desc7 [nopEntry]) ∧ ({ walk3 with cancelled := true } : Walk).cancelled = true ∧
      ({ readReq 12 (.walk 11) with pa := 0x80040, len := 64 } : MemReq).result (granule 0x5000 0x1000 0x8000 0x1000 1) =
        granule 0x5000 0x1000 0x8000 0x1000 1 ∧
      ({ readReq 12 (.walk 11) with pa := 0x80040, len := 64 } : MemReq).failed true = true ∧
      ({ readReq 12 (.walk 11) with pa := 0x80040, len := 64 } : MemReq).failed false = false) ∧
    ((walking walk3).bisect walk3 (granule 0x5000 0x1000 0x8000 0x1000 0) = .inl (.notPresent (rangeAt 3 (granule 0x5000 0x1000 0x8000 0x1000 0) 0)) ∧
      (walking walk3).bisect walk3 (granule 0x4000 0x1000 0x6000 0x1000 1) = .inl .miss ∧
      (walking walk3).bisect walk3 (granule 0x4000 0x1001 0x6000 0x1000 1) = .inl .table ∧
      (walking walk3).bisect walk3 (granule 0x8000 0x1000 0xA000 0x1000 1) = .inr { walk3 with hi := 1, above := 0x8000 } ∧
      walk3.count ≠ 0 ∧ (walking walk3).granuleOk 0x80000 = true ∧ ((walking walk3).routePa 0x80000).isSome = true) := by decide +kernel

theorem witness_LockedTestRegistersStayAsTheyAre :
    (live.normal = true ∧ live.tpIsLocked = false ∧ tsorted live.regs = true ∧ fromCompute (.compute 11) = true) ∧
    ({ live with sup := { live.sup with tpLocked := true } } : State).tpIsLocked = true ∧
    (post (.tpLockSet .host) live).sup.tpLocked = true := by decide +kernel

/-- Generator 63 with its control word, over the first MiB of tier 0, running or not. -/
def generating (ctrl : Word) : State :=
  { withRegs ([(Reg.tpTgCtrl 63, ctrl), (Reg.tpTgRange, 0x0000000100000000)].foldl (fun f p => tput f p.1 p.2) []) with
      sup := { live.sup with tg := [(63, { next := 0, count := 0, readPass := false, erred := false })] } }

/-- The generator as it stands. -/
def gen63 : TrafficGen := { next := 0, count := 0, readPass := false, erred := false }

theorem witness_GeneratorsRunWithoutTenants_1 :
    (bit (partMask .hi) 63 = true ∧ bit (partVal .hi 0x80000000) 63 = true ∧ (working []).tenants = true ∧ live.tenants = false ∧
      bit (live.reg (Reg.tpTgCtrl 63)) 63 = false ∧ tsorted (working []).regs = true) ∧
    (bit ((post (.tpTgRun .host 63 .hi 0x80000000) live).reg (Reg.tpTgCtrl 63)) 63 = true ∧
      bit ((post (.tpTgRun .host 63 .hi 0x80000000) (working [])).reg (Reg.tpTgCtrl 63)) 62 = true) := by decide +kernel

/-- A CREATE_QUEUE of queue 9 for context 5, whose RESERVED bytes are zero. -/
def createEntry : Bytes :=
  entry [(0, 8, 0x340), (16, 2, 9), (18, 2, 5), (20, 1, 0), (21, 1, 0), (22, 1, 1), (23, 1, 1), (24, 1, 4), (25, 1, 0), (26, 2, 0), (32, 8, 0x10000),
         (40, 8, 0x20000), (48, 8, 0x30000)]

/-- The admin queue with a command at its head. -/
def admin1 (s : State) (e : Bytes) : State := { s with admin := { s.admin with cmds := [{ index := 0, entry := e, begun := false }] } }

/-- Context 5 may create queues. -/
def ctxOpen : RegFile := tput ctx5 (rkey Reg.cfCtxRing 5) 0x8000

theorem witness_GeneratorsRunWithoutTenants_2 :
    (let s := admin1 { generating 0x9000000000000001 with cfg := (withCfg ctxOpen).cfg } createEntry
     s.issuing = true ∧ s.reqs = [] ∧ leAt createEntry 0 1 = 0x40 ∧ s.tgRuns = true ∧ s.createCheck createEntry = some (0x13, fieldWord 16) ∧
      s.adminGate createEntry (fun x => x.state == .absent) = none ∧ leAt createEntry 32 8 % 128 = 0 ∧ leAt createEntry 40 8 % 64 = 0 ∧
      leAt createEntry 48 8 % 256 = 0 ∧ s.hasGroup (leAt createEntry 20 1) = true ∧ s.createRange createEntry none = none ∧
      bit (s.act (rkey Reg.cfCtxRing (leAt createEntry 18 2))) 15 = true) := by decide +kernel

theorem witness_GeneratorsRunWithoutTenants_3 :
    (∀ c, c = (0x8000000000000001 : Word) ∨ c = 0x9000000000000001 →
      let s := generating c
      s.issuing = true ∧ bit (s.reg (Reg.tpTgCtrl 63)) 63 = true ∧ fld (s.reg (Reg.tpTgCtrl 63)) 61 60 < 2 ∧ tget s.sup.tg 63 = some gen63 ∧
        (s.tgNext 63 gen63).isSome = true ∧ (s.routePa (s.tgRange.1 + ((s.tgNext 63 gen63).map (·.1)).getD 0)).isSome = true) ∧
    bit ((generating 0).reg (Reg.tpTgCtrl 63)) 63 = false ∧ tgReads ((generating 0x9000000000000001).reg (Reg.tpTgCtrl 63)) gen63 = false := by
  refine ⟨?_, by decide +kernel⟩
  rintro c (rfl | rfl) <;> decide +kernel

/-- Generator 63 waits for an answer. -/
def generated (k : Access) : State := { generating 0x8000000000000001 with reqs := [{ readReq 4 (.tg 63) with kind := k }], cfg := (withCfg [(Reg.hmCfg, 1000)]).cfg }

theorem witness_GeneratorPatternIsTgWord :
    (0xFFFFFFFFFFFFFF80 + 128 ≤ 2 ^ 64 ∧ wordAt (tgData 0 0) 0 = 0 ∧
      wordAt (tgData 0x100 1) 1 = (let x : Word := 0x108 ^^^ 0x100000000; let y := x * 0x9E3779B97F4A7C15; y ^^^ (y >>> 29))) ∧
    (∀ k, k = Access.read ∨ k = .write →
      let s := generated k
      s.normal = true ∧ s.req 4 = some { readReq 4 (.tg 63) with kind := k } ∧ (readReq 4 (.tg 63)).toBank = false ∧
        bit (s.reg Reg.tpInj) 63 = false ∧ fld (s.act Reg.hmCfg) 31 24 = 0 ∧ tsorted s.regs = true ∧ tget s.sup.tg 63 = some gen63 ∧
        s.inTurn { readReq 4 (.tg 63) with kind := k } = true ∧ ({ readReq 4 (.tg 63) with kind := k } : MemReq).posted = false) ∧
    ((post (.memoryReadResponse 4 (tgData 0x40000 1) false false) (generated .read)).regFld (Reg.tpTgStat 63) 63 48 = 0 ∧
      (post (.memoryReadResponse 4 (zeros 128) false false) (generated .read)).regFld (Reg.tpTgStat 63) 63 48 = 1) := by
  refine ⟨by decide +kernel, ?_, by decide +kernel, by decide +kernel⟩
  rintro k (rfl | rfl) <;> decide +kernel

/-- Island 30 with a limit of 2500 MHz and a ceiling of 2500, and a request. -/
def clocked (ops : Tab OpReq) : State :=
  { withCfg [(Reg.hmAge 30, 2500 * 2 ^ 20)] with regs := [(Reg.hmAge 30, 2500 * 2 ^ 44)], sup := { live.sup with ops := ops } }

theorem witness_OperatingPointsFollowRequestsAndAgeing :
    ((clocked []).normal = true ∧ tsorted (clocked []).regs = true ∧ 30 ∈ (clocked []).datapath ∧ 31 ∉ (clocked []).datapath ∧
      (clocked []).opLimit 30 = 2500 ∧ tget (post (.setOp 30 2524 7) (clocked [])).sup.ops 30 = some { freq := 2500, seq := 7 } ∧
      tget (post (.setOp 30 1824 0xFFFF) (clocked [])).sup.ops 30 = some { freq := 1800, seq := 0xFFFF }) ∧
    (tget (clocked [(30, { freq := 2500, seq := 7 })]).sup.ops 30 = some { freq := 2500, seq := 7 } ∧
      fld ((post (.operatingPointChange 30) (clocked [(30, { freq := 2500, seq := 7 })])).reg (Reg.hmAge 30)) 43 32 = 2500) ∧
    ((clocked []).issuing = true ∧ bit ((clocked []).reg Reg.tpInj) 63 = false ∧
      1800 + (clocked []).actFld Reg.hmAgeCfg 7 0 ≤ fld ((clocked []).reg (Reg.hmAge 30)) 55 44 ∧ 0 < (clocked []).actFld Reg.hmAgeCfg 15 8) := by
  decide +kernel

/-- A switch of a domain. -/
def switching (d want got : Nat) : State := { live with sup := { live.sup with domains := [(d, { want := want, got := got })] } }

theorem witness_PowerSwitchesAndClocksAreReported :
    (live.rst.inEffect = false ∧ tget (switching 147 1 0).sup.domains 147 = some { want := 1, got := 0 } ∧ (switching 147 1 0).kp.mode = .normal ∧
      ¬(88 ≤ 147 ∧ 147 < 120) ∧ domainUnits 0 = [(1, 0)] ∧ live.hasUnit 1 0 = true) ∧
    tget (post (.pdAck 147 1) (switching 147 1 0)).sup.domains 147 = some { want := 1, got := 1 } ∧
    (post .refClockLoss live).sup.holdover = true := by decide +kernel

/-- A memory port in a handshake, with an access on it. -/
def porting (p : Tab PortFault) : State := { live with sup := { live.sup with ports := p }, reqs := [readReq 4 (.rcd 7 0)] }

theorem witness_FailedMemoryPortsAreQuiescedAndRetired :
    ((porting []).normal = true ∧ (porting []).hasMport 0 = true ∧ tget (porting []).sup.ports 0 = none ∧
      (porting []).reqs.any (fun r => r.onPort 0 && !r.held) = true ∧ (porting []).reqs.any (fun r => r.onPort 63 && !r.held) = false ∧
      (porting []).hasMport 64 = false ∧ (porting [(0, .drained)]).hasMport 0 = true ∧ (tget (porting [(0, .drained)]).sup.ports 0).isSome = true ∧
      tget (porting [(0, .drained)]).sup.ports 0 ≠ some .quiescing) ∧
    (tget (porting [(0, .quiescing)]).sup.ports 0 = some .quiescing ∧ (porting [(0, .quiescing)]).hasMport (partner 0) = true) ∧
    tget (post (.mpFailed 63) (porting [])).sup.ports 63 = some .quiescing := by decide +kernel

/-- Bank 63 with a write at its port and pair 31 in a state; the owner's port is port 0. -/
def bankReq (k : Access) (m : Nat) : MemReq :=
  { readReq 4 (.dst 7 0 0 0) with dest := .bank 63, pa := windowBase + 63 * 0x200000, len := 64, kind := k, data := List.replicate 64 7,
                                  enables := List.replicate 64 true, master := m }

def banked (st : PairState) (rgn : Word) (k : Access) : State :=
  { withCfg [(Reg.wbRgn 12 0, rgn)] with reqs := [bankReq k 12], win := { live.win with pairs := [(31, { state := st, offered := false, retaining := false })] } }

/-- A region over the bank that grants every kind of access. -/
def rgnRW : Word := word (0x7E0 + 0x7FF * 2 ^ 16 + 15 * 2 ^ 40 + 2 ^ 63)

theorem witness_FailedBankPortsHandOver :
    (let s := banked .on rgnRW .write
     let p := s.bankPortOf 63 12
     s.normal = true ∧ p < 2 ∧ s.bankReady 63 p ≠ [] ∧ s.hasBank 63 = true ∧ tget s.sup.bankPortBad 63 = none ∧ s.bankReady 63 (1 - p) = [] ∧
      s.hasBank 64 = false) := by decide +kernel

theorem witness_UnitsAreRetiredByRequestAndByErrors :
    (live.normal = true ∧ fld (word (7 * 2 ^ 8 + 95)) 15 8 = 7 ∧ live.hasUnit 7 95 = true ∧ live.hasUnit 7 96 = false ∧ fld (word (8 * 2 ^ 8)) 15 8 = 8 ∧
      bit ((live.retire 7 95).reg Reg.hmRetiredLink1) 31 = true) ∧
    (unitOfStore 1 63 = some (5, 63) ∧ fld ((withCfg [(Reg.hmCfg, 0x100000000)]).act Reg.hmCfg) 63 32 = 1) ∧
    bit ((post (.hmRetireReq .host .whole (word (8 * 2 ^ 8))) live).reg Reg.hmEvent) 5 = true := by decide +kernel

/-- A memory with a damaged word, and a list that covers it or not. -/
def damagedIn (mem : Nat) (list : Bytes) : State :=
  { kept (fun k => { k with list := list }) with images := [(mem, { active := 0, words := [], damaged := [0] })] }

/-- A list body with one IMAGE record for a pattern memory. -/
def imageList (mem : Nat) : Bytes :=
  zeros 12 ++ leBytes 4 64 ++ zeros 4 ++ leBytes 4 96 ++ zeros 40 ++ leBytes 4 2 ++ leBytes 4 8 ++ leBytes 8 mem ++ zeros 16

theorem witness_RepairsEndWithSoundWordsOrRetirement :
    (live.normal = true ∧ (live.image 0).damaged = [] ∧ ((damagedIn 0x1B (imageList 0x1B)).image 0x1B).damaged ≠ [] ∧
      ((damagedIn 0x1B (imageList 0x1B)).image 0x1B).damaged.all (fun k =>
        imageCovers (imageList 0x1B) 0x1B (8 * (k % 2 ^ 20)) (leAt (imageList 0x1B) 12 4) 64) = true) ∧
    ((damagedIn 0 []).kp.fatal = none ∧ (post (.memoryRepairDone 0 true) (damagedIn 0 [])).kp.fatal = some (0x11, 0)) ∧
    (post (.memoryRepairDone 0x1B true) (damagedIn 0x1B (imageList 0x1B))).image 0x1B = { active := 0, words := [], damaged := [] } := by
  decide +kernel

/-! ### Witnesses: window banks and compute ports -/

theorem witness_BankAccessesReadAndWriteTheWindow_1 :
    Memory.wf [(0, 1), (5, 2)] = true ∧ ramWrite [(0, 1), (5, 2)] 4 [9, 0, 7] [true, true, false] = [(0, 1), (4, 9)] := by decide +kernel

theorem witness_BankAccessesReadAndWriteTheWindow_2 :
    (∀ k, k = Access.read ∨ k = .write ∨ k = .aliasSet ∨ k = .rmw →
      let s := banked .on rgnRW k
      let p := s.bankPortOf 63 12
      s.normal = true ∧ p < 2 ∧ s.bankReady 63 p = [bankReq k 12] ∧ tget s.win.rmws (2 * 63 + p) = none ∧ s.hasBank 63 = true ∧
        s.regionOk 12 (s.checkSpan (bankReq k 12)).1 (s.checkSpan (bankReq k 12)).2 k = true ∧ (s.pair 31).state = .on ∧
        s.portHeld 63 p (bankReq k 12) = false ∧ bit (s.reg Reg.tpInj) 63 = false ∧ s.win.bad = []) ∧
    (let s := banked .on 0 .write
     s.regionOk 12 (s.checkSpan (bankReq .write 12)).1 (s.checkSpan (bankReq .write 12)).2 .write = false) ∧
    ((banked .retention rgnRW .write).pair 31).state = .retention ∧
    (let s := banked .on rgnRW .write
     let t := { s with win := { s.win with rmws := [(2 * 63 + s.bankPortOf 63 12, (windowBase + 63 * 0x200000, 64))] } }
     (tget t.win.rmws (2 * 63 + s.bankPortOf 63 12)).isSome = true ∧
      (post (.bankPortCycle 63 (s.bankPortOf 63 12) .clean) t).win.rmws = [] ∧
      t.portHeld 63 (1 - s.bankPortOf 63 12) (bankReq .write 0) = true) ∧
    (let s := { banked .on rgnRW .write with reqs := [] }
     s.bankReady 63 0 = [] ∧ s.hasBank 63 = true ∧ s.reqs.any (fun r => r.waitsAt 63 && s.bankPortOf 63 r.master != 0) = false ∧
      tget (post (.bankScrub 63 .clean) { s with win := { s.win with scrub := [(63, 0x7FFF)] } }).win.scrub 63 = some 0) ∧
    (live.pair 0).state ≠ .on := by
  refine ⟨?_, by decide +kernel, by decide +kernel, by decide +kernel, by decide +kernel, by decide +kernel⟩
  rintro k (rfl | rfl | rfl | rfl) <;> decide +kernel

/-- Pair 31 in a state. -/
def paired (x : Pair) : State := { live with win := { live.win with pairs := [(31, x)] }, sup := { live.sup with domains := [(pairDomain 31, { want := 1, got := 1 })] } }

theorem witness_RetentionFollowsOfferAndWake :
    ((paired { state := .on, offered := true, retaining := false }).normal = true ∧
      ((paired { state := .waking, offered := true, retaining := false }).pair 31).state = .waking ∧ (live.pair 31).offered = false) ∧
    ((post (.retain 31) (paired { state := .on, offered := true, retaining := false })).pair 31).retaining = true ∧
    ((paired { state := .on, offered := true, retaining := true }).pairBusy 31 = false ∧ (banked .on 0 .read).pairBusy 31 = true ∧
      ((post (.retentionEntry 31) (paired { state := .on, offered := true, retaining := true })).pair 31).state = .retention) ∧
    ((post (.wake 31) (paired { state := .retention, offered := false, retaining := false })).pair 31).state = .waking ∧
    (tget (paired { state := .waking, offered := false, retaining := false }).sup.domains (pairDomain 31) = some { want := 1, got := 1 } ∧
      ((post (.pairWakeComplete 31) (paired { state := .waking, offered := false, retaining := false })).pair 31).state = .on) := by decide +kernel

/-- A window request of a compute port. -/
def cpReq (a : Nat) (w : Bool) : CpReq :=
  { addr := BitVec.ofNat 44 a, len := 16, write := w, isVolatile := false, seq := false, tag := 9, data := List.replicate 1024 3,
    enables := List.replicate 1024 true }

theorem witness_ComputePortsQueueIndicesAndRequests :
    (live.normal = true ∧ live.hasPort 11 = true ∧ 0 < ((live.cport 11).chan 15).credits ∧
      (post (.cpAixWord 11 15 [0xFFFFFFFF]) live).cport 11 ≠ live.cport 11 ∧
      (({ live with cps := [(11, { live.cport 11 with chans := [(15, { Channel.blank with credits := 0 })] })] } : State).cport 11).chan 15 =
        { Channel.blank with credits := 0 }) ∧
    (windowAddr ((cpReq 0 true).addr.toNat / 64 * 64) true = none ∧ (live.cport 11).rsps = []) ∧
    ((windowAddr ((cpReq windowBase true).addr.toNat / 64 * 64) true).any (fun p => p.1 == .write && (live.requestBank p.2 1024).isSome) = true ∧
      (windowAddr ((cpReq (windowBase + 0x1FFFC0) true).addr.toNat / 64 * 64) true).any (fun p => live.requestBank p.2 1024 == none) = true) := by decide +kernel


/-- A delivery that is under way: two slots of the unit of descriptor 7 in their order. -/
def slotOf (id : Nat) (last : Bool) : Slot := { id := id, pos := 0, last := last, kind := 0, chan := 1, data := zeros 64 }

theorem witness_DeliveriesSendTheUnitInOrder :
    (live.normal = true ∧ (live.cport 0).dlv = [] ∧ (live.cport 0).mid = none) ∧
    (let slots := [slotOf 1 false, slotOf 2 true]
     let s := { live with cps := [(11, { live.cport 11 with mid := some 7, dlv := slots.map (fun x => (7, x)), ahead := [(3, zeros 64)] })] }
     (s.cport 11).mid = some 7 ∧ (s.cport 11).dlv = slots.map (fun x => (7, x)) ∧ unitSlots slots = slots ∧ slots.length ≤ 16 ∧
      (slots.getLast?).any (·.last) = true ∧ (post (.cpDeliveryTransfer 11) s).out = s.out ++ [.delivery 11 slots] ∧
      ((post (.cpDeliveryTransfer 11) s).cport 11).ahead = []) := by decide +kernel

/-! ### Witnesses: the queue manager -/

/-- Queue 0 in a state, with its registers. -/
def admin0 (x : Queue) : State := { live with queues := [(0, x)], regs := [(Reg.qmAdminIdx, 0x0000500000000040), (Reg.qmAdminRing, 0x0004000000001000)].foldl (fun f p => tput f p.1 p.2) [] }

theorem witness_QueueZeroRegistersAndDoorbells :
    (live.normal = true ∧ live.adminOpen = true ∧ tsorted live.regs = true ∧ 4 ≤ fld 0x000C000000001000 51 48 ∧ fld 0x000C000000001000 51 48 ≤ 12 ∧
      fld ((post (.qmAdminRingWrite .host .whole 0x000C000000001000) live).reg Reg.qmAdminRing) 51 48 = 12 ∧
      fld ((post (.qmAdminRingWrite .host .whole 0x0004000000001000) live).reg Reg.qmAdminRing) 51 48 = 4) ∧
    ((admin0 { Queue.blank with state := .disabled }).admin.fresh = true ∧ ((admin0 { Queue.blank with state := .disabled }).queue 0).state ≠ .enabled ∧
      ((post (.qmAdminEnable .host) (admin0 { Queue.blank with state := .disabled })).queue 0).pr = 5) ∧
    (let x := { Queue.blank with state := .enabled }
     ((admin0 x).queue 0).state = .enabled ∧ ((admin0 x).queue 0).lastRead = false ∧ (admin0 x).adminOpen = false ∧
      ((post (.qmAdminDisable .host) (admin0 x)).queue 0).lastRead = true) ∧
    (let s := admin0 { Queue.blank with state := .enabled, lastRead := true }
     (s.queue 0).state = .enabled ∧ (s.queue 0).lastRead = true ∧ s.issuing = true ∧ tsorted s.queues = true ∧ 0 < s.nQueues ∧
      ((post (.qmAdminEnable .host) s).queue 0).lastRead = false ∧ bit ((post (.doorbell .host 0) s).reg Reg.qmEvent) 1 = true) ∧
    ((working []).issuing = true ∧ tsorted (working []).queues = true ∧ Port.host ≠ .debug ∧ 9 < (working []).nQueues ∧
      tget (working []).queues 9 = some (queueIn .enabled) ∧ ((working []).queue 4095).state = .absent ∧ (working []).nQueues ≤ 4096 ∧
      ((post (.doorbell .host 9) (working [])).queue 9).idle = false ∧ bit ((post (.doorbell .host 4095) (working [])).reg Reg.qmEvent) 1 = true) := by
  decide +kernel

/-- Queue 9 as it fetches, with an access outstanding. -/
def fetching (x : Queue) (rs : List MemReq) : State :=
  { live with ids := 20, queues := [(0, { Queue.blank with state := .disabled }), (9, x)], reqs := rs }

theorem witness_ProducersAreAcceptedWithinTheRing :
    (acceptProducer 16 0 0 4 = some 16 ∧ acceptProducer 17 0 0 4 = none ∧ acceptProducer 5 0xFFFFFFFE 0xFFFFFFFE 4 = some 5) ∧
    (let s := fetching { queueIn .enabled with idxOut := true } [{ readReq 4 (.idx 9) with len := 64 }]
     s.issuing = true ∧ tsorted s.queues = true ∧
      s.reqs.find? (fun r => r.owner == .idx 9 && r.answerable) = some { readReq 4 (.idx 9) with len := 64 } ∧
      (readReq 4 (.idx 9)).failed false = false ∧ ({ readReq 4 (.idx 9) with len := 64 } : MemReq).result (leBytes 64 16) = leBytes 64 16 ∧
      (tget s.queues 9).any (fun x => x.state == .enabled && !x.lastRead) = true ∧ s.boundedQ 9 = true ∧
      ((post (.indexBlockReadResponse 9 (leBytes 64 16) false) s).queue 9).pr = 16 ∧
      ((post (.indexBlockReadResponse 9 (leBytes 64 17) false) s).queue 9).errReason = 1) := by decide +kernel

/-- Queue 9 reads the entry of index 15. -/
def entering (x : Queue) : State := fetching { x with entOut := some 15, cons := 15, pr := 16, next := 15 } [{ readReq 4 (.ent 9 15) with len := 128 }]

theorem witness_EntriesAreFramedIntoChains_1 :
    (let s := entering (queueIn .enabled)
     let x := s.queue 9
     let good := entry [(0, 8, 0x8300)]
     s.issuing = true ∧ tsorted s.queues = true ∧ tget s.queues 9 = some x ∧ x.entOut = some 15 ∧ x.entStale = false ∧
      s.reqs.find? (fun r => r.owner == .ent 9 15 && r.answerable) = some (readReq 4 (.ent 9 15)) ∧
      (readReq 4 (.ent 9 15)).result good = good ∧ (readReq 4 (.ent 9 15)).failed false = false ∧ (readReq 4 (.ent 9 15)).failed true = true ∧
      x.state = .enabled ∧ s.boundedQ 9 = true ∧ x.part = [] ∧ framed x 15 good = true ∧ hLast (headOf good) = true ∧ (fetchStatus [good]).1 = 0 ∧
      marked [good] = false ∧ framed x 15 nopEntry = false ∧ x.coversIdx 15 = true ∧
      (post (.entryReadResponse 9 nopEntry false) s).queue 9 ≠ x ∧ ((post (.entryReadResponse 9 nopEntry false) s).queue 9).errReason = 2 ∧
      ((post (.entryReadResponse 9 good true) s).queue 9).errReason = 3 ∧ ((post (.entryReadResponse 9 good false) s).queue 9).next = 16) := by
  decide +kernel

theorem witness_EntriesAreFramedIntoChains_2 :
    (let s := { live with queues := [(0, { Queue.blank with state := .enabled, log2 := 4, entOut := some 15, next := 15, pr := 16 })], reqs := [readReq 4 (.ent 0 15)] }
     s.issuing = true ∧ (s.queue 0).entOut = some 15 ∧ framed (s.queue 0) 15 (zeros 128) = false ∧
      (post (.entryReadResponse 0 (zeros 128) false) s).kp.fatal = some (0x01, 15)) := by decide +kernel

/-- The REPLAY of the worked example of chapter 3, running, with its next entry asked for. -/
def replay7 : Desc :=
  { desc7 [entry [(0, 8, 0x30E), (64, 8, 0x100000000), (72, 4, 2), (76, 4, 4)]] with
      phase := .running, began := true, replayOut := true, resolved := List.replicate 14 0 ++ [0x100000000, 4] }

/-- The recorded MOVE of Table 3-26. -/
def move0 : Bytes :=
  entry [(0, 8, 0x0003004200001101), (48, 8, 0x0005000000018021), (56, 8, 0x0020000000018022), (64, 8, 5), (72, 8, 6), (80, 4, 0x10000), (84, 4, 0x32),
         (88, 4, 1), (92, 4, 1), (96, 4, 1), (100, 4, 0x10000), (104, 4, 0xA), (108, 4, 1), (112, 4, 1), (116, 4, 1), (120, 8, 0x0000001F004688BB)]
def move1 : Bytes := entry [(0, 8, 0x1601), (24, 8, 0x48000), (64, 8, 0x48000), (100, 4, 10), (116, 4, 0x1F)]

theorem witness_EntriesAreFramedIntoChains_3 :
    (let s := { working [replay7] with reqs := [readReq 4 (.replayEnt 7)] }
     s.issuing = true ∧ s.desc 7 = some replay7 ∧
      s.reqs.find? (fun r => r.owner == .replayEnt 7 && r.answerable) = some (readReq 4 (.replayEnt 7)) ∧
      (readReq 4 (.replayEnt 7)).result move0 = move0 ∧ (readReq 4 (.replayEnt 7)).failed false = false ∧
      (readReq 4 (.replayEnt 7)).failed true = true ∧ replay7.replayStatus = 0 ∧
      recordedOk replay7 move0 = true ∧ hLast (headOf move0) = false ∧ recordedOk replay7 move1 = false ∧
      ((post (.replayEntryReadResponse 7 move0 false) s).desc 7).map (·.replayPart) = some [move0]) := by decide +kernel

/-! ### Witnesses: admin commands -/

/-- An admin entry of a code that names queue 9. -/
def cmd (code : Nat) (l : List (Nat × Nat × Nat)) : Bytes := entry ([(0, 8, 0x300 + code), (16, 2, 9)] ++ l)

/-- The admin queue with a command, and queue 9. -/
def commanding (x : Queue) (e : Bytes) : State :=
  admin1 { live with ids := 20, queues := [(0, { Queue.blank with state := .enabled }), (9, x)], cfg := (withCfg ctxOpen).cfg } e

theorem witness_AdminCommandsChangeTheirQueue_1 :
    (∀ e, e = createEntry ∨ e = cmd 0x41 [] ∨ e = cmd 0x42 [] ∨ e = cmd 0x43 [] ∨ e = cmd 0x44 [] ∨ e = cmd 0x45 [(21, 1, 2)] ∨
        e = cmd 0x46 [] ∨ e = cmd 0x47 [] →
      let s := commanding (queueIn .enabled) e
      s.issuing = true ∧ s.reqs = [] ∧ s.admin.cmds = [{ index := 0, entry := e, begun := false }]) ∧
    ((commanding (queueIn .enabled) createEntry).createCheck createEntry ≠ none ∧
      (commanding (queueIn .enabled) (cmd 0x41 [])).adminGate (cmd 0x41 []) Queue.quiet ≠ none ∧
      (commanding (queueIn .enabled) (cmd 0x42 [])).adminGate (cmd 0x42 []) (fun x => x.state == .disabled) ≠ none ∧
      (commanding (queueIn .disabled) (cmd 0x43 [])).disableCheck (cmd 0x43 []) ≠ none ∧
      (commanding (queueIn .enabled) (cmd 0x45 [(21, 1, 2)])).modifyCheck (cmd 0x45 [(21, 1, 2)]) ≠ none ∧
      (commanding (queueIn .enabled) (cmd 0x46 [])).haltedCheck (cmd 0x46 []) ≠ none) := by
  refine ⟨?_, by decide +kernel⟩
  rintro e (rfl | rfl | rfl | rfl | rfl | rfl | rfl | rfl) <;> decide +kernel

theorem witness_AdminCommandsChangeTheirQueue_2 :
    (tsorted (commanding (queueIn .disabled) (cmd 0x41 [])).queues = true ∧
      tget (commanding (queueIn .disabled) (cmd 0x41 [])).queues 9 = some (queueIn .disabled)) ∧
    ((commanding (queueIn .disabled) (cmd 0x41 [])).adminGate (cmd 0x41 []) Queue.quiet = none ∧
      (commanding (queueIn .error) (cmd 0x44 [(28, 4, 3)])).adminGate (cmd 0x44 [(28, 4, 3)]) Queue.quiet = none ∧
      (commanding (queueIn .disabled) (cmd 0x42 [])).adminGate (cmd 0x42 []) (fun x => x.state == .disabled) = none ∧
      (commanding (queueIn .enabled) (cmd 0x43 [])).disableCheck (cmd 0x43 []) = none ∧
      (commanding (queueIn .disabled) (cmd 0x45 [(22, 1, 255), (21, 1, 1), (25, 1, 1)])).modifyCheck (cmd 0x45 [(22, 1, 255), (21, 1, 1), (25, 1, 1)]) = none) ∧
    (((post .destroyQueue (commanding (queueIn .disabled) (cmd 0x41 []))).queue 9).state = .absent ∧
      ((post .resetQueue (commanding (queueIn .error) (cmd 0x44 [(28, 4, 3)]))).queue 9).cons = 3 ∧
      ((post .modifyQueue (commanding (queueIn .disabled) (cmd 0x45 [(22, 1, 255)]))).queue 9).weight = 255) := by decide +kernel

/-- Every power domain is on. -/
def powered (s : State) : State := { s with sup := { s.sup with domains := (List.range 147).map (fun d => (d, { want := 1, got := 1 })) } }

def creatable : State := powered (admin1 { live with cfg := (withCfg ctxOpen).cfg } createEntry)

theorem witness_AdminCommandsChangeTheirQueue_3 :
    creatable.issuing = true ∧ creatable.createCheck createEntry = none ∧ leAt createEntry 0 1 = 0x40 ∧
    ((creatable.adminWait.settleDomains.groupDomains (leAt createEntry 20 1) ++ creatable.adminWait.settleDomains.liftDomains).all
      creatable.adminWait.settleDomains.domainOn) = true :=
  ⟨by decide +kernel, by decide +kernel, by decide +kernel, by decide +kernel⟩

theorem test_createQueue_ring : ((post .createQueue creatable).queue 9).ring = 0x10000 := by decide +kernel

/-! ### Witnesses: streams and descriptors -/

/-- The MOVE of Table 3-26 as descriptor 7, with its parameters 5 and 6 in queue 9, running on mover 0. -/
def params56 : RegFile := [(5, 0x24000000), (6, 0x48000000)]
def moveIn (f : Desc → Desc) : State :=
  { working [f (desc7 [move0, move1])] with
      queues := [(0, { Queue.blank with state := .enabled }), (9, { queueIn .enabled with params := params56 })],
      cfg := (withCfg (tput (tput ctx5 (rkey Reg.cfCtxRing 5) 0x8A32) (rkey Reg.byCtxMap 5) (word (100 + 64 * 2 ^ 16)))).cfg }

def moveGeo : Geo := mkGeo [move0, move1] (fun i => (tget params56 i).getD 0)
def runningMove (d : Desc) : Desc := { d with phase := .running, began := true, geo := moveGeo, mover := some 0 }

/-- The MOVE stopped at a fault of its destination, or of its source. -/
def faulted (obj : Nat) : State :=
  moveIn (fun d => { runningMove d with phase := .faulted, fault := some { obj := obj, va := 0x24000000, len := 576 } })

theorem witness_StreamsHaltResumeAndEnd_1 :
    ((faulted 1).issuing = true ∧ ((faulted 1).desc 7).any (fun d => d.phase == .faulted) = true ∧ (faulted 1).streamOut 7 = false ∧
      ((faulted 1).desc 7).any (fun d => (faulted 1).blocked d) = true ∧ tsorted (faulted 1).regs = true ∧
      ((faulted 1).routePa (((faulted 1).queue 9).save + 256 * 0)).isSome = true) ∧
    ({ faulted 0 with reqs := [readReq 4 (.src 7 0 0x24000000 0)] } : State).streamOut 7 = true ∧
    ((post (.streamHalt 7) (faulted 1)).desc 7).any (fun d => d.phase == .saving && d.mover == none) = true := by decide +kernel

/-- The MOVE halted, with an admin command that names its slot. -/
def halted (code : Nat) : State :=
  admin1 (moveIn (fun d => { runningMove d with phase := .halted, mover := none, fault := some { obj := 1, va := 0x48000000, len := 576 } }))
    (cmd code [(28, 4, 0)])

theorem witness_StreamsHaltResumeAndEnd_2 :
    (∀ code, code = 0x46 ∨ code = 0x47 → (halted code).issuing = true ∧ (halted code).reqs = [] ∧
      (halted code).admin.cmds = [{ index := 0, entry := cmd code [(28, 4, 0)], begun := false }] ∧
      (halted code).haltedCheck (cmd code [(28, 4, 0)]) = none ∧
      (halted code).haltedAtSlot 9 0 = (halted code).descs ∧ (halted code).descs.all (fun d => opcodeOf d.entries != 0x0E && d.chan == none) = true ∧
      ((halted code).desc 7).isSome = true) ∧
    ((post .abandonStream (halted 0x47)).desc 7).any (fun d => d.status == 0x21) = true ∧
    (post .resumeStream (halted 0x46)).reqs.any (fun r => r.owner == .saveRead 7) = true := by
  refine ⟨?_, by decide +kernel, by decide +kernel⟩
  rintro code (rfl | rfl) <;> decide +kernel

/-- The MOVE in line for a mover again. -/
def resuming : State := moveIn (fun d => { runningMove d with phase := .resuming, mover := none, resumeStamp := 3, pos := 128 })

theorem witness_StreamsHaltResumeAndEnd_3 :
    resuming.issuing = true ∧ (resuming.desc 7).any (fun d => d.phase == .resuming && d.resumeStamp != 0 && resuming.resumeTurn d) = true ∧
    resuming.hasGroup (resuming.groupOf 9) = true ∧ resuming.pickMover 0 = some 0 ∧
    (let s := { resuming with descs := resuming.descs.map (fun d => { d with began := false }) }
     s.descs.all (fun d => d.phase == .resuming && !d.began && s.resumeTurn d) = true ∧ s.pickMover 0 = some 0 ∧
      ((post (.resumePlacement 7) s).desc 7).any (fun d => d.phase == .ready && d.mover == some 0) = true) ∧
    ((post (.resumePlacement 7) resuming).desc 7).any (fun d => d.phase == .running && d.mover == some 0 && d.pos == 128) = true := by decide +kernel

/-- Queue 9 with one chain. -/
def chained (es : List Bytes) : State :=
  { moveIn id with descs := [],
                   queues := [(9, { queueIn .enabled with params := params56, chains := [{ first := 0, entries := es, stamp := 3, waited := false }], pr := 2, next := 2 })] }

/-- A NOP that waits at an identifier. -/
def waitEntry (ident : Nat) : Bytes := entry [(0, 8, 0x300), (16, 8, 2 ^ 15 + ident + 2 ^ 16)]

theorem witness_AdmissionTakesTheNextChain :
    ((chained [nopEntry]).issuing = true ∧ bit ((chained [nopEntry]).reg Reg.tpInj) 63 = false ∧ (chained [nopEntry]).idsRise = true ∧
      (moveIn id).stampRequests.nextAdm 9 = none) ∧
    (((chained [waitEntry 4095]).stampRequests.nextAdm 9).any (fun a => ((chained [waitEntry 4095]).stampRequests.admitFail 9 a.entries).isSome) = true ∧
      (post (.admission 9) (chained [waitEntry 4095])).descs.any (fun d => d.status == 0x13) = true) ∧
    (((chained [nopEntry]).stampRequests.nextAdm 9).any (fun a => (chained [nopEntry]).stampRequests.admitFail 9 a.entries == none && waitsIn a.entries == [] &&
        !isStream a.entries && a.parent == none) = true ∧ bit ((chained [nopEntry]).reg Reg.byLendStat) 0 = false ∧
      (post (.admission 9) (chained [nopEntry])).descs.any (fun d => d.phase == .ready) = true) ∧
    (((chained [move0, move1]).stampRequests.nextAdm 9).any (fun a => (chained [move0, move1]).stampRequests.admitFail 9 a.entries == none && waitsIn a.entries == [] &&
        isStream a.entries && a.parent == none && (chained [move0, move1]).stampRequests.slotTurn a) = true ∧
      (chained [move0, move1]).hasGroup 0 = true ∧ (chained [move0, move1]).stampRequests.pickMover 0 = some 0 ∧
      ((chained [move0, move1]).queue 9).limit ≤ noRecord ∧ (chained [move0, move1]).idsRise = true ∧
      (post (.admission 9) (chained [move0, move1])).descs.any (fun d => d.mover == some 0 && d.recIdx == 0) = true) := by decide +kernel

/-- The control descriptors, each as descriptor 7, ready. -/
def control (e : Bytes) : State := { moveIn id with descs := [desc7 [e]] }

/-- A control entry of an opcode, and one predicated on buoy identifier 15 for a value of at least 1. -/
def ctl (op : Nat) : Bytes := entry [(0, 8, 0x300 + op)]
def ctlPred (op : Nat) : Bytes := entry [(0, 8, 0x10300 + op), (8, 8, 15 + 2 ^ 16)]
def paramEntry : Bytes := entry [(0, 8, 0x30D), (64, 1, 63), (65, 1, 1), (72, 8, 77)]
def replayEntry : Bytes := entry [(0, 8, 0x30E), (64, 8, 0x100000000), (72, 4, 2), (76, 4, 4)]

theorem witness_ControlDescriptorsBeginInTurn :
    (∀ e, e = ctl 0 ∨ e = ctl 0x0A ∨ e = ctl 0x0B ∨ e = ctl 0x0F ∨ e = ctl 0x0C ∨ e = paramEntry ∨ e = replayEntry →
      (control e).issuing = true ∧ (control e).desc 7 = some (desc7 [e]) ∧ (control e).mayBegin (desc7 [e]) = true ∧
      (control e).allBegun (desc7 [e]) = true ∧ (control e).hasGroup ((control e).groupOf 9) = true ∧
      (Sys2Proof.Machine.beginControl [e] ((control e).param 9)).1 = 0 ∧ (control e).predicate (desc7 [e]) = some false) ∧
    ((Sys2Proof.Machine.beginControl [entry [(0, 8, 0x30D), (64, 1, 64), (65, 1, 1)]] ((control paramEntry).param 9)).1 ≠ 0 ∧
      (let s := { control (ctlPred 0) with sync := { live.sync with buoys := [(115, { value := 1, sat := false, poison := false })] } }
       s.predicate (desc7 [ctlPred 0]) = some true) ∧
      (let s := { control (ctlPred 0) with sync := { live.sync with buoys := [(115, { value := 1, sat := false, poison := true })] } }
       s.predicate (desc7 [ctlPred 0]) = none) ∧
      (let s := { control (ctl 0) with regs := [(Reg.hmRetiredUnit, 1)] }
       s.hasGroup (s.groupOf 9) = false ∧ (Sys2Proof.Machine.beginControl [ctl 0] (s.param 9)).1 ≠ 0x10 ∧
        ((post (.nop 7) s).desc 7).any (fun d => d.status == 0x12) = true) ∧
      (Sys2Proof.Machine.beginControl [entry [(0, 8, 0x30D), (64, 1, 64), (65, 1, 1)]] ((control paramEntry).param 9)).1 = 0x10 ∧
      (let e := entry [(0, 8, 0x30C + 2 ^ 17)]
       let s := { control e with queues := (control e).queues.map (fun p => (p.1, { p.2 with lost := true })) }
       hRelease (headOf e) = true ∧ (s.queue 9).lost = true ∧ s.fenceMet (desc7 [e]) = true ∧ s.predicate (desc7 [e]) = some false ∧
        ((post (.fence 7) s).desc 7).any (fun d => d.status == 0x31) = true) ∧
      (let s := { control paramEntry with descs := [{ desc7 [paramEntry] with first := 1 }, { desc7 [nopEntry] with id := 8 }] }
       s.mayBegin { desc7 [paramEntry] with first := 1 } = true ∧ s.allBegun { desc7 [paramEntry] with first := 1 } = false)) ∧
    (((post (.nop 7) (control (ctl 0))).desc 7).any (fun d => d.phase == .finishing) = true ∧
      tget ((post (.paramSet 7) (control paramEntry)).queue 9).params 63 = some 77 ∧
      ((post (.replay 7) (control replayEntry)).desc 7).any (fun d => d.began && d.groupRepeat == 4) = true) := by
  refine ⟨?_, by decide +kernel, by decide +kernel⟩
  rintro e (rfl | rfl | rfl | rfl | rfl | rfl | rfl) <;> decide +kernel

theorem witness_DataDescriptorsBeginAsStreams :
    (let s := moveIn id
     let d := desc7 [move0, move1]
     s.issuing = true ∧ s.desc 7 = some d ∧ s.mayBegin d = true ∧ opcodeOf d.entries = 1 ∧ s.patternBad (s.groupOf 9) = false ∧
      bit (s.reg Reg.tpInj) 63 = false ∧ s.hasGroup (s.groupOf 9) = true ∧ remoteSigs d.entries = [] ∧
      mkGeo d.entries (s.param 9) = moveGeo ∧ (beginStatus moveGeo (s.envOf d moveGeo) []).1 = 0 ∧ s.predicate d = some false ∧
      moveGeo.fed = false ∧ moveGeo.dst.empty = false ∧ moveGeo.dst.n = [65536, 10, 1, 1, 1]) ∧
    (let g := { moveGeo with src := { moveGeo.src with base := 1 } }
     (beginStatus g ((moveIn id).envOf (desc7 [move0, move1]) g) []).1 ≠ 0) ∧
    (moveIn id).xl.walks = [] ∧
    (let s := { moveIn id with regs := [(Reg.hmRetiredUnit, 1)] }
     let d := desc7 [move0, move1]
     let g := mkGeo d.entries (s.param 9)
     s.mayBegin d = true ∧ s.hasGroup (s.groupOf 9) = false ∧ (beginStatus g (s.envOf d g) (localSigs d.entries g none)).1 ≠ 0x10 ∧
      ((post (.move 7) s).desc 7).any (fun d => d.status == 0x12) = true) ∧
    (let d := desc7 [overlay move0 100 (leBytes 1 0x81), move1]
     let s := { moveIn (fun _ => d) with regs := [(Reg.hmRetiredUnit, 1)] }
     let g := mkGeo d.entries (s.param 9)
     s.mayBegin d = true ∧ (beginStatus g (s.envOf d g) (localSigs d.entries g none)).1 = 0x10 ∧
      ((post (.move 7) s).desc 7).any (fun d => d.status == 0x10) = true) ∧
    ((post (.move 7) (moveIn id)).desc 7).any (fun d => d.phase == .running && d.pos == 0) = true := by decide +kernel

/-! ### Witnesses: streams at work -/

/-- The range that maps both buffers of the MOVE one to one to tier 0, in the mover's cache. -/
def mapped (s : State) : State :=
  { s with xl := { s.xl with l0 := [(0, [{ tag := 0, vaStart := 0, length := 0x80000000, target := 0, attr := 0xF }])] } }

/-- The first tile that the MOVE reads, and the tile that it writes. -/
def tileIn : FUnit := { obj := 0, va := 0x242D0000, len := 576 }
def tileOut : OutUnit :=
  { id := 12, obj := 1, va := 0x48000000, data := List.replicate 576 5, enables := List.replicate 576 true,
    parts := [{ chip := none, pa := 0x48000000, len := 576 }], ranges := [], tag := 0, issued := 0, zeroTile := false, notes := { held := 0, noted := 0, replaced := 0, sat := 0, nan := 0, unrep := 0, cond := 0 } }

/-- A FENCE before the MOVE holds its writes, so that it only reads. -/
def readingMove : Desc :=
  { runningMove (desc7 [move0, move1]) with first := 1, ins := [{ unit := tileIn, issued := 0, parts := [], reread := false }] }
def reading : State := mapped { moveIn id with descs := [{ desc7 [ctl 0x0C] with id := 6, phase := .running, began := true }, readingMove] }
def writing : State := moveIn (fun d => { runningMove d with phase := .faulted, wr := some tileOut, fault := some { obj := 0, va := 0x24000000, len := 576 } })

theorem witness_MoversIssueReadsAndWrites :
    (reading.issuing = true ∧ reading.hasMover 0 = true ∧ reading.onMover 0 = [readingMove] ∧ reading.desc 7 = some readingMove ∧
      reading.fab.loop = [] ∧ bit (reading.reg Reg.tpInj) 63 = false ∧ reading.mayRead readingMove = true ∧ reading.mayWrite readingMove = false ∧
      readingMove.pending = some { unit := tileIn, issued := 0, parts := [], reread := false } ∧
      reading.lookRead readingMove tileIn = .ok [{ chip := none, pa := 0x242D0000, len := 576 }]
        [{ tag := 0, vaStart := 0, length := 0x80000000, target := 0, attr := 0xF }] ∧
      (pieceAt [{ chip := none, pa := 0x242D0000, len := 576 }] 0).any (fun p => p.len ≤ 256 && (reading.routePa p.pa).isSome) = true ∧
      reading.idsRise = true ∧ reading.reg Reg.byLendStat = 0 ∧ reading.reqs = [] ∧ readingMove.wakes = [] ∧ readingMove.late = [] ∧
      readingMove.lines = [] ∧ reading.bankFull 7 0x242D0000 = false ∧ reading.wakeHolds 7 true = false ∧ reading.readsFit readingMove 2 = true ∧
      (post (.moverIssueCycle 0) reading).reqs.any (fun r => r.kind == .read && r.pa == 0x242D0000) = true) ∧
    ((mapped writing).issuing = true ∧ writing.onMover 0 = writing.descs ∧
      writing.descs.all (fun d => !writing.mayRead d && writing.mayWrite d && d.wr == some tileOut) = true ∧ tileOut.parts ≠ [] ∧ moveGeo.toPort = false ∧
      moveGeo.op ≠ 4 ∧ (pieceAt tileOut.parts 0).any (fun p => p.chip == none && p.len < 576 && p.len ≤ 256 && (writing.routePa p.pa).isSome &&
        ((tileOut.enables.drop 0).take p.len).any id) = true ∧ (mapped writing).idsRise = true ∧ writing.wakeHolds 7 false = false ∧
      writing.descs.all (fun d => d.wakes == [] && d.late == [] && d.lines == []) = true ∧ writing.bankFull 7 0x48000000 = false ∧
      (let s := moveIn (fun d => { runningMove d with phase := .faulted, wr := some { tileOut with issued := 512 },
                                                      fault := some { obj := 0, va := 0x24000000, len := 576 }, sigs := [none, none] })
       (pieceAt tileOut.parts 512).any (fun p => 576 ≤ 512 + p.len) = true ∧
       s.descs.all (fun d => !s.mayRead d && s.mayWrite d && !d.ended && d.sigs == [none, none] && !d.geo.fed) = true ∧
        ((post (.moverIssueCycle 0) s).desc 7).any (fun d => d.pos == 128 && d.wr == none) = true) ∧
      (post (.moverIssueCycle 0) writing).reqs.any (fun r => r.kind == .write && r.pa == 0x48000000) = true) := by decide +kernel

/-- The active configuration with every correctable error unsampled: HM_CFG's limit for uncorrectable errors is 0. -/
def unlimited (s : State) : State := { s with cfg := { s.cfg with active := tput s.cfg.active Reg.hmCfg 1000 } }

/-- An access of the MOVE, or of descriptor 7 as an addition, and what comes before it. -/
def answering (k : Access) (o : Owner) (again : Bool) (before : List MemReq) : State :=
  unlimited { moveIn (fun d => { runningMove d with ins := [{ unit := tileIn, issued := 256, parts := [], reread := false }] }) with
    reqs := before ++ [{ readReq 4 o with kind := k, again := again, pa := 0x242D0000 }] }

theorem witness_MemoryAnswersReachTheirStreams :
    (∀ again, let s := answering .read (.src 7 0 0x242D0000 0) again []
      s.req 4 = some { readReq 4 (.src 7 0 0x242D0000 0) with again := again, pa := 0x242D0000 } ∧ bit (s.reg Reg.tpInj) 63 = false ∧
      fld (s.act Reg.hmCfg) 31 24 = 0 ∧ s.descs.all (fun d => d.late == []) = true ∧ s.normal = true ∧ (s.routePa 0x242D0000).isSome = true ∧
      (s.desc 7).any (fun d => d.phase == .running && !d.geo.scans && d.geo.seedCount == 0) = true ∧
      (readReq 4 (.src 7 0 0x242D0000 0)).toBank = false ∧ s.inTurn { readReq 4 (.src 7 0 0x242D0000 0) with again := again, pa := 0x242D0000 } = true) ∧
    (let r := { readReq 4 (.flush 0) with dest := .ext 0, pa := tier2Base, len := 0 }
     let w := { readReq 3 (.dst 7 1 0 0) with kind := .write, dest := .ext 0, pa := tier2Base }
     let s := { answering .read (.src 7 0 0x242D0000 0) false [] with reqs := [w, r] }
     s.req 4 = some r ∧ r.toBank = false ∧ r.held = false ∧ s.serving = true ∧ s.inTurn r = true ∧ w.posted = true ∧
      exec (.memoryWriteAck 3) s = .next s ∧ (post (.memoryReadResponse 4 [] false false) s).reqs = []) ∧
    (((post (.memoryReadResponse 4 (List.replicate 128 9) false false) (answering .read (.src 7 0 0x242D0000 0) false [])).desc 7).any
        (fun d => d.ins.any (fun u => u.parts == [(0, List.replicate 128 9)])) = true ∧
      (post (.memoryReadResponse 4 (List.replicate 128 9) true false) (answering .read (.src 7 0 0x242D0000 0) false [])).reqs.any (·.again) = true ∧
      ((post (.memoryReadResponse 4 (List.replicate 128 9) true false) (answering .read (.src 7 0 0x242D0000 0) true [])).desc 7).any
        (fun d => d.status == 0x30 && d.word1 == 0x242D0000) = true) ∧
    (let r := { readReq 4 (.dst 7 1 0x48000000 0) with kind := .write, pa := 0x242D0000 }
     let early := [{ readReq 3 (.rmw 7 0) with kind := .rmw, pa := 0x242D0000 }]
     (answering .write (.dst 7 1 0x48000000 0) false early).inTurn r = false ∧ (answering .write (.dst 7 1 0x48000000 0) false []).inTurn r = true ∧
      (answering .write (.dst 7 1 0x48000000 0) false []).serving = true ∧
      ((answering .write (.dst 7 1 0x48000000 0) false []).desc 7).all (fun d => !d.geo.fed) = true) ∧
    (let r := { readReq 4 (.rmw 7 0) with kind := .rmw, pa := 0x242D0000 }
     let s := answering .rmw (.rmw 7 0) false []
     s.normal = true ∧ s.req 4 = some r ∧ s.inTurn r = true ∧ (s.desc 7).any (fun d => !d.ended) = true ∧
      ((post (.atomicRmw 4 [] true) s).desc 7).any (fun d => d.status == 0x30 && !d.rmwOut) = true) := by
  refine ⟨?_, ⟨by decide +kernel, by decide +kernel, by decide +kernel, by decide +kernel, by decide +kernel, by decide +kernel, rfl,
    by decide +kernel⟩, by decide +kernel, by decide +kernel, by decide +kernel⟩
  rintro (_ | _) <;> decide +kernel

/-- A NOP that has finished, with a signal of 5 on buoy 115, or with an error. -/
def finished (st : Nat) (rs : List MemReq) : State :=
  { moveIn id with descs := [{ desc7 [nopEntry] with first := 1, phase := .finishing, began := true, status := st,
                                                     sigs := [some { word := word (15 + 2 ^ 15 + 5 * 2 ^ 16), phys := 115, slices := 0 }, none] }], reqs := rs }

theorem witness_DescriptorsCompleteWhenTheirWorkIsCoherent :
    (∀ st rs, (st = 0 ∨ st = 0x30) → (rs = [] ∨ rs = [{ readReq 4 (.dst 7 1 0 0) with kind := .write, pa := tier2Base }]) →
      (finished st rs).issuing = true ∧ (finished st rs).fab.loop = [] ∧ ((finished st rs).desc 7).isSome = true ∧
      bit ((finished st rs).reg Reg.tpInj) 63 = false ∧ (finished st rs).sync.watches = [] ∧ (finished st rs).sync.claimants = [] ∧
      (finished st rs).descs.all (fun d => d.waits == [] && !(finished st rs).fenced d && d.late == [] && d.acks == [] && d.lines == [] &&
        d.chan == none && d.parent == none && d.wr == none) = true) ∧
    ((finished 0 [{ readReq 4 (.dst 7 1 0 0) with kind := .write, pa := tier2Base }]).writesOut 7 = true ∧
      (finished 0 []).writesOut 7 = false ∧
      (let s := finished 0 []
       { s with descs := { desc7 [ctl 0x0C] with id := 6, order := 6, phase := .running } :: s.descs }.fenced { desc7 [nopEntry] with first := 1, phase := .finishing } =
         true)) ∧
    ((finished 0 []).desc 7).any (fun d => d.sigChipOf (word (15 + 2 ^ 15 + 5 * 2 ^ 16)) == none && d.finalAmount { word := word (15 + 2 ^ 15 + 5 * 2 ^ 16), phys := 115, slices := 0 } == some 5) = true ∧
    ((finished 0 []).buoy 115).poison = false ∧ ((finished 0 []).buoy 115).value + 5 ≤ 0xFFFFFFFF ∧
    ((post (.descriptorComplete 7) (finished 0 [])).buoy 115).value = 5 ∧ ((post (.descriptorComplete 7) (finished 0x30 [])).buoy 115).value = 0 := by
  refine ⟨?_, by decide +kernel, by decide +kernel, by decide +kernel, by decide +kernel, by decide +kernel, by decide +kernel⟩
  rintro st rs (rfl | rfl) (rfl | rfl) <;> decide +kernel

/-- Streams of queue 9 that stand at the lens or a lift unit. -/
def lensing (ds : List Desc) : State := { moveIn id with descs := ds }
def asking (kib : Nat) : Desc := { runningMove (desc7 [move0, move1]) with stagingKib := kib, stagingWait := true, begunAt := 3 }
def holder : Desc :=
  { runningMove (desc7 [move0, move1]) with id := 8, stagingKib := 4096, staged := true, holdLeft := true, phase := .halted, mover := none, pos := 64,
                                            haltedAt := 2 }
def lifting (id u : Nat) : Desc :=
  { runningMove (desc7 [move0, move1]) with id := id, liftWait := true, begunAt := id, geo := { moveGeo with op := 8, liftUnit := u } }

theorem witness_StagingAndLiftSlotsAreGrantedInTurn :
    ((lensing [asking 4096]).issuing = true ∧ (lensing [asking 4096]).hasGroup 0 = true ∧
      oldest (((lensing [asking 4096]).inGroup 0).filter (·.stagingWait)) = some (asking 4096) ∧
      (asking 4096).stagingKib ≤ (lensing [asking 4096]).lensKib - (lensing [asking 4096]).stagedKib 0 ∧
      ((post (.lensStagingGrant 0) (lensing [asking 4096])).desc 7).any (fun d => d.staged && !d.stagingWait) = true) ∧
    (let s := lensing [asking 1, { holder with holdLeft := false, phase := .running }]
     s.lensKib - s.stagedKib 0 < (asking 1).stagingKib ∧ s.holders 0 = []) ∧
    (let s := lensing [asking 1, holder]
     s.lensKib - s.stagedKib 0 < (asking 1).stagingKib ∧ s.holders 0 = [holder] ∧ s.desc 8 = some holder ∧ holder.id ≠ (asking 1).id ∧
      ((post (.lensStagingGrant 0) s).desc 8).any (fun d => !d.staged && !d.holdLeft && d.pos == 64) = true ∧
      ((post (.lensStagingGrant 0) s).desc 7).any (·.staged) = true) ∧
    ((lensing [holder]).normal = true ∧ holder.holdLeft = true ∧ holder.isHalted = true ∧ ({ holder with holdLeft := false } : Desc).holdLeft = false) ∧
    (let s := lensing [lifting 7 0xFF]
     s.liftNext 1 = some (lifting 7 0xFF) ∧ s.liftCan 1 (lifting 7 0xFF) = true ∧ s.liftCan 0 (lifting 7 0xFF) = true ∧
      ((post (.liftSlotGrant 0) s).desc 7).any (fun d => d.liftSlot == some 0) = true) ∧
    (let s := { lensing [lifting 7 15] with cfg := (moveIn id).cfg }
     s.liftNext 15 = some (lifting 7 15) ∧ s.liftCan 15 (lifting 7 15) = true ∧ ({ s with regs := [(Reg.hmRetiredUnit, 0)] } : State).liftCan 16 (lifting 7 15) = false ∧
      ((post (.liftSlotGrant 15) s).desc 7).any (fun d => d.liftSlot == some 15) = true) := by decide +kernel

/-- The EXPAND of one limb of 1024 residues to memory, with the seed 0x00 to 0x1F, tag 0x4B, polynomial 2 (Table 6-2 but for the limb). -/
def expandGeo : Geo :=
  { moveGeo with op := 7, src := { moveGeo.src with n := [128, 8, 1, 1, 2] }, dst := { moveGeo.dst with n := [128, 8, 1, 1, 1] },
                 win := [128, 8, 1, 1, 1], start := [0, 0, 17, 0, 1], perm := [0, 1, 2, 3, 4], domainTag := 0x4B, polyBase := 2,
                 limbMap := List.replicate 96 0, seedBase := 0x27840000, evalDomain := true }
def seed0 : Bytes := (List.range 32).map (BitVec.ofNat 8)
def expander (cs : List Core) (share : Nat) : State :=
  let s := unlimited (moveIn id)
  { s with queues := s.queues.map (fun p => (p.1, { p.2 with bulk := true })),
           descs := [{ desc7 [move0, move1] with phase := .running, began := true, geo := expandGeo, mover := some 0, seeds := [seed0],
                                                 coreWait := cs.isEmpty, cores := cs }],
           cfg := { s.cfg with active := tput (tput s.cfg.active (Reg.exCfg 0) (word (8 + share * 2 ^ 8))) (rkey Reg.cfPrimeQ 5 0) 0xFFFE00001 } }

/-- The limb's core before a permutation, with some residues in its buffer already. -/
def core0 (slot retries : Nat) : Core :=
  { index := 3, poly := 0, limb := 0, perms := 0, lanes := xofStart (xofMessage seed0 0x4B 17 2), carry := [], slot := slot,
    residues := List.replicate slot 1, tile := 0, regenTo := 0, retries := retries, pausedAt := 0 }

theorem witness_ExpanderCoresMakeResidues_1 :
    (let s := expander [] 1
     s.issuing = true ∧ s.hasExp 0 = true ∧ s.coreNext 0 = s.desc 7 ∧ s.isLc 9 = false ∧ expandGeo.toPort = false ∧
      (s.desc 7).any (fun d => 1 ≤ s.coresWanted d && s.coresHeld 0 + 1 ≤ s.coresPer &&
        s.bulkHeld 0 + 1 ≤ fld (s.cfgAt d.epoch (Reg.exCfg 0)) 12 8 && d.limbsTodo == [(0, 0)] && s.freeCore (s.groupOf 9) == some 0 &&
        d.cores == []) = true ∧
      ((post (.expanderCoreGrant 0) s).desc 7).any (fun d => d.cores == [{ core0 0 0 with index := 0 }]) = true) ∧
    (let s := expander [] 0
     s.coreNext 0 = s.desc 7 ∧ (s.desc 7).any (fun d => fld (s.cfgAt d.epoch (Reg.exCfg 0)) 12 8 < s.bulkHeld 0 + s.coreGrantSize d) = true) ∧
    (let s := expander [] 1
     (s.desc 7).any (fun d => s.coreGrantSize d == 1 && s.coreGrantSize d ≤ s.coresPer - s.coresHeld 0 &&
        s.bulkHeld 0 + s.coreGrantSize d ≤ fld (s.cfgAt d.epoch (Reg.exCfg 0)) 12 8) = true) ∧
    (let s := expander [core0 0 0] 1
     s.coreNext 0 = none ∧ (s.inGroup 0).all (fun d => d.held.all (fun c => c.index != 4)) = true) := by decide +kernel

theorem witness_ExpanderCoresMakeResidues_2 :
    (∀ slot retries, (slot = 0 ∨ slot = 1024) → (retries = 0 ∨ retries = 1) → let s := expander [core0 slot retries] 1
      s.issuing = true ∧ s.hasExp 0 = true ∧ bit (s.reg Reg.tpInj) 63 = false ∧
      (s.inGroup 0).findSome? (fun d => (d.held.find? (fun c => c.index == 3)).map (fun c => (d, c))) = (s.desc 7).map (·, core0 slot retries) ∧
      (s.desc 7).any (fun d => !d.pausedCores.any (fun x => x.index == 3) && !d.ended && slot ≤ 2 ^ s.lognOf d &&
        s.primeAt d (d.geo.limbMap.getD 0 0) == 0xFFFE00001) = true ∧ fld (s.act Reg.hmCfg) 63 32 = 0 ∧ fld (s.act Reg.hmCfg) 31 24 = 0) ∧
    ((post (.xofPermutation 0 3 false) (expander [core0 0 0] 1)).desc 7).any (fun d => d.cores.any (fun c => c.perms == 1 && 30 < c.slot)) = true ∧
    ((post (.xofPermutation 0 3 true) (expander [core0 0 1] 1)).desc 7).any (fun d => d.status == 0x30 && d.word1 == 0x27840000) = true := by
  refine ⟨?_, by decide +kernel, by decide +kernel⟩
  rintro slot retries (rfl | rfl) (rfl | rfl) <;> decide +kernel

/-- Table 6-2: the padded block of the message. -/
theorem test_message_block : xofBlock (xofMessage seed0 0x4B 17 2) =
    seed0 ++ [0x4B, 0x11, 0, 0, 0, 2, 0, 0, 0, 0x1F] ++ zeros 125 ++ [0x80] := by decide +kernel

/-- Table 6-3: sampling of 27 output bytes. -/
theorem test_sampling :
    (sample 0xFFFE00001 1024 (candidates 3 ([0x21, 0x43, 0x65, 0x87, 0xF9, 0xFF, 0xFF, 0xFF, 0xFF, 0x01, 0x00, 0xE0, 0xFF, 0x0F, 0x00, 0x00, 0xFE, 0xFF,
      0, 0, 0, 0, 0x90, 0x78, 0x56, 0x34, 0x12])).1).1 = [0x987654321, 0xFFFE00000, 0, 0x123456789] := by decide +kernel

/-- A stream with a slot of lift unit 15 whose output goes to memory and whose first window lies in the pad, so that its units are there. -/
def liftGeo (ctrl : Nat) : Geo :=
  { moveGeo with op := 8, src := { moveGeo.src with fmt := 3, n := [1024, 1, 1, 1, 1] }, dst := { moveGeo.dst with n := [1024, 1, 1, 1, 1] },
                 win := [1024, 1, 1, 1, 1], start := [2048, 0, 0, 0, 0], perm := [0, 1, 2, 3, 4], liftUnit := 15, liftCtrl := ctrl, auxBase := 0x10000,
                 limbMap := List.replicate 96 0, evalDomain := false, bitrev := false }
def side (n : Nat) : InUnit := { unit := { obj := 4, va := 0x10000, len := 64 }, issued := 64, parts := [(0, leBytes 4 0 ++ leBytes 1 n ++ zeros 59)], reread := false }
def lifted (ctrl n : Nat) : Desc :=
  { desc7 [move0, move1] with phase := .running, began := true, geo := liftGeo ctrl, mover := some 0, liftSlot := some 15, ins := [side n] }

theorem witness_LiftUnitsProduceForOneStream :
    (let s := lensing [{ lifted 0 0 with stagingWait := true }]
     s.issuing = true ∧ s.hasLift 15 = true ∧ s.onLift 15 = s.descs ∧ s.descs.all (fun d => !s.liftReady d) = true) ∧
    (let s := lensing [lifted 0 0]
     s.issuing = true ∧ s.hasLift 15 = true ∧ s.liftReady (lifted 0 0) = true ∧ (s.liftTurn 15).2 = some (lifted 0 0) ∧ s.isLc (lifted 0 0).queue = true ∧
      (lifted 0 0).sideFault (lifted 0 0).liftPos = none ∧ bit (s.reg Reg.tpInj) 63 = false ∧ (liftGeo 0).liftToPort = false ∧
      ((post (.liftUnitCycle 15) s).desc 7).any (fun d => d.liftPos == 128) = true) ∧
    (let s := lensing [lifted 4 9]
     (s.liftTurn 15).2 = some (lifted 4 9) ∧ (lifted 4 9).sideFault (lifted 4 9).liftPos = some (0, 9) ∧
      ((post (.liftUnitCycle 15) s).desc 7).any (fun d => d.status == 0x14 && d.word1 == 0x900000000) = true) := by decide +kernel

/-! ### Witnesses: links and lines -/

/-- A tag with every field at its greatest value. -/
def fullTag : Tag :=
  { linkSeq := 0xFFFF, ack := 0xFFFF, kind := 0xFF, credit := 0xFF, granules := 0x3F, opens := true, lc := true, src := 0xFFFFF, dst := 0xFFFFF,
    hops := 0xFFF, line := 0xFFF, seq := 0xFFFFFFFF, amount := 0xFFFFFFFF, addr := 0x3FFFFFFFFF, ctx := 0x3FF, fmt := 0xF, prime := 0x7F, round := 3 }

theorem witness_LinkTagsAreReadBack : tagFields (fullTag.block [1, 2, 3]) = fullTag ∧ crcGood (fullTag.block [1, 2, 3]) = true := by decide +kernel

/-- Link 95 in a state, the only link of set 0, on the route to chip 9; this chip has ID 5. Context 5 may write the last 4 KiB of the first
MiB of tier 0 from outside. -/
def linked (x : Link) : State :=
  unlimited { withCfg ([(Reg.fbLinksetHi 0, 0x80000000), (Reg.fbRouteLocal 9, 0x8000000000000000), (Reg.fbInBase 63, 0xFF000), (Reg.fbInLen 63, 0x1000),
      (Reg.fbInAttr 63, 0x8000000000030005), (rkey Reg.byCtxMap 5, 0x200100064), (Reg.fbSystem, 0x1234567800000000)].foldl (fun f p => tput f p.1 p.2) []) with
    fab := { live.fab with idValid := true, chipId := 5, links := [(95, x)] } }

def linkUp : Link := { Link.blank with state := .up, credits := 32, txSeq := 0xFFFF, rxSeq := 0xFFFF, locked := true }

/-- A line block to send, with or without a line, and one of a link's own. -/
def outBlock (k : Nat) (sends : Nat) : LinkItem :=
  { block := Tag.block { Tag.ofKind k with src := 5, dst := 9, hops := 1, line := 4095 } [], sends := sends, line := none, came := none, bytes := 40, qid := 9, lc := true }

theorem witness_LinksTrainAndFail :
    ((∀ x, x = Link.blank ∨ x = linkUp → (linked x).issuing = true ∧ (linked x).hasLink 95 = true ∧ (linked x).adminDown 95 = false ∧
        tsorted (linked x).regs = true) ∧
      ((post (.linkLock 95) (linked Link.blank)).link 95).state = .training ∧ ((post (.linkLockLoss 95) (linked linkUp)).link 95).state = .failed ∧
      (linked linkUp).beacons 95 = true ∧ (linked Link.blank).beacons 95 = false) ∧
    (let late := fun n sends => { linkUp with timeouts := n, replay := [outBlock 9 sends] }
     (linked (late 2 1)).link 95 = late 2 1 ∧ ((post (.ackTimeout 95) (linked (late 2 1))).link 95).cause = 3 ∧
      ((post (.ackTimeout 95) (linked (late 1 7))).link 95).resend = some 0 ∧ ((post (.ackTimeout 95) (linked (late 1 8))).link 95).cause = 2) ∧
    (let s := linked { linkUp with state := .failed }
     s.normal = true ∧ (s.link 95).state = .failed ∧ fromCompute (.compute 0) = true ∧ ((post (.restore .host 95) s).link 95).state = .training) := by
  refine ⟨⟨?_, by decide +kernel⟩, by decide +kernel, by decide +kernel⟩
  rintro x (rfl | rfl) <;> decide +kernel

theorem witness_LinksSendWithinTheirCredits :
    (let s := { linked linkUp with kp := { live.kp with mode := .halted } }
     s.hasLink 95 = true ∧ s.rst.inEffect = false ∧ s.kp.mode = .halted ∧ (s.link 95).state = .up ∧ (linked Link.blank).link 95 = Link.blank) ∧
    (let s := linked { linkUp with queue := [outBlock 9 0, outBlock 5 0], owed := 40 }
     s.issuing = true ∧ (s.link 95).queue.find? (fun it => firstKind (blockKind it.block) && mayLeave (s.link 95) it) = some (outBlock 5 0) ∧
      ((post (.linkSend 95) s).link 95).owed = 8 ∧ ((post (.linkSend 95) s).link 95).txSeq = 0) ∧
    (let s := linked { linkUp with queue := [outBlock 9 0], replay := [outBlock 9 1], resend := some 0 }
     (s.link 95).queue.find? (fun it => firstKind (blockKind it.block) && mayLeave (s.link 95) it) = none ∧ (outBlock 9 1).line = none ∧
      ((post (.linkSend 95) s).link 95).replay = [outBlock 9 2]) ∧
    (let s := linked { linkUp with queue := [outBlock 9 0] }
     (s.link 95).resend = none ∧ firstKind (blockKind (outBlock 9 0).block) = false ∧ mayLeave (s.link 95) (outBlock 9 0) = true ∧
      ((post (.linkSend 95) s).link 95).replay.map (·.sends) = [1] ∧ ((post (.linkSend 95) s).link 95).credits = 31) ∧
    (let s := linked { linkUp with queue := [outBlock 9 0], credits := 0 }
     (s.link 95).credits = 0 ∧ (s.link 95).queue.all (fun it => lineKind (blockKind it.block)) = true ∧ (post (.linkSend 95) s).out = []) ∧
    ((linked linkUp).sentOut (outBlock 9 0) = none ∧ (linked linkUp).sentOut (outBlock 5 0) = none ∧
      [outBlock 9 0].any (mayLeave { linkUp with credits := 0 }) = false) ∧
    ((linked linkUp).link 95).queue = [] ∧ ((linked linkUp).link 95).txSeq < 2 ^ 16 ∧ (post (.linkIdleTimer 95) (linked linkUp)).out.length = 1 := by
  decide +kernel

/-- A block that comes to link 95 in its turn, from line 4095 of chip 9. -/
def comes (k : Nat) (f : Tag → Tag) (payload : Bytes) : LinkBlock :=
  Tag.block (f { Tag.ofKind k with linkSeq := 0xFFFF, src := 9, dst := 5, line := 4095, seq := 0xFFFFFFFF, ctx := 5, granules := payload.length / 64 }) payload

theorem witness_ReceivedBlocksAreCheckedFirst :
    (∀ x, x = linkUp ∨ x = { linkUp with nackSent := true } ∨ x = { linkUp with replay := [outBlock 9 7] } ∨ x = { linkUp with replay := [outBlock 9 8] } →
      let s := linked x
      s.issuing = true ∧ s.hasLink 95 = true ∧ carries (s.link 95).state 9 = true ∧ bit (s.reg Reg.tpInj) 63 = false ∧ fld (s.act Reg.hmCfg) 63 32 = 0 ∧
        tsorted s.regs = true) ∧
    (carries .down 0 = false ∧ crcGood (comes 0 id []) = true ∧ tagSound (comes 0 id []) = true ∧ (tagFields (comes 0 id [])).kind ≠ 9 ∧
      crcGood { tag := 1, payload := [] } = false ∧ tagSound (comes 0 (fun t => { t with amount := 1 }) []) = false) ∧
    soundBlock (linked linkUp) 95 0 (comes 0 id []) ∧ soundBlock (linked { linkUp with replay := [outBlock 9 8] }) 95 8 (comes 8 id []) ∧
    ((tookBlock (linked { linkUp with replay := [outBlock 9 8] }) 95 8 (comes 8 (fun t => { t with ack := 0xFFFE }) [])).link 95).replay = [outBlock 9 8] ∧
    ((post (.nack 95 (comes 8 (fun t => { t with ack := 0xFFFE }) [])) (linked { linkUp with replay := [outBlock 9 8] })).link 95).cause = 2 ∧
    ((post (.linkData 95 { tag := 1, payload := [] }) (linked linkUp)).link 95).nackSent = true := by
  refine ⟨?_, by unfold soundBlock; decide +kernel⟩
  rintro x (rfl | rfl | rfl | rfl) <;> decide +kernel

/-- The inbound line that the blocks come on, and the state with it. -/
def lineIn (ap : List Applying) : InLine :=
  { src := 9, line := 4095, opened := true, opening := { tag := 0, payload := [] }, expect := 0xFFFFFFFF, reorder := [], applying := ap, acked := 0, refusal := none }
def receiving (ap : List Applying) : State := let s := linked linkUp; { s with fab := { s.fab with inb := [(3, lineIn ap)] } }

/-- The address of the last 64 B that context 5 may write from outside. -/
def atEnd (t : Tag) : Tag := { t with addr := 0xFFFC0 / 64 }

theorem witness_LineBlocksAreAppliedInTurn_1 :
    (∀ b k, (b, k) ∈ [(comes 1 atEnd (List.replicate 64 7), 1), (comes 2 atEnd (List.replicate 64 0xFF ++ List.replicate 64 7), 2),
        (comes 3 (fun t => { atEnd t with fmt := 4 }) (List.replicate 64 1), 3), (comes 4 (fun t => { t with addr := 15, amount := 7 }) [], 4), (comes 9 id [], 9)] →
      let s := receiving []
      let t := tagFields b
      s.issuing = true ∧ soundBlock s 95 k b ∧ s.fab.idValid = true ∧ t.dst = s.fab.chipId ∧ t.opens = false ∧
        s.inLine t.src t.line = some (3, lineIn []) ∧ tget s.fab.inb 3 = some (lineIn []) ∧ (lineIn []).expect = t.seq) ∧
    ((receiving []).inboundOk 5 0xFFFC0 64 false = true ∧ ((receiving []).routePa 0xFFFC0).isSome = true ∧ pieceLen 0xFFFC0 64 = 64 ∧
      (receiving []).inboundOk 5 0xFFFC0 64 true = true ∧ (receiving []).addable (tagFields (comes 3 (fun t => { atEnd t with fmt := 4 }) (List.replicate 64 1))) = true ∧
      unitBytes 4 = 64 ∧ (receiving []).inboundOk 5 0x100000 64 false = false ∧ (receiving []).inboundOk 6 0xFFFC0 64 true = false) ∧
    ((receiving []).physOf 5 15 = some 115 ∧ (receiving []).quietSync = true ∧ ((receiving []).buoy 115).poison = false ∧
      tsorted (receiving []).fab.inb = true ∧ (receiving [{ seq := 4, parts := 1, came := none }]).fab.inb ≠ []) := by
  refine ⟨?_, by decide +kernel, by decide +kernel⟩
  intro b k h
  simp only [List.mem_cons, Prod.mk.injEq, List.not_mem_nil, or_false] at h
  unfold soundBlock
  rcases h with ⟨rfl, rfl⟩ | ⟨rfl, rfl⟩ | ⟨rfl, rfl⟩ | ⟨rfl, rfl⟩ | ⟨rfl, rfl⟩ <;> decide +kernel

theorem witness_LineBlocksAreAppliedInTurn_2 :
    ((post (.linkData 95 (comes 1 atEnd (List.replicate 64 7))) (receiving [])).reqs.any (fun r => r.kind == .write && r.pa == 0xFFFC0 && r.len == 64) = true ∧
      bit ((post (.linkData 95 (comes 1 (fun t => { t with addr := 0x100000 / 64 }) (List.replicate 64 7))) (receiving [])).reg Reg.fbEvent) 4 = true ∧
      ((post (.linkSignal 95 (comes 4 (fun t => { t with addr := 15, amount := 7 }) [])) (receiving [])).buoy 115).value = 7 ∧
      ((post (.linkSignal 95 (comes 4 (fun t => { t with addr := 15, amount := 7 }) [])) (receiving [{ seq := 4, parts := 1, came := none }])).buoy
        115).value = 0 ∧
      (post (.close 95 (comes 9 id [])) (receiving [])).fab.inb = []) := by decide +kernel

/-- An item of line 4095 of the MOVE to chip 9, sent so many times, and the line with its items. -/
def itemOut (seq sends : Nat) : OutItem := { seq := seq, block := (outBlock 9 1).block, sends := sends, va := 0x48000000 + seq, tag := none, id := 30 + seq, units := [] }
def lineOut (items waiting : List OutItem) (busy : Bool) : OutLine :=
  { did := 7, chip := 9, next := 3, items := items, waiting := waiting, growing := false, opened := true, alt := false, busy := busy }
def sending (x : OutLine) : State :=
  let s := linked linkUp
  { s with queues := (moveIn id).queues, descs := [runningMove (desc7 [move0, move1])], fab := { s.fab with out := [(4095, x)] } }

theorem witness_LinesAreAcknowledgedOrSentAgain_1 :
    (∀ a, a = 0 ∨ a = 0xFFFFFFFF → let s := { receiving [] with fab := { (receiving []).fab with inb := [(3, { lineIn [] with acked := a })] } }
      s.issuing = true ∧ s.fab.loop = [] ∧ tget s.fab.inb 3 = some { lineIn [] with acked := a } ∧ s.isSelf 9 = false ∧ s.routeTo 9 = some ([95], false) ∧
      s.bestLink [95] = some 95) ∧
    (let x := { lineIn [] with acked := 0xFFFFFFFF, reorder := [(3, some 95, comes 4 id [])] }
     let s := { receiving [] with fab := { (receiving []).fab with inb := [(3, x)] } }
     tget s.fab.inb 3 = some x ∧ x.acked = x.expect ∧ x.reorder ≠ [] ∧
      ((post (.lineAckTimer 3) s).link 95).queue.map (fun it => (tagFields it.block).addr) = [256]) ∧
    ((lineIn []).acked ≠ (lineIn []).expect ∧ ((post (.lineAckTimer 3) (receiving [])).link 95).queue.map (fun it => (tagFields it.block).seq) = [0xFFFFFFFE]) ∧
    (let s := sending (lineOut [itemOut 0 1, itemOut 1 1] [itemOut 2 0] false)
     s.issuing = true ∧ s.fab.idValid = true ∧ tget s.fab.out 4095 = some (lineOut [itemOut 0 1, itemOut 1 1] [itemOut 2 0] false) ∧
      s.descs.all (fun d => d.late == [] && !d.ended) = true ∧ (lineOut [] [] false).growing = false ∧ soundBlock s 95 5 (comes 5 (fun t => { t with seq := 0 }) []) ∧
      soundBlock s 95 5 (comes 5 (fun t => { t with seq := 1, addr := 0x21 }) []) ∧ soundBlock s 95 10 (comes 10 id []) ∧
      (tget (post (.lineAck 95 (comes 5 (fun t => { t with seq := 0 }) [])) s).fab.out 4095).any (fun y => y.items.map (·.seq) == [1, 2]) = true ∧
      ((post (.lineAck 95 (comes 5 (fun t => { t with seq := 1, addr := 0x21 }) [])) s).desc 7).any (fun d => d.status == 0x21 && d.word1 == 0x48000001) = true ∧
      (tget (post (.busy 95 (comes 10 id [])) s).fab.out 4095).any (fun y => y.busy && y.items == []) = true) := by
  refine ⟨?_, by decide +kernel, by decide +kernel, by unfold soundBlock; decide +kernel⟩
  rintro a (rfl | rfl) <;> decide +kernel

theorem witness_LinesAreAcknowledgedOrSentAgain_2 :
    (∀ x, x = lineOut [] [itemOut 0 1] true ∨ x = lineOut [itemOut 0 15] [] false ∨ x = lineOut [itemOut 0 16] [] false →
      (sending x).issuing = true ∧ tget (sending x).fab.out 4095 = some x ∧ (sending x).fab.loop = [] ∧ tsorted (sending x).fab.out = true ∧
      (sending x).routeTo 9 = some ([95], x.alt) ∧ (sending x).bestLink [95] = some 95 ∧ ((sending x).desc 7).any (fun d => !d.ended) = true) ∧
    ((post (.busyRetry 4095) (sending (lineOut [] [itemOut 0 1] true))).link 95).queue.length = 1 ∧
    ((post (.lineRetry 4095) (sending (lineOut [itemOut 0 15] [] false))).link 95).queue.length = 1 ∧
    ((post (.lineRetry 4095) (sending (lineOut [itemOut 0 16] [] false))).desc 7).any (fun d => d.status == 0x30) = true ∧
    ((post (.lineLost 4095) (sending (lineOut [itemOut 0 1] [] false))).desc 7).any (fun d => d.status == 0x31) = true := by
  refine ⟨?_, by decide +kernel⟩
  rintro x (rfl | rfl | rfl) <;> decide +kernel

theorem witness_LinksSendWithinTheirCredits_spent :
    (let it := { outBlock 9 0 with line := some 4095 }
     let s := sending (lineOut [itemOut 0 16] [] false)
     let s := s.setLink 95 { linkUp with queue := [it] }
     s.issuing = true ∧ s.sentOut it = some (4095, 0x48000000) ∧
      ((post (.linkSend 95) s).desc 7).any (fun d => d.status == 0x30 && d.word1 == 0x48000000) = true) := by decide +kernel

/-- A beacon or fog payload: the sender's chip, its system tag, epoch 2 and link 1. -/
def beaconData (chip tag : Nat) : Bytes := leBytes 4 chip ++ leBytes 4 tag ++ leBytes 2 2 ++ leBytes 1 1 ++ zeros 53

theorem witness_BeaconsAndFogSetTheLink :
    (∀ chip tag, (chip = 0x80000009 ∨ chip = 0x80000005) → (tag = 0x12345678 ∨ tag = 0) → let s := linked linkUp
      s.issuing = true ∧ tsorted s.regs = true ∧ soundBlock s 95 6 (comes 6 id (beaconData chip tag)) ∧ bit (s.act Reg.fbChip) 62 = false) ∧
    soundBlock (linked linkUp) 95 7 (comes 7 id (beaconData 9 0)) ∧
    ((post (.beacon 95 (comes 6 id (beaconData 0x80000009 0x12345678))) (linked { linkUp with state := .training })).link 95).state = .up ∧
    ((post (.beacon 95 (comes 6 id (beaconData 0x80000009 0))) (linked linkUp)).link 95).state = .isolated ∧
    bit ((post (.beacon 95 (comes 6 id (beaconData 0x80000005 0x12345678))) (linked linkUp)).reg Reg.fbEvent) 7 = true ∧
    ((post (.fog 95 (comes 7 id (beaconData 9 0))) (linked linkUp)).link 95).cause = 4 := by
  refine ⟨?_, by unfold soundBlock; decide +kernel, by decide +kernel⟩
  unfold soundBlock
  rintro chip tag (rfl | rfl) (rfl | rfl) <;> decide +kernel

/-! ### Words -/

/-- No row of the table gives bits: no word spells a command. -/
theorem test_no_word_spells_a_command : decodeTableWord 8 0 = none ∧ State.reset.withFetchWord 8 0 = State.reset := by decide +kernel

end Sys2Proof.Tests
end

section
/-! PROOFS. The laws of the queue manager's shared operations, and what the return of an index block read does to its queue (R319, R335, R339). -/

namespace Sys2Proof.Machine

variable {s : State} {q : Nat} {x : Queue}

/-! ### Lookups of a queue -/

theorem tget_tmod_self {α : Type} {t : List (Nat × α)} {k : Nat} {a : α} (h : tget t k = some a) (f : α → α) :
    tget (tmod t k f) k = some (f a) := by simp [tmod, h]

theorem State.queue_of_tget (h : tget s.queues q = some x) : s.queue q = x := by simp [State.queue, h]

@[simp] theorem State.setQueue_queue_self (s : State) (q : Nat) (x : Queue) : (s.setQueue q x).queue q = x :=
  State.queue_of_tget (by simp)

theorem State.onQueue_queue_self (h : tget s.queues q = some x) (f : Queue → Queue) : (s.onQueue q f).queue q = f x :=
  State.queue_of_tget (tget_tmod_self h f)

/-! ### What the shared operations can change -/

/-- Turns of a memory port mark accesses as passed on and change the arbitration points. -/
theorem State.mportServe_is (p i n : Nat) (s : State) : ∃ l d, State.mportServe p i n s = { s with reqs := l, drr := d } := by
  induction n generalizing s with
  | zero => exact ⟨s.reqs, s.drr, rfl⟩
  | succ n ih =>
    obtain ⟨d, hd⟩ := s.arbitrate_is (mportPoint p) 128 ((s.mportReqs p).map s.mportCand)
    unfold State.mportServe
    split
    · split
      next heq => rw [heq] at hd; exact ⟨s.reqs, d, hd⟩
      next heq =>
        rw [heq] at hd
        obtain rfl := hd
        exact ih _
    · exact ⟨s.reqs, s.drr, rfl⟩

theorem State.passOn_is (s : State) (r : MemReq) : ∃ l d, s.passOn r = { s with reqs := l, drr := d } := by
  unfold State.passOn
  split
  · exact State.mportServe_is ..
  · exact ⟨s.reqs, s.drr, rfl⟩

/-- A flash changes its flash queue and the registers that count it. -/
theorem State.flash_is (s : State) (f : Nat) (r : Flash) : ∃ g y, s.flash f r = { s with regs := g, sync := y } := by
  unfold State.flash
  dsimp only
  split
  · exact ⟨_, _, rfl⟩
  · split
    · exact ⟨_, _, rfl⟩
    · split
      · exact ⟨_, _, rfl⟩
      · exact ⟨_, _, rfl⟩

theorem State.queueFlash_is (s : State) (q event detail index addr : Nat) :
    ∃ g y, s.queueFlash q event detail index addr = { s with regs := g, sync := y } := by
  unfold State.queueFlash
  dsimp only
  split
  · exact s.flash_is ..
  · exact ⟨s.regs, s.sync, rfl⟩

/-- An ENABLED queue that enters ERROR latches reason, status and index; beside the queue only registers and flash queues change (R339). -/
theorem State.enterError_is (he : (s.queue q).state = .enabled) (reason index status : Nat) :
    ∃ g y, s.enterError q reason index status =
      { s.setQueue q { s.queue q with state := .error, errReason := reason, errStatus := status, errIndex := index } with
        regs := g, sync := y } := by
  obtain ⟨g, y, h⟩ := ((s.setQueue q { s.queue q with
    state := .error, errReason := reason, errStatus := status, errIndex := index }).evQm 0).queueFlash_is q 2 reason index 0
  exact ⟨g, y, (if_pos (.inl he)).trans h⟩

theorem State.enterError_queue_self (he : (s.queue q).state = .enabled) (reason index status : Nat) :
    (s.enterError q reason index status).queue q =
      { s.queue q with state := .error, errReason := reason, errStatus := status, errIndex := index } := by
  obtain ⟨g, y, h⟩ := State.enterError_is he reason index status
  rw [h]
  exact State.queue_of_tget (tget_tput_self ..)

/-- The first fatal event outside HALTED is kept (Table 16-5, step 1). -/
theorem State.raiseFatal_fatal_of_none (h : s.kp.fatal = none) (hm : s.kp.mode ≠ .halted) (reason obj : Nat) :
    (s.raiseFatal reason obj).kp.fatal = some (reason, obj) := by
  simp [State.raiseFatal, h, hm]

theorem State.wantFetch_is (s : State) (q : Nat) : ∃ l, s.wantFetch q = { s with fetchOrder := l } := by
  unfold State.wantFetch
  split
  · exact ⟨s.fetchOrder, rfl⟩
  · exact ⟨_, rfl⟩

theorem State.endLastRead_of_not_lastRead (h : (s.queue q).lastRead = false) : s.endLastRead q = s := by
  simp [State.endLastRead, h]

theorem State.readAhead_of_bounded (h : s.boundedQ q = true) : s.readAhead q = s := by simp [State.readAhead, h]

/-! ### Producer indices -/

/-- On 32-bit indices the distance is the difference of the machine words (R311). -/
theorem idxDist_toNat (a b : BitVec 32) : idxDist a.toNat b.toNat = (b - a).toNat := by
  rw [idxDist, BitVec.toNat_sub]
  omega

/-- accept_producer in machine words, as R319 writes it. -/
theorem acceptProducer_toNat (p pr c : BitVec 32) (k : Nat) :
    acceptProducer p.toNat pr.toNat c.toNat k = if (p - pr).toNat + (pr - c).toNat ≤ 2 ^ k then some p.toNat else none := by
  simp only [acceptProducer, idxDist_toNat]

/-- Beside the index itself, taking a producer index changes only what belongs to reading ahead (R321). -/
theorem takeProducer_is (p : Nat) (x : Queue) : ∃ n a m h e,
    takeProducer p x = { x with pr := p, idle := false, next := n, part := a, spec := m, halfEntry := h, entStale := e } := by
  unfold takeProducer
  split
  next h => subst h; exact ⟨_, _, _, _, _, rfl⟩
  · dsimp only
    split
    · exact ⟨_, _, _, _, _, rfl⟩
    · exact ⟨_, _, _, _, _, rfl⟩

section
variable (p : Nat) (x : Queue)

@[simp] theorem takeProducer_pr : (takeProducer p x).pr = p := by obtain ⟨_, _, _, _, _, h⟩ := takeProducer_is p x; rw [h]
@[simp] theorem takeProducer_cons : (takeProducer p x).cons = x.cons := by obtain ⟨_, _, _, _, _, h⟩ := takeProducer_is p x; rw [h]
@[simp] theorem takeProducer_state : (takeProducer p x).state = x.state := by obtain ⟨_, _, _, _, _, h⟩ := takeProducer_is p x; rw [h]
@[simp] theorem takeProducer_idxOut : (takeProducer p x).idxOut = x.idxOut := by obtain ⟨_, _, _, _, _, h⟩ := takeProducer_is p x; rw [h]
@[simp] theorem takeProducer_lastRead : (takeProducer p x).lastRead = x.lastRead := by obtain ⟨_, _, _, _, _, h⟩ := takeProducer_is p x; rw [h]

end

/-! ### The return of an index block read -/

section
variable {data : Bytes} (hx : tget s.queues q = some x) (he : x.state = .enabled) (hl : x.lastRead = false) (hb : s.boundedQ q = true)
include hx he hl hb

/-- An accepted PRODUCER is taken and the queue asks for fetches; nothing is read ahead on a doorbell-bounded queue (R319, R320). -/
theorem State.idxReturn_of_accepted {p : Nat} (ha : acceptProducer (leAt data 0 4) x.pr x.cons x.log2 = some p) :
    ∃ qs l, s.idxReturn q data = { s with queues := qs, fetchOrder := l } ∧
      tget qs q = some (takeProducer p { x with idxOut := false }) := by
  have hset : tget (s.setQueue q { x with idxOut := false }).queues q = some { x with idxOut := false } := tget_tput_self ..
  have hbs : (s.setQueue q { x with idxOut := false }).boundedQ q = true := hb
  have hbt : ((s.setQueue q { x with idxOut := false }).onQueue q (takeProducer p)).boundedQ q = true := hb
  have hlast : (((s.setQueue q { x with idxOut := false }).onQueue q (takeProducer p)).queue q).lastRead = false := by
    rw [State.onQueue_queue_self hset, takeProducer_lastRead, hl]
  obtain ⟨l, hw⟩ := ((s.setQueue q { x with idxOut := false }).onQueue q (takeProducer p)).wantFetch_is q
  refine ⟨_, l, ?_, tget_tmod_self hset (takeProducer p)⟩
  unfold State.idxReturn
  rw [State.queue_of_tget hx]
  dsimp only
  rw [if_neg (not_not.mpr he), if_pos hbs, ha]
  dsimp only
  rw [State.endLastRead_of_not_lastRead hlast, State.readAhead_of_bounded hbt, hw]
  rfl

/-- Any other PRODUCER is a ring overrun: fatal for the admin queue (R335), an error of a tenant queue (R339). -/
theorem State.idxReturn_of_overrun (ha : acceptProducer (leAt data 0 4) x.pr x.cons x.log2 = none) :
    s.idxReturn q data =
      if q = 0 then (s.setQueue q { x with idxOut := false }).raiseFatal 0x03 (leAt data 0 4)
      else (s.setQueue q { x with idxOut := false }).enterError q 1 (leAt data 0 4) 0 := by
  have hbs : (s.setQueue q { x with idxOut := false }).boundedQ q = true := hb
  have hes : ((s.setQueue q { x with idxOut := false }).queue q).state = .enabled := by rwa [State.setQueue_queue_self]
  have hlast : (((s.setQueue q { x with idxOut := false }).enterError q 1 (leAt data 0 4) 0).queue q).lastRead = false := by
    rw [State.enterError_queue_self hes, State.setQueue_queue_self]
    exact hl
  unfold State.idxReturn
  rw [State.queue_of_tget hx]
  dsimp only
  rw [if_neg (not_not.mpr he), if_pos hbs, ha]
  dsimp only
  rw [State.endLastRead_of_not_lastRead hlast]

/-- A ring overrun of a tenant queue latches reason 1 and the PRODUCER; the highest accepted index stays (R339). -/
theorem State.idxReturn_of_overrun_tenant (hq : q ≠ 0) (ha : acceptProducer (leAt data 0 4) x.pr x.cons x.log2 = none) :
    (s.idxReturn q data).reqs = s.reqs ∧ (s.idxReturn q data).queue q =
      { x with idxOut := false, state := .error, errReason := 1, errStatus := 0, errIndex := leAt data 0 4 } := by
  have hes : ((s.setQueue q { x with idxOut := false }).queue q).state = .enabled := by rwa [State.setQueue_queue_self]
  rw [State.idxReturn_of_overrun hx he hl hb ha, if_neg hq]
  refine ⟨?_, ?_⟩
  · obtain ⟨g, y, h⟩ := State.enterError_is hes 1 (leAt data 0 4) 0
    rw [h]
    rfl
  · rw [State.enterError_queue_self hes, State.setQueue_queue_self]

end

/-- INDEX_BLOCK_READ_RESPONSE while the block issues: the read that is answered goes, and its data return to the queue. -/
theorem exec_indexBlockReadResponse_acts {r : MemReq} {data : Bytes} (hi : s.issuing = true)
    (hf : s.reqs.find? (fun r => r.owner == .idx q && r.answerable) = some r) (hok : r.failed false = false) (hd : r.result data = data) :
    exec (.indexBlockReadResponse q data false) s =
      .next { State.pump (((s.passOn r).dropReq r.id).idxReturn q data) with pending := s.pending } := by
  rw [exec_indexBlockReadResponse, execIndexBlockReadResponse, whenIssuing_acts hi, hf]
  dsimp only
  rw [hok, hd]
  rfl

/-- Settles O41: the test of R319 on machine words, then the two returns of an index block read: a PRODUCER taken, and a ring overrun. -/
theorem producersAreAcceptedWithinTheRing : Obligations.ProducersAreAcceptedWithinTheRing := by
  unfold Obligations.ProducersAreAcceptedWithinTheRing
  refine ⟨acceptProducer_toNat, fun s q hi _ r x data hf hok hd hx he hl hb => ⟨_, exec_indexBlockReadResponse_acts hi hf hok hd, ?_⟩⟩
  obtain ⟨l, d, hpass⟩ := s.passOn_is r
  obtain ⟨hnormal, hfatal, -⟩ := issuing_iff.mp hi
  obtain ⟨-, hmode⟩ := normal_iff.mp hnormal
  generalize ht : (s.passOn r).dropReq r.id = t
  have hkp : t.kp = s.kp := by rw [← ht, hpass]; rfl
  have hxt : tget t.queues q = some x := by rw [← ht, hpass]; exact hx
  have hbt : t.boundedQ q = true := by rw [← ht, hpass]; exact hb
  cases ha : acceptProducer (leAt data 0 4) x.pr x.cons x.log2 with
  | some p =>
    obtain ⟨qs, m, hu, hq⟩ := State.idxReturn_of_accepted hxt he hl hbt ha
    have hqueue : (t.idxReturn q data).queue q = takeProducer p { x with idxOut := false } := by
      rw [hu]; exact State.queue_of_tget hq
    refine ⟨by rw [hu], fun p' hp => ?_, nofun⟩
    obtain rfl := Option.some.inj hp
    rw [hqueue, hu]
    exact ⟨takeProducer_pr .., takeProducer_cons .., (takeProducer_state ..).trans he, takeProducer_idxOut .., hkp⟩
  | none =>
    rcases eq_or_ne q 0 with h0 | h0
    · have hu := State.idxReturn_of_overrun hxt he hl hbt ha
      rw [if_pos h0] at hu
      rw [hu]
      refine ⟨rfl, nofun, fun _ => ⟨fun _ => ?_, fun h => absurd h0 h⟩⟩
      exact State.raiseFatal_fatal_of_none (by simp [hkp, hfatal]) (by simp [hkp, hmode]) ..
    · obtain ⟨hreqs, hqueue⟩ := State.idxReturn_of_overrun_tenant hxt he hl hbt h0 ha
      refine ⟨hreqs, nofun, fun _ => ⟨fun h => absurd h h0, fun _ => ?_⟩⟩
      rw [hqueue]
      exact ⟨rfl, rfl, rfl, rfl⟩

end Sys2Proof.Machine
end

section
/-! PROOFS. The traffic generators (R551 to R553): their pattern, the control register, the request of a cycle and the answer to it. -/

namespace Sys2Proof.Machine

/-! ### Little-endian strings -/

@[simp] theorem leBytes_length (n v : Nat) : (leBytes n v).length = n := by
  induction n generalizing v with
  | zero => rfl
  | succ n ih => simp [leBytes, ih]

/-- The bytes of a number spell it, reduced to the bytes there are. -/
theorem leNat_leBytes (n v : Nat) : leNat (leBytes n v) = v % 256 ^ n := by
  induction n generalizing v with
  | zero => simp [leBytes, leNat, Nat.mod_one]
  | succ n ih => rw [leBytes, leNat, ih, BitVec.toNat_ofNat, pow_succ' 256 n]; exact Nat.mod_mul.symm

/-- Chunk `i` of a string made of chunks of `k` bytes. -/
theorem chunk_flatMap {α : Type} {f : α → Bytes} {k : Nat} (hf : ∀ x, (f x).length = k) (l : List α) (i : Nat) (hi : i < l.length) :
    ((l.flatMap f).drop (k * i)).take k = f l[i] := by
  induction l generalizing i with
  | nil => simp at hi
  | cons x l ih =>
    cases i with
    | zero => simp [← hf x]
    | succ i =>
      have hd : k * (i + 1) = (f x).length + k * i := by rw [hf x]; ring
      rw [List.flatMap_cons, hd, ← List.drop_drop, List.drop_left, List.getElem_cons_succ, ih i (by simpa using hi)]

/-! ### The pattern -/

/-- Word `i` of the pattern of R553. -/
theorem wordAt_tgData (a seed : Nat) {i : Nat} (hi : i < 16) : wordAt (tgData a seed) i = BitVec.ofNat 64 (tgWord (a + 8 * i) seed) := by
  rw [wordAt, leAt, tgData, chunk_flatMap (fun _ => leBytes_length ..) _ _ (by simpa using hi), leNat_leBytes, List.getElem_range]
  exact BitVec.eq_of_toNat_eq (by simp)

/-- tg_word in machine words, as R553 writes it. -/
theorem ofNat_tgWord (a : Nat) (seed : BitVec 32) :
    BitVec.ofNat 64 (tgWord a seed.toNat) =
      (let y := (BitVec.ofNat 64 a ^^^ (seed.setWidth 64 <<< 32)) * 0x9E3779B97F4A7C15; y ^^^ (y >>> 29)) := by
  have hs : BitVec.ofNat 64 (2 ^ 32 * seed.toNat) = seed.setWidth 64 <<< 32 := by
    refine BitVec.eq_of_toNat_eq ?_
    rw [BitVec.toNat_shiftLeft, BitVec.toNat_setWidth, BitVec.toNat_ofNat, Nat.shiftLeft_eq, Nat.mul_comm, Nat.mod_mul_mod]
  have hr (n : Nat) : BitVec.ofNat 64 (n % 2 ^ 64 / 2 ^ 29) = BitVec.ofNat 64 n >>> 29 := by
    refine BitVec.eq_of_toNat_eq ?_
    rw [BitVec.toNat_ushiftRight, BitVec.toNat_ofNat, BitVec.toNat_ofNat, Nat.shiftRight_eq_div_pow]
    exact Nat.mod_eq_of_lt ((Nat.div_le_self ..).trans_lt (Nat.mod_lt _ (Nat.two_pow_pos 64)))
  have hm (n : Nat) : BitVec.ofNat 64 (n % 2 ^ 64) = BitVec.ofNat 64 n := BitVec.eq_of_toNat_eq (by simp only [BitVec.toNat_ofNat, Nat.mod_mod])
  simp only [tgWord, BitVec.ofNat_xor, hr, hm, BitVec.ofNat_mul, hs, BitVec.mul_comm (BitVec.ofNat 64 0x9E3779B97F4A7C15)]
  rfl

section
variable {s : State} {port : Port} {p : Nat} {part : Part} {v : Word}

/-! ### The control register -/

/-- The row of TP_TG_CTRL in the register index: its RW bits hold RUN (63) and not REFUSED (62), and no other access code has a bit. -/
def tgCtrlRow : RegRow := ⟨0x71000, 64, 0x20, 0xBC0000FFFFFFFFFF, 0, 0, 0, 0⟩

/-- A row covers no offset past its last register. -/
theorem RegRow.lt_of_covers {r : RegRow} {off : Nat} (h : r.covers off = true) (hs : 0 < r.stride) : off < r.base + r.count * r.stride := by
  simp only [RegRow.covers, Bool.and_eq_true, decide_eq_true_eq] at h
  obtain ⟨-, hlt⟩ := h
  rw [Nat.div_lt_iff_lt_mul hs] at hlt
  omega

/-- No row before that of TP_TG_CTRL reaches its offsets, and that row covers them. -/
theorem regRow_tpTgCtrl (hp : p < 64) : regRow (Reg.tpTgCtrl p) = some tgCtrlRow := by
  have hbefore : ∀ r ∈ regTable.takeWhile (· != tgCtrlRow), 0 < r.stride ∧ r.base + r.count * r.stride ≤ 0x71000 := by decide +kernel
  refine List.find?_eq_some_iff_append.mpr ⟨?_, regTable.takeWhile (· != tgCtrlRow), (regTable.dropWhile (· != tgCtrlRow)).tail,
    by decide +kernel, fun r hr => ?_⟩
  · simp [RegRow.covers, tgCtrlRow, Reg.tpTgCtrl, hp]
  · obtain ⟨hstride, hend⟩ := hbefore r hr
    have hfree : ¬r.covers (Reg.tpTgCtrl p) = true := fun h => by
      have := RegRow.lt_of_covers h hstride
      simp only [Reg.tpTgCtrl] at this
      omega
    simpa using hfree

theorem tpTgCtrl_bounds (hp : p < 64) : 0x71000 ≤ Reg.tpTgCtrl p ∧ Reg.tpTgCtrl p < 0x80000 := by simp only [Reg.tpTgCtrl]; omega

/-- The registers of which a selector picks one. -/
def selectedRegs : List Nat :=
  [Reg.bySel, Reg.byVal, Reg.byArmLo, Reg.byArmHi, Reg.byDisarm, Reg.byArmRes, Reg.bySignal, Reg.cfCtxRing, Reg.cfPrimeQ, Reg.cfPrimePsi,
   Reg.cfPrimeMu, Reg.cfImgCtrl, Reg.atCtx, Reg.atTable, Reg.atCntVal, Reg.byCtxMap, Reg.byCtxStat, Reg.fqCfg, Reg.fqStat, Reg.fqSeq,
   Reg.fqCnt, Reg.lfCbCtrl, Reg.lfCbLevel 0, Reg.lfCbLevel 1, Reg.lfCbLevel 2, Reg.lfCbLevel 3, Reg.qmQring, Reg.qmQbind, Reg.qmQerr,
   Reg.qmQcnt]

/-- Every other register is reached by its offset alone (R528). -/
theorem State.keyOf_of_not_selected (s : State) (port : Port) {off : Nat} (h : off ∉ selectedRegs) : s.keyOf port off = some off := by
  simp only [selectedRegs, List.mem_cons, List.not_mem_nil, or_false, not_or] at h
  simp [State.keyOf, h, rkey]

theorem tpTgCtrl_not_selected (hp : p < 64) : Reg.tpTgCtrl p ∉ selectedRegs := by
  have hout : ∀ j ∈ selectedRegs, ¬(0x71000 ≤ j ∧ j < 0x80000) := by decide
  exact fun h => hout _ h (tpTgCtrl_bounds hp)

theorem State.absentReg_tpTgCtrl (s : State) (hp : p < 64) : s.absentReg (Reg.tpTgCtrl p) = false := by
  have hk := tpTgCtrl_bounds hp
  simp (disch := omega) only [State.absentReg, if_neg]

theorem normOff_tpTgCtrl (hp : p < 64) : normOff (Reg.tpTgCtrl p) = Reg.tpTgCtrl p := by
  have hk := tpTgCtrl_bounds hp
  exact if_neg (by omega)

/-- The state after the RW fields of a write have gone to the control register of a generator. -/
def State.tgWritten (s : State) (p : Nat) (part : Part) (v : Word) : State :=
  s.setReg (Reg.tpTgCtrl p) (merge (s.reg (Reg.tpTgCtrl p)) (partVal part v) (tgCtrlRow.rw &&& partMask part))

/-- A write of TP_TG_CTRL replaces its RW fields (R598). -/
theorem State.writeFields_tpTgCtrl (s : State) (port : Port) (hp : p < 64) (part : Part) (v : Word) :
    s.writeFields port (Reg.tpTgCtrl p) part v = s.tgWritten p part v := by
  have hplain (k : Nat) (m v : Word) : s.writePlain k tgCtrlRow m v = s.setReg k (merge (s.reg k) v (tgCtrlRow.rw &&& m)) := by
    rw [State.writePlain, show tgCtrlRow.w1c = 0#64 from rfl, BitVec.and_zero]
    exact congrArg _ BitVec.and_allOnes
  simp [State.writeFields, normOff_tpTgCtrl hp, regRow_tpTgCtrl hp, s.absentReg_tpTgCtrl hp,
    s.keyOf_of_not_selected port (tpTgCtrl_not_selected hp), hplain, State.tgWritten, State.writeStaged, show tgCtrlRow.st = 0#64 from rfl]

/-- Beside what a write of a TP register does, it leaves a record in the keeper's log, which counts in the keeper's own events (R547). -/
theorem State.tpWrite_is (s : State) (hport : fromCompute port = false) (off : Nat) (f : State → State) :
    ∃ g k n, s.tpWrite port off f = { f s with regs := g, kp := k, free := n } ∧
      ∀ j, Reg.kpEventCnt < j → rget (f s).grade g j = (f s).reg j := by
  rw [State.tpWrite, hport]
  obtain ⟨g, l, x, o, h, -, hreg, -⟩ := (f s).logRec_is 0x0D (originOf port) 0xFFFF off (s.tpValue port off) ((f s).tpValue port off)
    (leBytes 20 (Config.openValue 6 (f s).free))
  exact ⟨g, _, _, h, fun j hj => hreg j (by simp only [Reg.kpEvent, Reg.kpEventCnt] at *; omega) hj.ne'⟩

/-- A write of a TP register does what its effect does to the state at hand. -/
theorem State.tpWrite_congr {off : Nat} {f f' : State → State} (h : f s = f' s) : s.tpWrite port off f = s.tpWrite port off f' := by
  simp only [State.tpWrite, h]

/-! ### TP_TG_RUN -/

/-- The control register of a generator whose RUN is refused: RUN is clear and REFUSED is set (R551). -/
def State.tgRefused (s : State) (p : Nat) (part : Part) (v : Word) : State :=
  (s.tgWritten p part v).setReg (Reg.tpTgCtrl p) (putBit (putBit ((s.tgWritten p part v).reg (Reg.tpTgCtrl p)) 63 false) 62 true)

/-- The registers of a generator whose RUN is set: REFUSED is clear and no address is latched (R551). -/
def State.tgStarted (s : State) (p : Nat) (part : Part) (v : Word) : State :=
  ((s.tgWritten p part v).setReg (Reg.tpTgCtrl p) (putBit ((s.tgWritten p part v).reg (Reg.tpTgCtrl p)) 62 false)).setReg (Reg.tpTgErr p) 0

/-- A generator at the start of its range, with no address latched (R551). -/
def TrafficGen.start : TrafficGen := { next := 0, count := 0, readPass := false, erred := false }

section
variable (hs : tsorted s.regs = true)
include hs

theorem State.tsorted_tgWritten : tsorted (s.tgWritten p part v).regs = true := State.tsorted_setReg hs ..

theorem State.tgRefused_ctrl : bit ((s.tgRefused p part v).reg (Reg.tpTgCtrl p)) 63 = false ∧
    bit ((s.tgRefused p part v).reg (Reg.tpTgCtrl p)) 62 = true := by
  rw [State.tgRefused, State.reg_setReg (State.tsorted_tgWritten hs), if_pos rfl]
  simp [bit_putBit]

theorem State.tgStarted_err : (s.tgStarted p part v).reg (Reg.tpTgErr p) = 0 := by
  rw [State.tgStarted, State.reg_setReg (State.tsorted_setReg (State.tsorted_tgWritten hs) ..), if_pos rfl]

theorem State.tgStarted_ctrl (hm : bit (partMask part) 63 = true) (hv : bit (partVal part v) 63 = true) :
    bit ((s.tgStarted p part v).reg (Reg.tpTgCtrl p)) 63 = true ∧ bit ((s.tgStarted p part v).reg (Reg.tpTgCtrl p)) 62 = false := by
  have hw : bit ((s.tgWritten p part v).reg (Reg.tpTgCtrl p)) 63 = true := by
    rw [State.tgWritten, State.reg_setReg hs, if_pos rfl, bit_merge (by decide), bit_and, hm, hv]
    rfl
  rw [State.tgStarted, State.reg_setReg_ne _ _ (by simp [Reg.tpTgCtrl, Reg.tpTgErr]),
    State.reg_setReg (State.tsorted_tgWritten hs), if_pos rfl]
  simp [bit_putBit, hw]

end

section
variable (hport : fromCompute port = false) (hp : p < 64) (hm : bit (partMask part) 63 = true) (hv : bit (partVal part v) 63 = true)
include hport hp hm hv

/-- RUN is refused while a tenant queue exists (R551). -/
theorem State.tgWrite_of_tenants (ht : s.tenants = true) :
    ∃ g k n, s.tgWrite port p part v = { s with regs := g, kp := k, free := n } ∧
      ∀ j, Reg.kpEventCnt < j → rget s.grade g j = (s.tgRefused p part v).reg j := by
  have ht' : (s.tgWritten p part v).tenants = true := ht
  obtain ⟨g, k, n, h, hreg⟩ := s.tpWrite_is hport (Reg.tpTgCtrl p) (State.tgRefused · p part v)
  refine ⟨g, k, n, ?_, hreg⟩
  rw [State.tgWrite, if_neg (Nat.not_le.mpr hp)]
  refine (State.tpWrite_congr ?_).trans h
  simp only [s.writeFields_tpTgCtrl port hp part v, hm, hv, ht', Bool.not_true, Bool.false_eq_true, if_false, if_true]
  rfl

/-- While no tenant queue exists RUN is set, and a generator that did not run starts anew (R551). -/
theorem State.tgWrite_of_no_tenants (ht : s.tenants = false) (hrun : bit (s.reg (Reg.tpTgCtrl p)) 63 = false) :
    ∃ g k n, s.tgWrite port p part v =
        { s with regs := g, kp := k, free := n, sup := { s.sup with tg := tput s.sup.tg p TrafficGen.start } } ∧
      ∀ j, Reg.kpEventCnt < j → rget s.grade g j = (s.tgStarted p part v).reg j := by
  have ht' : (s.tgWritten p part v).tenants = false := ht
  obtain ⟨g, k, n, h, hreg⟩ := s.tpWrite_is hport (Reg.tpTgCtrl p) fun s =>
    { s.tgStarted p part v with sup := { s.sup with tg := tput s.sup.tg p TrafficGen.start } }
  refine ⟨g, k, n, ?_, hreg⟩
  rw [State.tgWrite, if_neg (Nat.not_le.mpr hp)]
  refine (State.tpWrite_congr ?_).trans h
  simp only [s.writeFields_tpTgCtrl port hp part v, hm, hv, ht', hrun, Bool.not_true, Bool.false_eq_true, if_false]
  rfl

end

theorem kpEventCnt_lt_tpTgCtrl (hp : p < 64) : Reg.kpEventCnt < Reg.tpTgCtrl p := by simp only [Reg.kpEventCnt, Reg.tpTgCtrl]; omega
theorem kpEventCnt_lt_tpTgErr (hp : p < 64) : Reg.kpEventCnt < Reg.tpTgErr p := by simp only [Reg.kpEventCnt, Reg.tpTgErr]; omega

/-! ### CREATE_QUEUE beside a generator -/

/-- The check of a field comes before the checks that follow it. -/
theorem needRange_or (ok : Bool) (off v : Nat) (a b : Option AdminStop) : needRange ok off v (a.or b) = (needRange ok off v a).or b := by
  cases ok <;> rfl

theorem State.createRange_or (s : State) (e : Bytes) (rest : Option AdminStop) : s.createRange e rest = (s.createRange e none).or rest := by
  simp only [State.createRange, ← needRange_or, Option.none_or]

/-- No CREATE_QUEUE passes its checks while a generator runs (R551). -/
theorem State.createCheck_ne_none (hrun : s.tgRuns = true) (e : Bytes) : s.createCheck e ≠ none := by
  have hlast (x : AdminStop) : s.createRange e (some x) ≠ none := by
    rw [State.createRange_or]
    cases s.createRange e none with
    | none => exact Option.some_ne_none _
    | some y => exact Option.some_ne_none _
  unfold State.createCheck
  split
  · exact Option.some_ne_none _
  · split_ifs
    iterate 4 exact Option.some_ne_none _
    all_goals exact hlast _

/-- A CREATE_QUEUE whose fields and context are in order is refused with the queue's field while a generator runs (R551). -/
theorem State.createCheck_of_tgRuns {e : Bytes} (hrun : s.tgRuns = true) (hg : s.adminGate e (fun x => x.state == .absent) = none)
    (h1 : leAt e 32 8 % 128 = 0) (h2 : leAt e 40 8 % 64 = 0) (h3 : leAt e 48 8 % 256 = 0) (h4 : s.hasGroup (leAt e 20 1) = true)
    (h5 : s.createRange e none = none) (h6 : bit (s.act (rkey Reg.cfCtxRing (leAt e 18 2))) 15 = true) :
    s.createCheck e = some (0x13, fieldWord 16) := by
  rw [State.createCheck, hg, State.createRange_or, h5]
  simp [h1, h2, h3, h4, h6, hrun]

/-- CREATE_QUEUE at the head of the list, when its checks stop it: its record is written and nothing else is done. -/
theorem exec_createQueue_of_stop {c : AdminCmd} {rest : List AdminCmd} {st : Nat} {w : Word} (hi : s.issuing = true)
    (hc : s.admin.cmds = c :: rest) (hb : c.begun = false)
    (hr : s.reqs.any (fun r => match r.owner with | .rcd d _ => d == 0 | _ => false) = false)
    (hop : leAt c.entry 0 1 = 0x40) (hstop : s.createCheck c.entry = some (st, w)) :
    exec .createQueue s = .next { State.pump (State.pumpReplays (s.adminRecord c st w)) with pending := s.pending } := by
  rw [exec_createQueue, execCreateQueue, whenIssuing_acts hi, State.adminRun, hc]
  dsimp only
  rw [if_pos ⟨hop, by simp [hb], congrArg (!·) hr⟩, hstop]

/-! ### TG_CYCLE -/

/-- A request that is added comes last, under the next identity. -/
theorem State.addReq_is (s : State) (r : MemReq) : ∃ held, s.addReq r =
    { s with reqs := s.reqs ++ [{ r with id := s.ids, held := held }], ids := s.ids + 1 } := ⟨_, rfl⟩

/-- The request of a generator: 128 bytes, and under a write the pattern (R552, R553). -/
def tgRequest (ctrl : Word) (g : TrafficGen) (p : Nat) (dest : Dest) (a : Nat) : MemReq :=
  mkReq dest a 128 (if tgReads ctrl g then .read else .write) (.tg p) 0 0 0xFFFF none false
    (if tgReads ctrl g then [] else tgData a (fld ctrl 31 0)) (List.replicate 128 true)

theorem State.tgStep_of_not_running (h : bit (s.reg (Reg.tpTgCtrl p)) 63 = false) : s.tgStep p = s := by simp [State.tgStep, h]

/-- A running generator with a next address and room at its port issues one request there; beside its own position, only the end of its read
pass under OP 3 changes anything, its RUN bit (R552). -/
theorem State.tgStep_issues {g : TrafficGen} {o : Nat} {last : Bool} {dest : Dest} (hrun : bit (s.reg (Reg.tpTgCtrl p)) 63 = true)
    (hg : tget s.sup.tg p = some g) (hn : s.tgNext p g = some (o, last)) (hd : s.routePa (s.tgRange.1 + o) = some dest)
    (hroom : (s.reqs.filter (fun r => r.dest == dest)).length < 256) :
    ∃ f g', s.tgStep p = { s.addReq (tgRequest (s.reg (Reg.tpTgCtrl p)) g p dest (s.tgRange.1 + o)) with
        regs := f, sup := { s.sup with tg := tput s.sup.tg p g' } } ∧
      (fld (s.reg (Reg.tpTgCtrl p)) 61 60 ≠ 3 → f = s.regs) := by
  unfold State.tgStep
  simp only [hrun, hg, hn, hd, Nat.not_le.mpr hroom, if_false]
  split
  next h => exact ⟨_, _, rfl, fun h3 => by simp [h3] at h⟩
  · exact ⟨_, _, rfl, fun _ => rfl⟩

/-! ### Answers to a generator -/

/-- A wrapping count that advances (R606). -/
theorem State.regFld_bump (hs : tsorted s.regs = true) {k hi lo : Nat} (h : hi < 64) :
    (s.bump k hi lo).regFld k hi lo = (s.regFld k hi lo + 1) % 2 ^ (hi + 1 - lo) := by
  rw [State.regFld, State.bump, State.reg_setFld hs, if_pos rfl, fld_putFld h]

theorem State.regFld_bump_ne (hs : tsorted s.regs = true) {k hi lo hi' lo' : Nat} (h : hi' < 64) (hd : hi' < lo ∨ hi < lo') :
    (s.bump k hi lo).regFld k hi' lo' = s.regFld k hi' lo' := by
  rw [State.regFld, State.bump, State.reg_setFld hs, if_pos rfl, fld_putFld_ne h hd]
  rfl

/-- A saturating count that advances (R606). -/
theorem State.regFld_bumpSat (hs : tsorted s.regs = true) {k hi lo : Nat} (h : hi < 64) :
    (s.bumpSat k hi lo).regFld k hi lo = min (s.regFld k hi lo + 1) (2 ^ (hi + 1 - lo) - 1) := by
  rw [State.regFld, State.bumpSat, State.reg_setFld hs, if_pos rfl, fld_putFld h]
  exact Nat.mod_eq_of_lt ((min_le_right ..).trans_lt (Nat.sub_one_lt (Nat.two_pow_pos _).ne'))

theorem State.regFld_bumpSat_ne (hs : tsorted s.regs = true) {k hi lo hi' lo' : Nat} (h : hi' < 64) (hd : hi' < lo ∨ hi < lo') :
    (s.bumpSat k hi lo).regFld k hi' lo' = s.regFld k hi' lo' := by
  rw [State.regFld, State.bumpSat, State.reg_setFld hs, if_pos rfl, fld_putFld_ne h hd]
  rfl

theorem State.reg_bump_ne {j k : Nat} (hi lo n : Nat) (h : j ≠ k) : (s.bump k hi lo n).reg j = s.reg j := s.reg_setFld_ne _ _ _ h
theorem State.reg_bumpSat_ne {j k : Nat} (hi lo n : Nat) (h : j ≠ k) : (s.bumpSat k hi lo n).reg j = s.reg j := s.reg_setFld_ne _ _ _ h

/-- Whether an answer to a generator is a mismatch: a poisoned read, or one that differs from the pattern under the generator's seed (R553). -/
def State.tgMismatch (s : State) (p : Nat) (r : MemReq) (data : Bytes) (poison : Bool) : Bool :=
  r.kind == .read && (poison || fitTo 128 data != tgData r.pa (s.regFld (Reg.tpTgCtrl p) 31 0))

/-- The counts of a generator after a mismatch (R553). -/
def State.tgCounted (s : State) (p : Nat) : State := (s.bump (Reg.tpTgStat p) 47 0).bumpSat (Reg.tpTgStat p) 63 48

/-- An answer that matches counts alone, as does a mismatch after the first one; the first one latches its address (R553). -/
theorem State.tgDone_eq {g : TrafficGen} (hg : tget s.sup.tg p = some g) (r : MemReq) (data : Bytes) (poison : Bool) :
    s.tgDone p r data poison =
      if s.tgMismatch p r data poison then
        if g.erred then s.tgCounted p
        else { (s.tgCounted p).setReg (Reg.tpTgErr p) (word r.pa) with sup := { s.sup with tg := tput s.sup.tg p { g with erred := true } } }
      else s.bump (Reg.tpTgStat p) 47 0 := by
  have hseed : (s.bump (Reg.tpTgStat p) 47 0).regFld (Reg.tpTgCtrl p) 31 0 = s.regFld (Reg.tpTgCtrl p) 31 0 :=
    congrArg (fld · 31 0) (State.reg_bump_ne _ _ _ (by simp [Reg.tpTgCtrl, Reg.tpTgStat]))
  have hg' : tget (s.tgCounted p).sup.tg p = some g := hg
  unfold State.tgDone
  dsimp only
  rw [hseed, ← State.tgMismatch, ← State.tgCounted, hg']
  rfl

theorem State.tgCounted_fields (hs : tsorted s.regs = true) :
    (s.tgCounted p).regFld (Reg.tpTgStat p) 47 0 = (s.regFld (Reg.tpTgStat p) 47 0 + 1) % 2 ^ 48 ∧
    (s.tgCounted p).regFld (Reg.tpTgStat p) 63 48 = min (s.regFld (Reg.tpTgStat p) 63 48 + 1) 0xFFFF ∧
    (s.tgCounted p).reg (Reg.tpTgErr p) = s.reg (Reg.tpTgErr p) := by
  have hb := State.tsorted_bump hs (Reg.tpTgStat p) 47 0 1
  have hne : Reg.tpTgErr p ≠ Reg.tpTgStat p := by simp [Reg.tpTgErr, Reg.tpTgStat]
  refine ⟨?_, ?_, ?_⟩
  · rw [State.tgCounted, State.regFld_bumpSat_ne hb (by decide) (by decide), State.regFld_bump hs (by decide)]
  · rw [State.tgCounted, State.regFld_bumpSat hb (by decide), State.regFld_bump_ne hs (by decide) (by decide)]
    rfl
  · rw [State.tgCounted, State.reg_bumpSat_ne _ _ _ hne, State.reg_bump_ne _ _ _ hne]

theorem State.tsorted_tgCounted (hs : tsorted s.regs = true) : tsorted (s.tgCounted p).regs = true :=
  State.tsorted_setReg (State.tsorted_setReg hs ..) ..

/-- What an answer to a generator leaves in `u` of the registers of `s`: it counts, and a mismatch counts and latches its address if none is
latched yet (R553). -/
structure TgAnswered (s u : State) (p : Nat) (g : TrafficGen) (pa : Nat) (wrong : Bool) : Prop where
  requests : u.regFld (Reg.tpTgStat p) 47 0 = (s.regFld (Reg.tpTgStat p) 47 0 + 1) % 2 ^ 48
  mismatches : u.regFld (Reg.tpTgStat p) 63 48 =
    if wrong then min (s.regFld (Reg.tpTgStat p) 63 48 + 1) 0xFFFF else s.regFld (Reg.tpTgStat p) 63 48
  latches : wrong = true → g.erred = false → u.reg (Reg.tpTgErr p) = word pa
  keeps : wrong = false ∨ g.erred = true → u.reg (Reg.tpTgErr p) = s.reg (Reg.tpTgErr p)

/-- It is the registers of the generator alone that tell what an answer leaves. -/
theorem TgAnswered.of_reg {t u : State} {g : TrafficGen} {pa : Nat} {wrong : Bool} (h : TgAnswered t u p g pa wrong)
    (hstat : t.reg (Reg.tpTgStat p) = s.reg (Reg.tpTgStat p)) (herr : t.reg (Reg.tpTgErr p) = s.reg (Reg.tpTgErr p)) :
    TgAnswered s u p g pa wrong := by
  obtain ⟨hreq, hmis, hlatch, hkeep⟩ := h
  rw [State.regFld, State.regFld, hstat] at hreq
  simp only [State.regFld, hstat] at hmis
  exact ⟨hreq, hmis, hlatch, fun hw => (hkeep hw).trans herr⟩

section
variable {g : TrafficGen} (hg : tget s.sup.tg p = some g)
include hg

theorem State.tgDone_reqs (r : MemReq) (data : Bytes) (poison : Bool) : (s.tgDone p r data poison).reqs = s.reqs := by
  rw [State.tgDone_eq hg]
  split_ifs <;> rfl

theorem State.tgDone_answers (hs : tsorted s.regs = true) (r : MemReq) (data : Bytes) (poison : Bool) :
    TgAnswered s (s.tgDone p r data poison) p g r.pa (s.tgMismatch p r data poison) := by
  obtain ⟨hcount, hmis, herr⟩ := State.tgCounted_fields (p := p) hs
  have hne : Reg.tpTgStat p ≠ Reg.tpTgErr p := by simp [Reg.tpTgErr, Reg.tpTgStat]
  rw [State.tgDone_eq hg]
  cases hw : s.tgMismatch p r data poison with
  | false =>
    exact ⟨State.regFld_bump hs (by decide), State.regFld_bump_ne hs (by decide) (by decide), nofun,
      fun _ => State.reg_bump_ne _ _ _ hne.symm⟩
  | true =>
    rw [if_pos rfl]
    split
    next he => exact ⟨hcount, hmis, fun _ hf => absurd (he.symm.trans hf) (by decide), fun _ => herr⟩
    next he =>
      have hstat := (s.tgCounted p).reg_setReg_ne (word r.pa) hne
      refine ⟨(congrArg (fld · 47 0) hstat).trans hcount, (congrArg (fld · 63 48) hstat).trans hmis, fun _ _ => ?_, by simp [he]⟩
      exact (State.reg_setReg (State.tsorted_tgCounted hs) ..).trans (if_pos rfl)

end

/-! ### Errors of an access -/

/-- An injection that is not armed leaves every access as it is (R549). -/
theorem State.inject_of_not_armed (h : bit (s.reg Reg.tpInj) 63 = false) (store unit : Nat) (ctx : Option Nat) :
    s.inject store unit ctx = (s, .clean) := by
  simp [State.inject, h]

/-- The counts of HM_ECC and HM_EVENT after an uncorrectable error of a store (R529, R533). -/
def State.countedUe (s : State) (store unit : Nat) : State :=
  ((s.setFld (Reg.hmEcc store) 63 48 unit).bump (Reg.hmEcc store) 47 32).evHm 0

theorem State.countEcc_eq (s : State) (store unit : Nat) :
    s.countEcc store unit true = (s.countedUe store unit).limitCheck store unit true := rfl

theorem State.tsorted_countedUe (hs : tsorted s.regs = true) (store unit : Nat) : tsorted (s.countedUe store unit).regs = true :=
  State.tsorted_event (State.tsorted_bump (State.tsorted_setFld hs ..) ..) ..

theorem State.reg_countedUe_ne {store j : Nat} (unit : Nat) (h1 : j ≠ Reg.hmEcc store) (h2 : j ≠ Reg.hmEvent) (h3 : j ≠ Reg.hmEventCnt) :
    (s.countedUe store unit).reg j = s.reg j :=
  (State.reg_event_ne _ h2 h3).trans ((State.reg_bump_ne _ _ _ h1).trans (State.reg_setFld_ne _ _ _ _ h1))

/-- An uncorrectable error under no limit of them only counts in the window of HM_CFG (R536). -/
theorem State.limitCheck_of_no_limit (h : fld (s.act Reg.hmCfg) 31 24 = 0) (store unit : Nat) :
    ∃ w, s.limitCheck store unit true = { s with sup := { s.sup with ueWin := w } } := by
  unfold State.limitCheck
  split
  · exact ⟨s.sup.ueWin, rfl⟩
  · dsimp only
    rw [if_pos rfl, if_neg (fun hc => hc.1 h)]
    exact ⟨_, rfl⟩

/-- An uncorrectable error of a store, under no limit of them: beside HM_ECC, HM_EVENT and the window of HM_CFG nothing changes. -/
theorem State.countEcc_is (h : fld (s.act Reg.hmCfg) 31 24 = 0) (store unit : Nat) :
    ∃ f w, s.countEcc store unit true = { s with regs := f, sup := { s.sup with ueWin := w } } ∧
      (tsorted s.regs = true → tsorted f = true) ∧
      ∀ j, j ≠ Reg.hmEcc store → j ≠ Reg.hmEvent → j ≠ Reg.hmEventCnt → rget s.grade f j = s.reg j := by
  have hsort (hs : tsorted s.regs = true) := State.tsorted_countedUe hs store unit
  have hreg (j : Nat) := s.reg_countedUe_ne (store := store) (j := j) unit
  obtain ⟨f, hf⟩ : ∃ f, s.countedUe store unit = { s with regs := f } := ⟨_, rfl⟩
  rw [hf] at hsort hreg
  obtain ⟨w, hw⟩ := State.limitCheck_of_no_limit (s := { s with regs := f }) h store unit
  exact ⟨f, w, by rw [State.countEcc_eq, hf, hw], hsort, hreg⟩

section
variable (harm : bit (s.reg Reg.tpInj) 63 = false) (hlim : fld (s.act Reg.hmCfg) 31 24 = 0)
include harm hlim

/-- The store check of a port's answer adds nothing to what the memory reports; an uncorrectable error counts (R529, R531). -/
theorem State.portEcc_is (r : MemReq) (poison : Bool) :
    ∃ f w, s.portEcc r poison false = ({ s with regs := f, sup := { s.sup with ueWin := w } }, poison, false) ∧
      (tsorted s.regs = true → tsorted f = true) ∧ ∀ j, Reg.tpLock ≤ j → rget s.grade f j = s.reg j := by
  unfold State.portEcc
  split
  next q hq =>
    rw [State.inject_of_not_armed harm]
    cases poison with
    | false => exact ⟨s.regs, s.sup.ueWin, rfl, id, fun _ _ => rfl⟩
    | true =>
      obtain ⟨f, w, h, hs, hreg⟩ := State.countEcc_is hlim 10 q
      refine ⟨f, w, ?_, hs, fun j hj => hreg j ?_ ?_ ?_⟩
      · simp [h]
      all_goals simp only [Reg.tpLock, Reg.hmEcc, Reg.hmEvent, Reg.hmEventCnt] at *; omega
  · exact ⟨s.regs, s.sup.ueWin, rfl, id, fun _ _ => rfl⟩

/-- A read of a generator that has returned leaves the outstanding accesses and is compared, in a state that agrees with the one at hand in what
is the generator's; a poisoned read is not issued again. -/
theorem State.memRead_of_tg {r : MemReq} (hown : r.owner = .tg p) (data : Bytes) (poison : Bool) :
    ∃ t : State, s.memRead r data poison false = t.tgDone p r data poison ∧ t.reqs = (s.dropReq r.id).reqs ∧ t.sup.tg = s.sup.tg ∧
      (tsorted s.regs = true → tsorted t.regs = true) ∧ ∀ j, Reg.tpLock ≤ j → t.reg j = s.reg j := by
  obtain ⟨f, w, h, hsort, hreg⟩ := State.portEcc_is harm hlim r poison
  refine ⟨({ s with regs := f, sup := { s.sup with ueWin := w } } : State).dropReq r.id, ?_, rfl, rfl, hsort, hreg⟩
  simp [State.memRead, h, hown]

/-- A read of a generator that returns is off the outstanding accesses, and it is answered against the pattern at its address (R553). -/
theorem State.memRead_answers_tg (hs : tsorted s.regs = true) {g : TrafficGen} (hg : tget s.sup.tg p = some g) {r : MemReq}
    (hown : r.owner = .tg p) (data : Bytes) (poison : Bool) :
    (s.memRead r data poison false).reqs = (s.dropReq r.id).reqs ∧
      TgAnswered s (s.memRead r data poison false) p g r.pa (s.tgMismatch p r data poison) := by
  obtain ⟨t, h, hreqs, htg, hsort, hreg⟩ := State.memRead_of_tg harm hlim hown data poison
  have hctrl := hreg (Reg.tpTgCtrl p) (by simp only [Reg.tpLock, Reg.tpTgCtrl]; omega)
  have hstat := hreg (Reg.tpTgStat p) (by simp only [Reg.tpLock, Reg.tpTgStat]; omega)
  have herr := hreg (Reg.tpTgErr p) (by simp only [Reg.tpLock, Reg.tpTgErr]; omega)
  have hmis : t.tgMismatch p r data poison = s.tgMismatch p r data poison := by
    simp only [State.tgMismatch, State.regFld, hctrl]
  rw [← htg] at hg
  rw [h, ← hmis]
  exact ⟨(State.tgDone_reqs hg ..).trans hreqs, (State.tgDone_answers hg (hsort hs) r data poison).of_reg hstat herr⟩

end

/-- MEMORY_READ_RESPONSE to a read of a generator outside the window that is next in turn. -/
theorem exec_memoryReadResponse_of_tg {r : MemReq} {i : Nat} {data : Bytes} {poison ce : Bool} (hn : s.normal = true)
    (hi : s.req i = some r) (hown : r.owner = .tg p) (hbank : r.toBank = false) (hheld : r.held = false) (hturn : s.inTurn r = true)
    (hk : r.kind = .read) :
    exec (.memoryReadResponse i data poison ce) s = .next { State.wakeReady (State.pump (State.settleCores (State.pumpReplays
      ((s.passOn r).memRead r data poison ce)))) with pending := s.pending } := by
  have hplain : r.plainRead = true := by simp [MemReq.plainRead, hk, hbank, hheld, hown]
  rw [exec_memoryReadResponse, execMemoryReadResponse, whenServing_acts (serving_of_normal hn), hi]
  simp [hplain, hturn]

/-- MEMORY_WRITE_ACK to a write of a generator outside the window, not posted, that is next in turn. -/
theorem exec_memoryWriteAck_of_tg {r : MemReq} {i : Nat} (hn : s.normal = true) (hi : s.req i = some r) (hown : r.owner = .tg p)
    (hbank : r.toBank = false) (hheld : r.held = false) (hturn : s.inTurn r = true) (hk : r.kind = .write) (hpost : r.posted = false) :
    exec (.memoryWriteAck i) s =
      .next { State.pump (State.pumpReplays (((s.passOn r).dropReq r.id).tgDone p r [] false)) with pending := s.pending } := by
  rw [exec_memoryWriteAck, execMemoryWriteAck, whenServing_acts (serving_of_normal hn), hi]
  simp [hk, hbank, hheld, hturn, hpost, State.writeDone, hown]

end

/-! ### The statements -/

/-- Settles O28: RUN under and without tenant queues, CREATE_QUEUE beside a running generator, and the request of a cycle. -/
theorem generatorsRunWithoutTenants : Obligations.GeneratorsRunWithoutTenants := by
  unfold Obligations.GeneratorsRunWithoutTenants
  refine ⟨fun s port p part v hn hport hp hm hv hs => ?_, fun s c rest hi hc hb hr hop hrun => ?_, fun s p hi => ?_⟩
  · have hctrl := kpEventCnt_lt_tpTgCtrl hp
    rw [exec_tpTgRun, execTpTgRun, whenNormal_acts hn]
    refine ⟨fun ht => ⟨_, rfl, ?_⟩, fun ht hrun => ⟨_, rfl, ?_⟩⟩
    · obtain ⟨g, k, n, h, hreg⟩ := State.tgWrite_of_tenants hport hp hm hv ht
      obtain ⟨hr, hf⟩ := State.tgRefused_ctrl (p := p) (part := part) (v := v) hs
      rw [← hreg _ hctrl] at hr hf
      rw [h]
      exact ⟨rfl, hr, hf, rfl, rfl⟩
    · obtain ⟨g, k, n, h, hreg⟩ := State.tgWrite_of_no_tenants hport hp hm hv ht hrun
      obtain ⟨hr, hf⟩ := State.tgStarted_ctrl (p := p) hs hm hv
      rw [← hreg _ hctrl] at hr hf
      rw [h]
      exact ⟨rfl, hr, hf, (hreg _ (kpEventCnt_lt_tpTgErr hp)).trans (State.tgStarted_err hs), rfl, rfl⟩
  · refine ⟨State.createCheck_ne_none hrun _, fun hg h1 h2 h3 h4 h5 h6 => ?_⟩
    exact exec_createQueue_of_stop hi hc hb hr hop (State.createCheck_of_tgRuns hrun hg h1 h2 h3 h4 h5 h6)
  · rw [exec_tgCycle, execTgCycle, whenIssuing_acts hi]
    refine ⟨fun hrun => by rw [State.tgStep_of_not_running hrun], fun g o last dest hrun hop hg hn hd hroom => ?_⟩
    obtain ⟨f, g', h, hf⟩ := State.tgStep_issues hrun hg hn hd hroom
    obtain ⟨held, hadd⟩ := s.addReq_is (tgRequest (s.reg (Reg.tpTgCtrl p)) g p dest (s.tgRange.1 + o))
    obtain rfl := hf (by omega)
    rw [h, hadd]
    refine ⟨_, _, rfl, rfl, rfl, rfl, rfl, rfl, fun h0 => ?_, fun h1 => ⟨?_, ?_⟩⟩
    · simp [tgRequest, mkReq, tgReads, h0]
    · simp [tgRequest, mkReq, tgReads, h1]
    · simp [tgRequest, mkReq, tgReads, h1]

/-- Settles O29: the pattern in machine words, the data of a write request, and the answers to reads and writes. -/
theorem generatorPatternIsTgWord : Obligations.GeneratorPatternIsTgWord := by
  unfold Obligations.GeneratorPatternIsTgWord
  refine ⟨fun a seed i _ hi => (wordAt_tgData a seed.toNat hi).trans (ofNat_tgWord _ seed),
    fun s p g o last dest hi hrun hw hg hn hd hroom => ?_,
    fun s i p r g hn hr hown hp hbank hheld hturn harm hlim hs hg => ?_⟩
  · obtain ⟨f, g', h, -⟩ := State.tgStep_issues hrun hg hn hd hroom
    obtain ⟨held, hadd⟩ := s.addReq_is (tgRequest (s.reg (Reg.tpTgCtrl p)) g p dest (s.tgRange.1 + o))
    rw [exec_tgCycle, execTgCycle, whenIssuing_acts hi, h, hadd]
    exact ⟨_, _, rfl, rfl, by simp [tgRequest, mkReq, hw], by simp [tgRequest, mkReq, hw]⟩
  · obtain ⟨l, d, hpass⟩ := s.passOn_is r
    refine ⟨fun data poison hk => ⟨_, exec_memoryReadResponse_of_tg hn hr hown hbank hheld hturn hk, ?_⟩,
      fun hk hpost => ⟨_, exec_memoryWriteAck_of_tg hn hr hown hbank hheld hturn hk hpost, ?_⟩⟩
    · rw [hpass]
      obtain ⟨hreqs, hreq, hmis, hlatch, hkeep⟩ :=
        State.memRead_answers_tg (s := { s with reqs := l, drr := d }) harm hlim hs hg hown data poison
      rw [State.tgMismatch, hk, beq_self_eq_true, Bool.true_and] at hmis hlatch hkeep
      exact ⟨hreqs, hreq, hmis, hlatch, hkeep⟩
    · rw [hpass]
      obtain ⟨hreq, hmis, -, -⟩ := State.tgDone_answers (s := ({ s with reqs := l, drr := d } : State).dropReq r.id) hg hs r [] false
      rw [State.tgMismatch, hk] at hmis
      exact ⟨hreq, hmis⟩

end Sys2Proof.Machine
end

section
/-! PROOFS. What every operation of the block keeps: the die, the canonical forms of the sparse data and the rising identities of the
descriptors. One lemma for each operation that gives a next state, in the order of the model. -/

namespace Sys2Proof.Machine

/-- What an operation keeps, whatever the state: the die, the canonical forms and the rising identities, and, of a calm operation, the
state of reset and the mode of the keeper. -/
structure Keeps (calm : Bool) (s t : State) : Prop where
  rst : calm = true → t.rst = s.rst
  mode : calm = true → t.kp.mode = s.kp.mode
  die : t.die = s.die
  canonical : s.canonical = true → t.canonical = true
  idsRise : s.idsRise = true → t.idsRise = true

/-- The fields of the state that `Keeps` speaks of. -/
def State.core (s : State) :
    ResetState × KpMode × Die × RegFile × Config × Tab Image × Tab Buoy × Tab Queue × List Host.Cell × List Desc × Nat :=
  (s.rst, s.kp.mode, s.die, s.regs, s.cfg, s.images, s.sync.buoys, s.queues, s.win.ram, s.descs, s.ids)

/-- Every set of the configuration lists its registers in rising order. -/
def Config.sorted (c : Config) : Prop :=
  tsorted c.shadow = true ∧ tsorted c.pending = true ∧ tsorted c.active = true ∧ tsorted c.old = true

/-- The words of every image are in rising order. -/
def imagesSorted (l : Tab Image) : Prop := ∀ p ∈ l, tsorted p.2.words = true

theorem State.canonical_iff {s : State} : s.canonical = true ↔ Memory.wf s.win.ram = true ∧ tsorted s.regs = true ∧ s.cfg.sorted ∧
    imagesSorted s.images ∧ tsorted s.sync.buoys = true ∧ tsorted s.queues = true := by
  simp only [State.canonical, Config.sorted, imagesSorted, Bool.and_eq_true, List.all_eq_true, and_assoc]

/-! ### Rising identities -/
theorem tsorted_iff {α : Type} {l : List (Nat × α)} : tsorted l = true ↔ l.Pairwise (fun a b => a.1 < b.1) := by
  induction l with
  | nil => simp [tsorted]
  | cons p l ih => rw [tsorted_cons, List.pairwise_cons, ih]

theorem State.idsRise_iff {s : State} :
    s.idsRise = true ↔ (s.descs.map Desc.id).Pairwise (· < ·) ∧ ∀ d ∈ s.descs, d.id < s.ids := by
  simp [State.idsRise, tsorted_iff, List.pairwise_append, List.pairwise_map]

section
variable {calm : Bool} {s t u : State}

theorem Keeps.refl (s : State) : Keeps calm s s := ⟨fun _ => rfl, fun _ => rfl, rfl, id, id⟩

theorem Keeps.trans (h : Keeps calm s t) (k : Keeps calm t u) : Keeps calm s u :=
  ⟨fun c => (k.rst c).trans (h.rst c), fun c => (k.mode c).trans (h.mode c), k.die.trans h.die, k.canonical ∘ h.canonical, k.idsRise ∘ h.idsRise⟩

/-- What changes none of the fields that `Keeps` speaks of. -/
theorem Keeps.frame (hk : Keeps calm s t) (h : u.core = t.core) : Keeps calm s u := by
  simp only [State.core, Prod.mk.injEq] at h
  obtain ⟨hrst, hm, hd, hr, hc, hi, hb, hq, hw, hds, hn⟩ := h
  refine hk.trans ⟨fun _ => hrst, fun _ => hm, hd, fun h => ?_, fun h => ?_⟩
  · simpa only [State.canonical, hr, hc, hi, hb, hq, hw] using h
  · simpa only [State.idsRise, hds, hn] using h

/-- A change of any of the fields that `Keeps` does not speak of; of the keeper, all but the mode. -/
theorem Keeps.rest (hk : Keeps calm s t)
    {reason source bootUs epoch : Nat} {stage : BootStage} {slots : List SlotEntry} {sectors : Bytes} {maxSeq : Nat} {job : SecJob}
    {epochJob : Option EpochJob} {refClock startup : Bool} {nor : NorInfo} {worst : Nat} {ceilings : List Nat} {list cached : Bytes}
    {cachedSlot : Nat} {locks : List (Nat × Nat)} {log : List LogRec} {nextSeq overwritten : Nat} {fatal : Option (Nat × Nat)}
    {dump : Bytes} {dumpValid : Bool} {dumpReason dumpEpoch dumps : Nat}
    {pending : List Instr} {free : Nat} {out : List Out} {commit : Commit}
    {admin : Admin} {qmParked : List QmReq} {fetchOrder : List Nat} {qmResults : Tab (List (Nat × WalkResult))} {reqs : List MemReq}
    {xl : Translation} {cps : Tab CPort} {fab : Fabric} {sup : Support} {tap : Tap} {drr : Tab Drr} {claimants : Tab (List Claimant)}
    {watches : Tab Watch} {gens : Tab Nat} {fqs : Tab FlashQ} {held : Tab (List HeldSignal)} {bad : List Nat} {pairs : Tab Pair}
    {scrub : Tab Nat} {rmws : Tab (Nat × Nat)} :
    Keeps calm s { t with
      pending := pending, free := free, out := out, commit := commit, admin := admin, qmParked := qmParked,
      fetchOrder := fetchOrder, qmResults := qmResults, reqs := reqs, xl := xl, cps := cps, fab := fab, sup := sup, tap := tap, drr := drr,
      sync := { t.sync with claimants := claimants, watches := watches, gens := gens, fqs := fqs, held := held },
      win := { t.win with bad := bad, pairs := pairs, scrub := scrub, rmws := rmws },
      kp := { t.kp with
        reason := reason, source := source, bootUs := bootUs, epoch := epoch, stage := stage, slots := slots, sectors := sectors,
        maxSeq := maxSeq, job := job, epochJob := epochJob, refClock := refClock, startup := startup, nor := nor, worst := worst,
        ceilings := ceilings, list := list, cached := cached, cachedSlot := cachedSlot, locks := locks, log := log,
        nextSeq := nextSeq, overwritten := overwritten, fatal := fatal, dump := dump, dumpValid := dumpValid,
        dumpReason := dumpReason, dumpEpoch := dumpEpoch, dumps := dumps } } :=
  hk.frame rfl

/-- A change of the state of reset and of the mode as well, which is not calm. -/
theorem Keeps.restart (hk : Keeps false s t) {pending : List Instr} {free : Nat} {out : List Out} {rst : ResetState} {kp : Keeper}
    {qmParked : List QmReq} {fetchOrder : List Nat} {qmResults : Tab (List (Nat × WalkResult))} :
    Keeps false s { t with pending := pending, free := free, out := out, rst := rst, kp := kp, qmParked := qmParked,
                           fetchOrder := fetchOrder, qmResults := qmResults } :=
  ⟨nofun, nofun, hk.die, hk.canonical, hk.idsRise⟩


theorem Keeps.putTap (hk : Keeps calm s t) {x : Tap} : Keeps calm s { t with tap := x } := .rest hk

/-! ### The changes of one field -/
theorem Keeps.putRegs (hk : Keeps calm s t) {r : RegFile} (h : tsorted t.regs = true → tsorted r = true) : Keeps calm s { t with regs := r } :=
  hk.trans ⟨fun _ => rfl, fun _ => rfl, rfl, fun hc => by
    obtain ⟨hw, hr, hcfg, hi, hb, hq⟩ := State.canonical_iff.mp hc
    exact State.canonical_iff.mpr ⟨hw, h hr, hcfg, hi, hb, hq⟩, id⟩

theorem Keeps.putCfg (hk : Keeps calm s t) {c : Config} (h : t.cfg.sorted → c.sorted) : Keeps calm s { t with cfg := c } :=
  hk.trans ⟨fun _ => rfl, fun _ => rfl, rfl, fun hc => by
    obtain ⟨hw, hr, hcfg, hi, hb, hq⟩ := State.canonical_iff.mp hc
    exact State.canonical_iff.mpr ⟨hw, hr, h hcfg, hi, hb, hq⟩, id⟩

theorem Keeps.putImages (hk : Keeps calm s t) {l : Tab Image} (h : imagesSorted t.images → imagesSorted l) : Keeps calm s { t with images := l } :=
  hk.trans ⟨fun _ => rfl, fun _ => rfl, rfl, fun hc => by
    obtain ⟨hw, hr, hcfg, hi, hb, hq⟩ := State.canonical_iff.mp hc
    exact State.canonical_iff.mpr ⟨hw, hr, hcfg, h hi, hb, hq⟩, id⟩

theorem Keeps.putQueues (hk : Keeps calm s t) {l : Tab Queue} (h : tsorted t.queues = true → tsorted l = true) :
    Keeps calm s { t with queues := l } :=
  hk.trans ⟨fun _ => rfl, fun _ => rfl, rfl, fun hc => by
    obtain ⟨hw, hr, hcfg, hi, hb, hq⟩ := State.canonical_iff.mp hc
    exact State.canonical_iff.mpr ⟨hw, hr, hcfg, hi, hb, h hq⟩, id⟩

theorem Keeps.putSync (hk : Keeps calm s t) {y : Sync} (h : tsorted t.sync.buoys = true → tsorted y.buoys = true) :
    Keeps calm s { t with sync := y } :=
  hk.trans ⟨fun _ => rfl, fun _ => rfl, rfl, fun hc => by
    obtain ⟨hw, hr, hcfg, hi, hb, hq⟩ := State.canonical_iff.mp hc
    exact State.canonical_iff.mpr ⟨hw, hr, hcfg, hi, h hb, hq⟩, id⟩

theorem Keeps.putWin (hk : Keeps calm s t) {w : Window} (h : Memory.wf t.win.ram = true → Memory.wf w.ram = true) :
    Keeps calm s { t with win := w } :=
  hk.trans ⟨fun _ => rfl, fun _ => rfl, rfl, fun hc => by
    obtain ⟨hw, hr, hcfg, hi, hb, hq⟩ := State.canonical_iff.mp hc
    exact State.canonical_iff.mpr ⟨h hw, hr, hcfg, hi, hb, hq⟩, id⟩

/-- New descriptors, and new identities, that leave the identities rising. -/
theorem Keeps.putDescs (hk : Keeps calm s t) {l : List Desc} {n : Nat}
    (h : t.idsRise = true → ({ t with descs := l, ids := n } : State).idsRise = true) : Keeps calm s { t with descs := l, ids := n } :=
  hk.trans ⟨fun _ => rfl, fun _ => rfl, rfl, id, h⟩

/-- A change of descriptors that leaves each its identity. -/
theorem Keeps.mapDescs (hk : Keeps calm s t) {f : Desc → Desc} (h : ∀ d, (f d).id = d.id) : Keeps calm s { t with descs := t.descs.map f } :=
  hk.putDescs fun hi => by
    simpa [State.idsRise_iff, List.map_map, Function.comp_def, h] using State.idsRise_iff.mp hi

theorem Keeps.filterDescs (hk : Keeps calm s t) {p : Desc → Bool} : Keeps calm s { t with descs := t.descs.filter p } :=
  hk.putDescs fun hi => by
    obtain ⟨hr, hb⟩ := State.idsRise_iff.mp hi
    exact State.idsRise_iff.mpr ⟨hr.sublist (List.filter_sublist.map _), fun d hd => hb d (List.mem_of_mem_filter hd)⟩

theorem Keeps.dropDescs (hk : Keeps calm s t) : Keeps calm s { t with descs := [] } :=
  hk.putDescs (l := []) (n := t.ids) fun _ => rfl

/-- Identities are given out in rising order. -/
theorem Keeps.fresh (hk : Keeps calm s t) (n : Nat) : Keeps calm s { t with ids := t.ids + n } :=
  hk.putDescs fun hi => by
    obtain ⟨hr, hb⟩ := State.idsRise_iff.mp hi
    exact State.idsRise_iff.mpr ⟨hr, fun d hd => Nat.lt_add_right n (hb d hd)⟩

theorem imagesSorted_tput {l : Tab Image} (h : imagesSorted l) {mem : Nat} {im : Image} (hi : tsorted im.words = true) :
    imagesSorted (tput l mem im) := fun p hp => by
  rcases mem_tput hp with rfl | hp
  · exact hi
  · exact h p hp

theorem mem_of_tget {α : Type} {l : List (Nat × α)} {k : Nat} {a : α} (h : tget l k = some a) : (k, a) ∈ l := by
  induction l with
  | nil => simp at h
  | cons p l ih =>
    obtain ⟨i, b⟩ := p
    rw [tget_cons] at h
    split at h
    · simp_all
    · exact List.mem_cons_of_mem _ (ih h)

theorem imagesSorted_image (h : imagesSorted t.images) (mem : Nat) : tsorted (t.image mem).words = true := by
  unfold State.image
  cases hm : tget t.images mem with
  | none => rfl
  | some im => exact h _ (mem_of_tget hm)

/-- An image whose words keep their order takes the place of another. -/
theorem Keeps.setImage (hk : Keeps calm s t) {mem : Nat} {im : Image} (h : tsorted (t.image mem).words = true → tsorted im.words = true) :
    Keeps calm s { t with images := tput t.images mem im } :=
  hk.putImages fun hi => imagesSorted_tput hi (h (imagesSorted_image hi mem))

/-! ### Branches and loops -/
theorem Keeps.ite {c : Prop} {_ : Decidable c} {a b : State} (ha : Keeps calm s a) (hb : Keeps calm s b) : Keeps calm s (if c then a else b) := by
  split
  · exact ha
  · exact hb

theorem Keeps.iteFst {α : Type} {c : Prop} {_ : Decidable c} {a b : State × α} (ha : Keeps calm s a.1) (hb : Keeps calm s b.1) :
    Keeps calm s (if c then a else b).1 := by
  split
  · exact ha
  · exact hb

theorem Keeps.foldl {α : Type} {f : State → α → State} {l : List α} (h : ∀ {t x}, Keeps calm s t → Keeps calm s (f t x)) (hk : Keeps calm s t) :
    Keeps calm s (l.foldl f t) := by
  induction l generalizing t with
  | nil => exact hk
  | cons x l ih => exact ih (h hk)

/-- A fold that carries a value beside the state. -/
theorem Keeps.foldl_fst {α β : Type} {f : State × β → α → State × β} {l : List α} (h : ∀ {p x}, Keeps calm s p.1 → Keeps calm s (f p x).1)
    {p : State × β} (hk : Keeps calm s p.1) : Keeps calm s (l.foldl f p).1 := by
  induction l generalizing p with
  | nil => exact hk
  | cons x l ih => exact ih (h hk)

/-- The state of a pair that a function answers. -/
theorem Keeps.ofEq {α : Type} {p : State × α} {a : α} (h : p = (t, a)) (hk : Keeps calm s p.1) : Keeps calm s t := by
  rw [h] at hk
  exact hk

/-! ### Helper functions on register sets -/
theorem tsorted_foldl_tput {l f : RegFile} (h : tsorted f = true) : tsorted (l.foldl (fun f p => tput f p.1 p.2) f) = true := by
  induction l generalizing f with
  | nil => exact h
  | cons p l ih => exact ih (tsorted_tput h ..)

theorem tsorted_takeIsland {a b : RegFile} (island : Nat) (h : tsorted a = true) : tsorted (takeIsland island a b) = true :=
  tsorted_foldl_tput (tsorted_filter h _)

theorem tsorted_clearSwaps {f : RegFile} (g : Nat) (h : tsorted f = true) : tsorted (clearSwaps g f) = true := by
  have key : ∀ l e : RegFile, tsorted e = true → tsorted (l.foldl (fun g' p =>
      if p.1 % 2 ^ 24 = Reg.cfImgCtrl then rput g g' p.1 (putBit p.2 31 false) else g') e) = true := by
    intro l
    induction l with
    | nil => exact fun _ h => h
    | cons p l ih =>
      intro e he
      exact ih _ (by dsimp only; split; exacts [tsorted_rput he .., he])
  exact key f f h

/-- The boot's commit puts the shadow set into force, less the swaps that it has done. -/
theorem Keeps.bootSets (hk : Keeps calm s t) {c : Commit} : Keeps calm s { t with
    cfg := { shadow := clearSwaps t.grade t.cfg.shadow, pending := clearSwaps t.grade t.cfg.shadow,
             active := clearSwaps t.grade t.cfg.shadow, old := t.cfg.active },
    commit := c } :=
  hk.trans ⟨fun _ => rfl, fun _ => rfl, rfl, fun hc => by
    obtain ⟨hw, hr, ⟨h, -, ha, -⟩, hi, hb, hq⟩ := State.canonical_iff.mp hc
    exact State.canonical_iff.mpr
      ⟨hw, hr, ⟨tsorted_clearSwaps _ h, tsorted_clearSwaps _ h, tsorted_clearSwaps _ h, ha⟩, hi, hb, hq⟩, id⟩

theorem Keeps.oldFromActive (hk : Keeps calm s t) {l : List (Nat × Nat)} :
    Keeps calm s { t with cfg := { t.cfg with old := t.cfg.active }, kp := { t.kp with locks := l } } :=
  hk.trans ⟨fun _ => rfl, fun _ => rfl, rfl, fun hc => by
    obtain ⟨hw, hr, ⟨hs, hp, ha, -⟩, hi, hb, hq⟩ := State.canonical_iff.mp hc
    exact State.canonical_iff.mpr ⟨hw, hr, ⟨hs, hp, ha, ha⟩, hi, hb, hq⟩, id⟩

/-! ### The operations -/
theorem Keeps.useFree (hk : Keeps calm s t) : Keeps calm s t.useFree := by
  unfold State.useFree
  exact .rest hk

theorem Keeps.useId (hk : Keeps calm s t) : Keeps calm s t.useId := .fresh hk 1

theorem Keeps.emit (hk : Keeps calm s t) {o : Out} : Keeps calm s (t.emit o) := by
  unfold State.emit
  exact .rest hk

theorem Keeps.setReg (hk : Keeps calm s t) {k : Nat} {v : Word} : Keeps calm s (t.setReg k v) := .putRegs hk fun h => tsorted_rput h ..

theorem Keeps.setFld (hk : Keeps calm s t) {k hi lo v : Nat} : Keeps calm s (t.setFld k hi lo v) := by
  unfold State.setFld
  exact .setReg hk

theorem Keeps.bump (hk : Keeps calm s t) {k hi lo n : Nat} : Keeps calm s (t.bump k hi lo n) := by
  unfold State.bump
  exact .setFld hk

theorem Keeps.bumpSat (hk : Keeps calm s t) {k hi lo n : Nat} : Keeps calm s (t.bumpSat k hi lo n) := by
  unfold State.bumpSat
  exact .setFld hk

theorem Keeps.event (hk : Keeps calm s t) {ev b cnt hi lo : Nat} : Keeps calm s (t.event ev b cnt hi lo) := by
  unfold State.event
  exact .bump (.setReg hk)

theorem Keeps.evCf (hk : Keeps calm s t) {b : Nat} : Keeps calm s (t.evCf b) := by
  unfold State.evCf
  exact .event hk

theorem Keeps.evKp (hk : Keeps calm s t) {b : Nat} : Keeps calm s (t.evKp b) := by
  unfold State.evKp
  exact .event hk

theorem Keeps.evQm (hk : Keeps calm s t) {b : Nat} : Keeps calm s (t.evQm b) := by
  unfold State.evQm
  exact .event hk

theorem Keeps.evAt (hk : Keeps calm s t) {b : Nat} : Keeps calm s (t.evAt b) := by
  unfold State.evAt
  exact .event hk

theorem Keeps.evWb (hk : Keeps calm s t) {b : Nat} : Keeps calm s (t.evWb b) := by
  unfold State.evWb
  exact .event hk

theorem Keeps.evFb (hk : Keeps calm s t) {b : Nat} : Keeps calm s (t.evFb b) := by
  unfold State.evFb
  exact .event hk

theorem Keeps.evHm (hk : Keeps calm s t) {b : Nat} : Keeps calm s (t.evHm b) := by
  unfold State.evHm
  exact .event hk

theorem Keeps.evBy (hk : Keeps calm s t) {b : Nat} : Keeps calm s (t.evBy b) := by
  unfold State.evBy
  exact .event hk

theorem Keeps.logRec (hk : Keeps calm s t) {kind origin ctx obj : Nat} {old new : Word} {detail : Bytes} :
    Keeps calm s (t.logRec kind origin ctx obj old new detail) := by
  obtain ⟨r, log, x, o, h, -, -, hr⟩ := t.logRec_is kind origin ctx obj old new detail
  rw [h]
  exact .rest (.putRegs hk hr)

theorem Keeps.logObj (hk : Keeps calm s t) {kind origin obj : Nat} {detail : Bytes} : Keeps calm s (t.logObj kind origin obj detail) := by
  unfold State.logObj
  exact .logRec hk

theorem Keeps.refuseWrite (hk : Keeps calm s t) {origin reason off : Nat} : Keeps calm s (t.refuseWrite origin reason off) := by
  unfold State.refuseWrite
  exact .logObj (.evCf (.setReg hk))

theorem Keeps.checkFailed (hk : Keeps calm s t) {origin : Nat} {f : CheckFail} : Keeps calm s (t.checkFailed origin f) := by
  unfold State.checkFailed
  exact .logObj (.evCf (.rest (.setReg hk)))

theorem Keeps.askCode (hk : Keeps calm s t) {applyAfter : Bool} {origin : Nat} {v : Word} : Keeps calm s (t.askCode applyAfter origin v) := by
  unfold State.askCode
  exact .emit (.rest hk)

theorem Keeps.startCommit (hk : Keeps calm s t) {origin : Nat} : Keeps calm s (t.startCommit origin) := by
  unfold State.startCommit
  exact .frame (.putCfg hk (c := { t.cfg with pending := t.cfg.active }) fun ⟨hs, _, ha, ho⟩ => ⟨hs, ha, ha, ho⟩) rfl

theorem Keeps.checkOp (hk : Keeps calm s t) {origin : Nat} {applyAfter : Bool} : Keeps calm s (t.checkOp origin applyAfter) := by
  unfold State.checkOp
  split
  · exact .checkFailed hk
  · split
    exacts [.askCode hk, .ite (.startCommit hk) (.rest hk)]

theorem Keeps.cfCtrlGate (hk : Keeps calm s t) {p : Port} {f : State → State} (hf : ∀ {t}, Keeps calm s t → Keeps calm s (f t)) :
    Keeps calm s (t.cfCtrlGate p f) := by
  unfold State.cfCtrlGate
  exact .ite hk (by split; exacts [.refuseWrite hk, .ite (.refuseWrite hk) (hf hk)])

theorem Keeps.swapImage (hk : Keeps calm s t) {mem : Nat} {v : Word} : Keeps calm s (t.swapImage mem v) := by
  unfold State.swapImage
  have hi : Keeps calm s { t with images := tput t.images mem { t.image mem with active := 1 - (t.image mem).active } } := .setImage hk id
  exact .logRec hi

theorem Keeps.swapPattern (hk : Keeps calm s t) {island : Nat} : Keeps calm s (t.swapPattern island) := by
  unfold State.swapPattern
  exact .ite (by split; exacts [.swapImage hk, hk]) hk

theorem Keeps.pdAsk (hk : Keeps calm s t) {d want : Nat} : Keeps calm s (t.pdAsk d want) := by
  unfold State.pdAsk
  exact .rest hk

theorem Keeps.setPair (hk : Keeps calm s t) {p : Nat} {x : Pair} : Keeps calm s (t.setPair p x) := by
  unfold State.setPair
  exact .rest hk

theorem Keeps.powerPair (hk : Keeps calm s t) {p : Nat} : Keeps calm s (t.powerPair p) := by
  unfold State.powerPair
  exact .ite (.ite (.pdAsk hk) hk) (.ite hk (.pdAsk (.setPair (.putWin hk fun h => Memory.wf_dropPair h p))))

theorem Keeps.settlePair (hk : Keeps calm s t) {p : Nat} : Keeps calm s (t.settlePair p) := by
  unfold State.settlePair
  exact .ite hk (.powerPair hk)

theorem Keeps.powerPairs (hk : Keeps calm s t) {island : Nat} : Keeps calm s (t.powerPairs island) := by
  unfold State.powerPairs
  exact .ite (.foldl (fun hk => .powerPair hk) hk) hk

theorem Keeps.prepareAt (hk : Keeps calm s t) {island : Nat} : Keeps calm s (t.prepareAt island) := by
  unfold State.prepareAt
  exact .putCfg (.swapPattern hk) fun ⟨hs, hp, ha, ho⟩ => ⟨hs, tsorted_takeIsland island hp, ha, ho⟩

theorem Keeps.switchAt (hk : Keeps calm s t) {island : Nat} : Keeps calm s (t.switchAt island) := by
  have hi : Keeps calm s { t with cfg := { t.cfg with active := takeIsland island t.cfg.active t.cfg.pending } } :=
    .putCfg hk fun ⟨hs, hp, ha, ho⟩ => ⟨hs, hp, tsorted_takeIsland island ha, ho⟩
  unfold State.switchAt
  exact .powerPairs (.ite (.rest hi) hi)

theorem Keeps.token (hk : Keeps calm s t) : Keeps calm s t.token := by
  unfold State.token
  dsimp only
  split
  · have ho (u : State) (hu : Keeps calm s u) : Keeps calm s { u with cfg := { u.cfg with old := u.cfg.active } } :=
      .putCfg hu fun ⟨hs, hp, ha, _⟩ => ⟨hs, hp, ha, ha⟩
    exact .ite (.rest (.prepareAt hk)) (.frame (ho _ (.prepareAt hk)) rfl)
  · exact .ite (.rest (.switchAt hk)) (.evCf (.rest (.switchAt hk)))
  · exact hk

theorem Keeps.logCommit (hk : Keeps calm s t) : Keeps calm s t.logCommit := by
  unfold State.logCommit
  exact .logRec (.foldl (fun hk => .logRec hk) hk)

theorem Keeps.endCommit (hk : Keeps calm s t) : Keeps calm s t.endCommit := by
  have key (u : State) (hu : Keeps calm s u) : Keeps calm s { u with cfg :=
      { shadow := clearSwaps u.grade u.cfg.shadow, pending := clearSwaps u.grade u.cfg.active,
        active := clearSwaps u.grade u.cfg.active, old := clearSwaps u.grade u.cfg.active } } :=
    .putCfg hu fun ⟨hs, _, ha, _⟩ =>
      ⟨tsorted_clearSwaps _ hs, tsorted_clearSwaps _ ha, tsorted_clearSwaps _ ha, tsorted_clearSwaps _ ha⟩
  unfold State.endCommit
  refine .frame (key _ ?_) rfl
  split
  · exact .swapImage (.logCommit hk)
  · exact .logCommit hk

theorem Keeps.retireReport (hk : Keeps calm s t) {island : Nat} : Keeps calm s (t.retireReport island) := by
  unfold State.retireReport
  exact .ite (.ite (.foldl (fun hk => .powerPair hk) (.endCommit (.rest hk))) (.rest hk)) hk

theorem Keeps.discardShadow (hk : Keeps calm s t) : Keeps calm s t.discardShadow := by
  unfold State.discardShadow
  exact .putCfg hk fun ⟨_, hp, ha, ho⟩ => ⟨ha, hp, ha, ho⟩

theorem Keeps.ifLive (hk : Keeps calm s t) {did : Nat} {f : State → Desc → State} (hf : ∀ {t d}, Keeps calm s t → Keeps calm s (f t d)) :
    Keeps calm s (t.ifLive did f) := by
  unfold State.ifLive
  split
  · exact .ite hk (hf hk)
  · exact hk

theorem Keeps.setLink (hk : Keeps calm s t) {l : Nat} {x : Link} : Keeps calm s (t.setLink l x) := by
  unfold State.setLink
  exact .rest hk

theorem Keeps.forgetBuffer (hk : Keeps calm s t) {l : Nat} : Keeps calm s (t.forgetBuffer l) := by
  unfold State.forgetBuffer
  exact .rest hk

theorem Keeps.dropLink (hk : Keeps calm s t) {l : Nat} {st : LinkState} {cause : Nat} : Keeps calm s (t.dropLink l st cause) := by
  unfold State.dropLink
  exact .rest (.forgetBuffer (.setLink hk))

theorem Keeps.markRetired (hk : Keeps calm s t) {kind i : Nat} : Keeps calm s (t.markRetired kind i) := by
  unfold State.markRetired
  exact .logObj (.evHm (.setReg hk))

theorem Keeps.endHolders (hk : Keeps calm s t) {kind i : Nat} : Keeps calm s (t.endHolders kind i) := by
  unfold State.endHolders
  exact .mapDescs hk fun d => by split <;> rfl

theorem Keeps.retireHeld (hk : Keeps calm s t) {kind i : Nat} : Keeps calm s (t.retireHeld kind i) := by
  unfold State.retireHeld
  exact .ite (.endHolders (.markRetired hk)) hk

theorem Keeps.retireGroup (hk : Keeps calm s t) {g : Nat} : Keeps calm s (t.retireGroup g) := by
  unfold State.retireGroup
  exact .ite (.markRetired (.retireHeld (.foldl (fun hk => .retireHeld hk) hk))) hk

theorem Keeps.retireBank (hk : Keeps calm s t) {b : Nat} : Keeps calm s (t.retireBank b) := by
  have hw : Keeps calm s { t.markRetired 5 b with win := { (t.markRetired 5 b).win with
      ram := (t.markRetired 5 b).win.ram.filter (fun c => c.1 / 0x200000 ≠ b),
      bad := (t.markRetired 5 b).win.bad.filter (fun a => a / 0x200000 ≠ b) } } :=
    .putWin (.markRetired hk) fun h => Memory.wf_filter h _
  unfold State.retireBank
  exact .ite hw (.pdAsk (.setPair hw))

theorem Keeps.retire (hk : Keeps calm s t) {kind i : Nat} : Keeps calm s (t.retire kind i) := by
  unfold State.retire
  exact .ite hk (.ite (.ite (.retireGroup (.retireHeld hk)) (.retireHeld hk)) (.ite (.retireGroup hk) (.ite (.retireHeld hk) (.ite
      (.retireHeld hk) (.ite (.retireBank hk) (.ite (.markRetired hk) (.ite (.dropLink (.markRetired hk)) (.retireGroup (.markRetired hk)))))))))

theorem Keeps.limitCheck (hk : Keeps calm s t) {store unit : Nat} {uncorr : Bool} : Keeps calm s (t.limitCheck store unit uncorr) := by
  unfold State.limitCheck
  split
  exacts [hk, .ite (.ite (.retire (.rest hk)) (.rest hk)) (.ite (.retire (.rest hk)) (.rest hk))]

theorem Keeps.countEcc (hk : Keeps calm s t) {store unit : Nat} {uncorr : Bool} : Keeps calm s (t.countEcc store unit uncorr) := by
  unfold State.countEcc
  exact .limitCheck (.ite (.evHm (.bump (.setFld hk))) (.bump (.setFld hk)))

theorem Keeps.inject (hk : Keeps calm s t) {store unit : Nat} {ctx : Option Nat} : Keeps calm s (t.inject store unit ctx).1 := by
  unfold State.inject
  exact .iteFst hk (.iteFst (.rest hk) (.iteFst (.setReg hk) (.ite (.setReg (.bump (.rest hk))) (.bump (.rest hk)))))

theorem Keeps.pmSend (hk : Keeps calm s t) {type fields : Nat} : Keeps calm s (t.pmSend type fields) := by
  unfold State.pmSend
  exact .emit hk

theorem Keeps.wakePair (hk : Keeps calm s t) {p : Nat} : Keeps calm s (t.wakePair p) := by
  unfold State.wakePair
  exact .ite (.pdAsk (.bump (.setPair hk))) hk

theorem Keeps.wakeGroup (hk : Keeps calm s t) {g : Nat} : Keeps calm s (t.wakeGroup g) := by
  unfold State.wakeGroup
  exact .ite (.foldl (fun hk => .wakePair (.setPair hk)) (.pmSend (.setReg hk))) hk

theorem Keeps.setBuoy (hk : Keeps calm s t) {b : Nat} {x : Buoy} : Keeps calm s (t.setBuoy b x) := by
  unfold State.setBuoy
  exact .putSync hk fun h => by dsimp only; split; exacts [tsorted_tdel h _, tsorted_tput h ..]

theorem Keeps.setClaimants (hk : Keeps calm s t) {b : Nat} {l : List Claimant} : Keeps calm s (t.setClaimants b l) := by
  unfold State.setClaimants
  exact .rest hk

theorem Keeps.setFq (hk : Keeps calm s t) {f : Nat} {x : FlashQ} : Keeps calm s (t.setFq f x) := by
  unfold State.setFq
  exact .rest hk

theorem Keeps.fqDrop (hk : Keeps calm s t) {f : Nat} : Keeps calm s (t.fqDrop f) := by
  unfold State.fqDrop
  exact .event hk

theorem Keeps.flash (hk : Keeps calm s t) {f : Nat} {r : Flash} : Keeps calm s (t.flash f r) := by
  unfold State.flash
  exact .ite (.fqDrop hk) (.ite (.fqDrop hk) (.ite (.bump (.setReg (.bump (.setFq hk)))) (.bump (.setFq hk))))

theorem Keeps.setDesc (hk : Keeps calm s t) {d : Desc} : Keeps calm s (t.setDesc d) := by
  unfold State.setDesc
  exact .mapDescs hk fun e => by split; exacts [(‹e.id = d.id›).symm, rfl]

theorem Keeps.onDesc (hk : Keeps calm s t) {did : Nat} {f : Desc → Desc} (hf : ∀ d, (f d).id = d.id := by intro _; rfl) :
    Keeps calm s (t.onDesc did f) := by
  unfold State.onDesc
  exact .mapDescs hk fun d => by split; exacts [hf d, rfl]

theorem Keeps.waitsMet (hk : Keeps calm s t) {d : Desc} : Keeps calm s (t.waitsMet d) := by
  unfold State.waitsMet
  exact .wakeGroup (.setDesc hk)

theorem Keeps.registerClaim (hk : Keeps calm s t) {did : Nat} : Keeps calm s (t.registerClaim did) := by
  unfold State.registerClaim
  split
  · exact hk
  · split
    · exact hk
    · split
      exacts [hk, .ite hk (.setClaimants (.setDesc hk))]

theorem Keeps.meetWait (hk : Keeps calm s t) {did w : Nat} : Keeps calm s (t.meetWait did w) := by
  unfold State.meetWait
  split
  exacts [hk, .ite (.waitsMet (.setDesc hk)) (.registerClaim (.setDesc hk))]

theorem Keeps.prewake (hk : Keeps calm s t) {b v : Nat} : Keeps calm s (t.prewake b v) := by
  unfold State.prewake
  exact .foldl (fun hk => .ite (.wakeGroup hk) hk) hk

theorem Keeps.fireWatch (hk : Keeps calm s t) {slot : Nat} {w : Watch} {v : Nat} : Keeps calm s (t.fireWatch slot w v) := by
  unfold State.fireWatch
  exact .ite (.flash hk) (.rest (.flash hk))

theorem Keeps.observe (hk : Keeps calm s t) {b v : Nat} {fired : List Nat} : Keeps calm s (t.observe b v fired).1 := by
  unfold State.observe
  exact .prewake (.foldl (fun hk => .fireWatch hk) (.foldl (fun hk => .meetWait hk) hk))

theorem Keeps.serve (hk : Keeps calm s t) {b v : Nat} {n : Claimant} : Keeps calm s (t.serve b v n) := by
  unfold State.serve
  split
  · exact .meetWait (.setBuoy hk)
  · split
    exacts [hk, .ite (.setClaimants (.setBuoy (.flash hk))) (.rest (.setBuoy (.flash hk)))]

theorem Keeps.claimLoop (hk : Keeps calm s t) {b n : Nat} {l : List Nat} : Keeps calm s (State.claimLoop b n t l) := by
  induction n generalizing t l with
  | zero => exact hk
  | succ n ih =>
    unfold State.claimLoop
    split
    · exact hk
    · split
      exacts [ih (.setClaimants hk), .ite (ih (.observe (.serve (.setClaimants hk)))) hk]

theorem Keeps.settleClaims (hk : Keeps calm s t) {n : Nat} {l : List Nat} : Keeps calm s (State.settleClaims n l t) := by
  induction n generalizing l t with
  | zero => exact hk
  | succ n ih =>
    cases l with
    | nil => exact hk
    | cons b l => unfold State.settleClaims; exact ih (.claimLoop hk)

theorem Keeps.settled (hk : Keeps calm s t) {s0 : State} : Keeps calm s (s0.settled t) := by
  unfold State.settled
  exact .settleClaims hk

theorem Keeps.serveZeros (hk : Keeps calm s t) {b n : Nat} : Keeps calm s (State.serveZeros b n t) := by
  induction n generalizing t with
  | zero => exact hk
  | succ n ih =>
    unfold State.serveZeros
    split
    · exact hk
    · split
      exacts [ih (.setClaimants hk), ih (.serve (.setClaimants hk)), hk]

theorem Keeps.sweepClaims (hk : Keeps calm s t) : Keeps calm s t.sweepClaims := by
  unfold State.sweepClaims
  exact .settled (.foldl (fun hk => .serveZeros (.setClaimants hk)) hk)

theorem Keeps.poisonBuoy (hk : Keeps calm s t) {b : Nat} : Keeps calm s (t.poisonBuoy b) := by
  unfold State.poisonBuoy
  exact .sweepClaims (.foldl (fun hk => .setDesc hk) (.evBy (.setBuoy hk)))

theorem Keeps.buoyOp (hk : Keeps calm s t) {b : Nat} {op : BuoyOp} {amt : Nat} : Keeps calm s (t.buoyOp b op amt).1 := by
  unfold State.buoyOp
  exact .iteFst (.ite (.poisonBuoy (.ite (.inject hk) (.countEcc (.inject hk)))) (.ite (.inject hk) (.countEcc (.inject hk)))) (.iteFst (.ite
      (.poisonBuoy (.ite (.inject hk) (.countEcc (.inject hk)))) (.ite (.inject hk) (.countEcc (.inject hk)))) (.settled (.claimLoop
      (.observe (.ite (.evBy (.setBuoy (.ite (.poisonBuoy (.ite (.inject hk) (.countEcc (.inject hk)))) (.ite (.inject hk) (.countEcc
      (.inject hk)))))) (.setBuoy (.ite (.poisonBuoy (.ite (.inject hk) (.countEcc (.inject hk)))) (.ite (.inject hk) (.countEcc
      (.inject hk))))))))))

theorem Keeps.latchUnderflow (hk : Keeps calm s t) {ctx ident b : Nat} : Keeps calm s (t.latchUnderflow ctx ident b) := by
  unfold State.latchUnderflow
  exact .evBy (.setReg hk)

theorem Keeps.signalOp (hk : Keeps calm s t) {ctx ident b : Nat} {isSub : Bool} {amt : Nat} : Keeps calm s (t.signalOp ctx ident b isSub amt).1 := by
  unfold State.signalOp
  exact .iteFst (.latchUnderflow (.buoyOp hk)) (.buoyOp hk)

theorem Keeps.portSignal (hk : Keeps calm s t) {p : Port} {w : Word} : Keeps calm s (t.portSignal p w) := by
  unfold State.portSignal
  dsimp only
  split
  exacts [.evBy hk, .ite (.evBy hk) (.ite (.evBy (.signalOp hk)) (.signalOp hk))]

theorem Keeps.setHeld (hk : Keeps calm s t) {p : Port} {l : List HeldSignal} : Keeps calm s (t.setHeld p l) := by
  unfold State.setHeld
  exact .rest hk

theorem Keeps.drainHeld (hk : Keeps calm s t) {p : Port} {n : Nat} {m : Bool} : Keeps calm s (State.drainHeld p n m t) := by
  induction n generalizing t m with
  | zero => exact hk
  | succ n ih =>
    unfold State.drainHeld
    split
    exacts [hk, .ite (ih (.setHeld (.portSignal hk))) hk]

theorem Keeps.regionRefuse (hk : Keeps calm s t) {master o : Nat} {kind : Access} : Keeps calm s (t.regionRefuse master o kind) := by
  unfold State.regionRefuse
  exact .evWb (.setReg hk)

theorem Keeps.install (hk : Keeps calm s t) {mover : Option Nat} {r : Range} : Keeps calm s (t.install mover r) := by
  unfold State.install
  dsimp only
  split
  exacts [.useFree (.rest hk), .useFree (.rest hk)]

theorem Keeps.cacheParity (hk : Keeps calm s t) {mover : Option Nat} {ctx va : Nat} : Keeps calm s (t.cacheParity mover ctx va).1 := by
  unfold State.cacheParity
  dsimp only
  split
  · exact hk
  · exact .iteFst (.inject hk) (.countEcc (.rest (.inject hk)))

theorem Keeps.latchFault (hk : Keeps calm s t) {row obj queue ctx va : Nat} : Keeps calm s (t.latchFault row obj queue ctx va) := by
  unfold State.latchFault
  exact .evAt (.setReg (.setReg hk))

theorem Keeps.countAccess (hk : Keeps calm s t) {rs : List Range} {va len : Nat} : Keeps calm s (t.countAccess rs va len) := by
  unfold State.countAccess
  exact .foldl (fun hk => .ite (.ite (.evAt (.setReg (.bumpSat hk))) (.bumpSat hk)) hk) hk

theorem Keeps.addReq (hk : Keeps calm s t) {r : MemReq} : Keeps calm s (t.addReq r) := by
  unfold State.addReq
  exact .useId (.rest hk)

theorem Keeps.dropReq (hk : Keeps calm s t) {i : Nat} : Keeps calm s (t.dropReq i) := by
  unfold State.dropReq
  exact .rest hk

theorem Keeps.startWalk (hk : Keeps calm s t) {did : Option Nat} {queue : Nat} {mover : Option Nat} {lc : Bool} {tag va : Nat} :
    Keeps calm s (t.startWalk did queue mover lc tag va) := by
  unfold State.startWalk
  exact .ite hk (.useId (.rest hk))

theorem Keeps.dropWalk (hk : Keeps calm s t) {id : Nat} : Keeps calm s (t.dropWalk id) := by
  unfold State.dropWalk
  exact .rest hk

theorem Keeps.giveResult (hk : Keeps calm s t) {w : Walk} {r : WalkResult} : Keeps calm s (t.giveResult w r) := by
  unfold State.giveResult
  split
  exacts [.onDesc hk, .rest hk]

theorem Keeps.endWalk (hk : Keeps calm s t) {w : Walk} {r : WalkResult} : Keeps calm s (t.endWalk w r) := by
  unfold State.endWalk
  exact .ite (.dropWalk hk) (.giveResult (by split; exacts [.install (.dropWalk hk), .dropWalk hk]))

theorem Keeps.walkRead (hk : Keeps calm s t) {w : Walk} : Keeps calm s (t.walkRead w) := by
  unfold State.walkRead
  exact .ite (.endWalk hk) (by split; exacts [.addReq (.rest hk), .endWalk (.evAt hk)])

theorem Keeps.startWalkers (hk : Keeps calm s t) : Keeps calm s t.startWalkers := by
  unfold State.startWalkers
  exact .foldl (fun hk => .walkRead hk) hk

theorem Keeps.invalidate (hk : Keeps calm s t) {tag : Option Nat} : Keeps calm s (t.invalidate tag) := by
  unfold State.invalidate
  exact hk.trans ⟨fun _ => rfl, fun _ => rfl, rfl, id, fun hi => by
    simpa [State.idsRise_iff, List.map_map, Function.comp_def] using State.idsRise_iff.mp hi⟩

theorem Keeps.raiseFatal (hk : Keeps calm s t) {reason obj : Nat} : Keeps calm s (t.raiseFatal reason obj) := by
  unfold State.raiseFatal
  exact .rest hk

theorem Keeps.arbitrate (hk : Keeps calm s t) {point quantum : Nat} {cs : List Cand} : Keeps calm s (t.arbitrate point quantum cs).1 := by
  obtain ⟨d, h⟩ := t.arbitrate_is point quantum cs
  rw [h]
  exact .rest hk

theorem Keeps.mportServe (hk : Keeps calm s t) {p i n : Nat} : Keeps calm s (State.mportServe p i n t) := by
  induction n generalizing t with
  | zero => exact hk
  | succ n ih =>
    unfold State.mportServe
    exact .ite (by split; exacts [(.ofEq ‹_› (.arbitrate hk)), ih (.rest (.ofEq ‹_› (.arbitrate hk)))]) hk

theorem Keeps.passOn (hk : Keeps calm s t) {r : MemReq} : Keeps calm s (t.passOn r) := by
  unfold State.passOn
  split
  exacts [.mportServe hk, hk]

theorem Keeps.setShadow (hk : Keeps calm s t) {k : Nat} {v : Word} : Keeps calm s (t.setShadow k v) := by
  unfold State.setShadow
  exact .putCfg hk fun ⟨hs, hp, ha, ho⟩ => ⟨tsorted_rput hs .., hp, ha, ho⟩

theorem Keeps.writePlain (hk : Keeps calm s t) {k : Nat} {r : RegRow} {m v : Word} : Keeps calm s (t.writePlain k r m v) := by
  unfold State.writePlain
  exact .setReg hk

theorem Keeps.writeStaged (hk : Keeps calm s t) {p : Port} {off k : Nat} {r : RegRow} {m v : Word} : Keeps calm s (t.writeStaged p off k r m v) := by
  unfold State.writeStaged
  exact .ite hk (.ite (.refuseWrite hk) (.ite (.refuseWrite hk) (.setShadow hk)))

theorem Keeps.writeFields (hk : Keeps calm s t) {p : Port} {off0 : Nat} {part : Part} {v0 : Word} : Keeps calm s (t.writeFields p off0 part v0) := by
  unfold State.writeFields
  dsimp only
  split
  · exact hk
  · exact .ite hk (by split; exacts [hk, .writeStaged (.writePlain hk)])

theorem Keeps.putImage (hk : Keeps calm s t) {mem bank i : Nat} {v : Word} : Keeps calm s (t.putImage mem bank i v) := by
  unfold State.putImage
  exact .setImage hk fun h => by dsimp only; split; exacts [tsorted_tdel h _, tsorted_tput h ..]

theorem Keeps.imgData (hk : Keeps calm s t) {p : Port} {part : Part} {v : Word} : Keeps calm s (t.imgData p part v) := by
  unfold State.imgData
  split
  exacts [.refuseWrite hk, .ite hk (.ite (.refuseWrite hk) (.ite (.refuseWrite hk) (.setFld (.putImage hk))))]

theorem Keeps.atInv (hk : Keeps calm s t) {part : Part} {v : Word} : Keeps calm s (t.atInv part v) := by
  unfold State.atInv
  exact .ite hk (.ite (.evAt hk) (.invalidate (.bump hk)))

theorem Keeps.invDone (hk : Keeps calm s t) : Keeps calm s t.invDone := by
  unfold State.invDone
  split
  exacts [hk, .ite hk (.bump (.rest hk))]

theorem Keeps.atTable (hk : Keeps calm s t) {p : Port} {part : Part} {v : Word} : Keeps calm s (t.atTable p part v) := by
  unfold State.atTable
  exact .ite hk (.writeFields hk)

theorem Keeps.halveCounters (hk : Keeps calm s t) : Keeps calm s t.halveCounters := by
  unfold State.halveCounters
  exact .ite hk (.foldl (fun hk => .setReg hk) hk)

theorem Keeps.walkStep (hk : Keeps calm s t) {w : Walk} {g : Bytes} {err : Bool} : Keeps calm s (t.walkStep w g err) := by
  unfold State.walkStep
  exact .ite (.dropWalk hk) (.ite (.endWalk hk) (by split; exacts [.endWalk (.evAt hk), .endWalk hk, .walkRead hk]))

theorem Keeps.setQueue (hk : Keeps calm s t) {q : Nat} {x : Queue} : Keeps calm s (t.setQueue q x) := by
  unfold State.setQueue
  exact .putQueues hk fun h => tsorted_tput h ..

theorem Keeps.onQueue (hk : Keeps calm s t) {q : Nat} {f : Queue → Queue} : Keeps calm s (t.onQueue q f) := by
  unfold State.onQueue
  exact .putQueues hk fun h => tsorted_tmod h ..

theorem Keeps.queueFlash (hk : Keeps calm s t) {q event detail index addr : Nat} : Keeps calm s (t.queueFlash q event detail index addr) := by
  unfold State.queueFlash
  exact .ite (.flash hk) hk

theorem Keeps.enterError (hk : Keeps calm s t) {q reason index status : Nat} : Keeps calm s (t.enterError q reason index status) := by
  unfold State.enterError
  exact .ite (.queueFlash (.evQm (.setQueue hk))) hk

theorem Keeps.adminRecord (hk : Keeps calm s t) {c : AdminCmd} {status : Nat} {word1 : Word} : Keeps calm s (t.adminRecord c status word1) := by
  unfold State.adminRecord
  dsimp only
  split
  exacts [.addReq (.ite (.logRec (.rest hk)) (.rest hk)), .raiseFatal (.ite (.logRec (.rest hk)) (.rest hk))]

theorem Keeps.endLastRead (hk : Keeps calm s t) {q : Nat} : Keeps calm s (t.endLastRead q) := by
  unfold State.endLastRead
  refine .ite (.ite (.setQueue hk) ?_) hk
  split
  exacts [.ite (.adminRecord (.setQueue hk)) (.setQueue hk), .setQueue hk]

theorem Keeps.idxLost (hk : Keeps calm s t) {q : Nat} : Keeps calm s (t.idxLost q) := by
  unfold State.idxLost
  exact .ite (.raiseFatal (.onQueue hk)) (.endLastRead (.enterError (.onQueue hk)))

theorem Keeps.entLost (hk : Keeps calm s t) {q i : Nat} : Keeps calm s (t.entLost q i) := by
  unfold State.entLost
  exact .ite (.raiseFatal hk) (.ite (.onQueue hk) (.ite (.enterError (.onQueue hk)) (.onQueue (.onQueue hk))))

theorem Keeps.replayLost (hk : Keeps calm s t) {did : Nat} {halts : Bool} {status va : Nat} : Keeps calm s (t.replayLost did halts status va) := by
  unfold State.replayLost
  exact .onDesc hk (fun _ => by split <;> rfl)

theorem Keeps.readAhead (hk : Keeps calm s t) {q : Nat} : Keeps calm s (t.readAhead q) := by
  unfold State.readAhead
  exact .ite hk (.onQueue hk)

theorem Keeps.wantFetch (hk : Keeps calm s t) {q : Nat} : Keeps calm s (t.wantFetch q) := by
  unfold State.wantFetch
  exact .ite hk (.rest hk)

theorem Keeps.errorStop (hk : Keeps calm s t) {q first status : Nat} : Keeps calm s (t.errorStop q first status) := by
  unfold State.errorStop
  exact .ite (.enterError hk) hk

theorem Keeps.chainDone (hk : Keeps calm s t) {q first len status : Nat} : Keeps calm s (t.chainDone q first len status) := by
  unfold State.chainDone
  exact .wantFetch (.readAhead (.errorStop (.onQueue (.onQueue hk))))

theorem Keeps.countRecord (hk : Keeps calm s t) {q : Nat} : Keeps calm s (t.countRecord q) := by
  unfold State.countRecord
  exact .bump hk

theorem Keeps.dropDesc (hk : Keeps calm s t) {did : Nat} : Keeps calm s (t.dropDesc did) := by
  unfold State.dropDesc
  exact .filterDescs hk
/-- A new descriptor takes an identity above all that stand. -/
theorem Keeps.interimDone (hk : Keeps calm s t) {did : Nat} : Keeps calm s (t.interimDone did) := by
  unfold State.interimDone
  split
  exacts [hk, .ite hk (.queueFlash (.setDesc hk))]

theorem Keeps.recordDone (hk : Keeps calm s t) {did pos : Nat} {ok : Bool} : Keeps calm s (t.recordDone did pos ok) := by
  unfold State.recordDone
  split
  exacts [hk, .ite (.chainDone (.dropDesc (.ite (.countRecord hk) hk))) (.setDesc (.ite (.countRecord hk) hk))]

theorem Keeps.qmLost (hk : Keeps calm s t) {q : Nat} {use : QmUse} {va : Nat} {halts : Bool} {status : Nat} :
    Keeps calm s (t.qmLost q use va halts status) := by
  unfold State.qmLost
  split
  · exact .idxLost hk
  · exact .entLost hk
  · exact .replayLost hk
  · exact .ite (.raiseFatal hk) (.recordDone (.enterError hk))
  · exact .interimDone (.enterError hk)
  · exact .ite (.raiseFatal hk) (.enterError hk)
  · exact hk

theorem Keeps.qmSend (hk : Keeps calm s t) {r : QmReq} : Keeps calm s (t.qmSend r) := by
  unfold State.qmSend
  refine .ite ?_ ?_
  · split
    exacts [.addReq hk, .qmLost hk]
  · dsimp only
    split
    · exact .startWalk (.rest hk)
    · exact .qmLost (.latchFault hk)
    · split
      · exact .startWalk (.rest (.ofEq ‹_› (.cacheParity hk)))
      · split
        exacts [.addReq (.countAccess (.ofEq ‹_› (.cacheParity hk))), .ofEq ‹_› (.cacheParity hk)]
      · exact hk

theorem Keeps.settleQm (hk : Keeps calm s t) {n : Nat} : Keeps calm s (State.settleQm n t) := by
  induction n generalizing t with
  | zero => exact hk
  | succ n ih =>
    unfold State.settleQm
    exact .ite (.startWalkers hk) (ih (.rest (.foldl (fun hk => .qmSend hk) (.rest (.startWalkers hk)))))

theorem Keeps.pumpRecords (hk : Keeps calm s t) : Keeps calm s t.pumpRecords := by
  unfold State.pumpRecords
  exact .foldl (fun hk => (by split; exacts [hk, .ite hk (.qmSend hk)])) hk

theorem Keeps.kick (hk : Keeps calm s t) {q : Nat} : Keeps calm s (t.kick q) := by
  unfold State.kick
  exact .ite (.qmSend (.setQueue (.ite (.ite (.qmSend (.setQueue hk)) (.endLastRead (.setQueue hk))) hk))) (.ite (.ite (.qmSend
      (.setQueue hk)) (.endLastRead (.setQueue hk))) hk)

theorem Keeps.liftMark (hk : Keeps calm s t) {q : Nat} : Keeps calm s (t.liftMark q) := by
  unfold State.liftMark
  exact .ite (.wantFetch (.setQueue hk)) hk

theorem Keeps.writeCons (hk : Keeps calm s t) {q : Nat} : Keeps calm s (t.writeCons q) := by
  unfold State.writeCons
  exact .ite hk (.qmSend (.setQueue hk))

theorem Keeps.becomeIdle (hk : Keeps calm s t) {q : Nat} : Keeps calm s (t.becomeIdle q) := by
  unfold State.becomeIdle
  refine .ite (.queueFlash ?_) ?_
  · split
    · split
      exacts [.signalOp (.setQueue hk), .setQueue hk]
    · exact .setQueue hk
  · split
    · split
      exacts [.signalOp (.setQueue hk), .setQueue hk]
    · exact .setQueue hk

theorem Keeps.settleIdle (hk : Keeps calm s t) {q : Nat} : Keeps calm s (t.settleIdle q) := by
  unfold State.settleIdle
  exact .ite (.ite hk (.becomeIdle hk)) (.setQueue hk)

theorem Keeps.trimFetch (hk : Keeps calm s t) : Keeps calm s t.trimFetch := by
  unfold State.trimFetch
  exact .rest hk

theorem Keeps.abortPump (hk : Keeps calm s t) {n : Nat} : Keeps calm s (State.abortPump n t) := by
  induction n generalizing t with
  | zero => exact hk
  | succ n ih =>
    have hs : Keeps calm s t.startWalkers := .startWalkers hk
    unfold State.abortPump
    dsimp only
    split
    · exact hs
    · exact .ite hs (.ite (ih (.rest (.qmSend (.rest hs)))) (.startWalkers (.rest (.rest (.qmSend (.rest hs))))))

theorem Keeps.pumpQm (hk : Keeps calm s t) : Keeps calm s t.pumpQm := by
  unfold State.pumpQm
  exact .ite (.trimFetch (.settleQm (.foldl (fun hk => .settleIdle hk) (.foldl (fun hk => .writeCons hk) (.foldl (fun hk => .kick hk) (.foldl
      (fun hk => .liftMark hk) (.pumpRecords (.pumpRecords (.pumpRecords (.pumpRecords (.settleQm (.sweepClaims hk)))))))))))) (.ite
      (.abortPump hk) hk)

theorem Keeps.doorbell (hk : Keeps calm s t) {q : Nat} : Keeps calm s (t.doorbell q) := by
  unfold State.doorbell
  refine .ite (.evQm hk) ?_
  split
  exacts [.evQm hk, .ite (.bump (.evQm hk)) (.ite (.wantFetch (.onQueue (.bump hk))) hk), .bump (.evQm hk)]

theorem Keeps.idxReturn (hk : Keeps calm s t) {q : Nat} {data : Bytes} : Keeps calm s (t.idxReturn q data) := by
  unfold State.idxReturn
  refine .ite (.endLastRead (.setQueue hk)) ?_
  dsimp only
  split
  · exact .wantFetch (.readAhead (.endLastRead (.onQueue (.setQueue hk))))
  · exact .ite (.raiseFatal (.setQueue hk)) (.endLastRead (.enterError (.setQueue hk)))

theorem Keeps.addDesc (hk : Keeps calm s t) {d : Desc} : Keeps calm s (t.addDesc d) := by
  unfold State.addDesc State.useId
  refine .putDescs hk fun hi => ?_
  obtain ⟨hr, hb⟩ := State.idsRise_iff.mp hi
  refine State.idsRise_iff.mpr ⟨?_, fun e he => ?_⟩
  · simpa [List.pairwise_append, hr] using hb
  · rcases List.mem_append.mp he with he | he
    · exact Nat.lt_succ_of_lt (hb e he)
    · obtain rfl := List.mem_singleton.mp he
      exact Nat.lt_succ_self _

theorem Keeps.chainFetched (hk : Keeps calm s t) {q f : Nat} {es : List Bytes} : Keeps calm s (t.chainFetched q f es) := by
  unfold State.chainFetched
  dsimp only
  split
  exacts [.useId (.onQueue (.ite (.onQueue hk) hk)), .addDesc (.ite (.onQueue hk) hk)]

theorem Keeps.adminFetched (hk : Keeps calm s t) {i : Nat} {e : Bytes} : Keeps calm s (t.adminFetched i e) := by
  unfold State.adminFetched
  exact .ite (.raiseFatal hk) (.ite (.rest hk) (.raiseFatal hk))

theorem Keeps.takeEntry (hk : Keeps calm s t) {q i : Nat} {e : Bytes} : Keeps calm s (t.takeEntry q i e) := by
  unfold State.takeEntry
  exact .ite (.ite (.ite (.adminFetched (.setQueue (.ite (.rest hk) hk))) (.chainFetched (.setQueue (.ite (.rest hk) hk)))) (.ite
      (.raiseFatal (.ite (.rest hk) hk)) (.setQueue (.ite (.rest hk) hk)))) (.ite (.raiseFatal (.ite (.rest hk) hk)) (.ite (.enterError (.ite
      (.rest hk) hk)) (.setQueue (.ite (.rest hk) hk))))

theorem Keeps.entReturn (hk : Keeps calm s t) {q i : Nat} {data : Bytes} : Keeps calm s (t.entReturn q i data) := by
  unfold State.entReturn
  refine .ite (.setQueue hk) (.ite (.takeEntry (.setQueue hk)) ?_)
  split
  exacts [.qmSend (.setQueue hk), .takeEntry (.setQueue hk)]

theorem Keeps.replayRead (hk : Keeps calm s t) {did : Nat} : Keeps calm s (t.replayRead did) := by
  unfold State.replayRead
  split
  exacts [hk, .ite (.qmSend (.setDesc hk)) hk]

theorem Keeps.replayAdvance (hk : Keeps calm s t) {did n : Nat} {mark : Bool} : Keeps calm s (t.replayAdvance did n mark) := by
  unfold State.replayAdvance
  exact .onDesc hk

theorem Keeps.replayStep (hk : Keeps calm s t) {did : Nat} : Keeps calm s (t.replayStep did) := by
  unfold State.replayStep
  split
  exacts [hk, .ite hk (.foldl (fun hk => .addDesc hk) (.setDesc hk))]

theorem Keeps.takeAdm (hk : Keeps calm s t) {a : Adm} : Keeps calm s (t.takeAdm a) := by
  unfold State.takeAdm
  split
  exacts [.onQueue (.replayAdvance hk), .onQueue hk]

theorem Keeps.stampRequests (hk : Keeps calm s t) : Keeps calm s t.stampRequests := by
  unfold State.stampRequests
  exact .foldl (fun hk => .useId (.onDesc hk)) (.foldl (fun hk => .ite (.useId (.onQueue hk)) hk)
    (.putQueues hk fun h => tsorted_map h _))

theorem Keeps.registerWaits (hk : Keeps calm s t) {did : Nat} : Keeps calm s (t.registerWaits did) := by
  unfold State.registerWaits
  split
  · exact hk
  · exact .settled (.foldl (fun hk => (by split; exacts [.ite (.meetWait hk) hk, hk])) (.registerClaim hk))

theorem Keeps.enter (hk : Keeps calm s t) {a : Adm} {mover : Option Nat} : Keeps calm s (t.enter a mover) := by
  unfold State.enter
  exact .registerWaits (.wakeGroup (.addDesc (.takeAdm hk)))

theorem Keeps.slotWait (hk : Keeps calm s t) {a : Adm} : Keeps calm s (t.slotWait a) := by
  unfold State.slotWait
  dsimp only
  split
  · split
    exacts [.ite hk (.bump (.setDesc hk)), hk]
  · split
    exacts [.ite hk (.bump (.onQueue hk)), hk]

theorem Keeps.closeReplay (hk : Keeps calm s t) {did : Nat} : Keeps calm s (t.closeReplay did) := by
  unfold State.closeReplay
  exact .onDesc hk (fun _ => by split <;> rfl)

theorem Keeps.pumpReplays (hk : Keeps calm s t) : Keeps calm s t.pumpReplays := by
  unfold State.pumpReplays
  exact .ite (.foldl (fun hk => .replayRead (.closeReplay (.replayStep hk))) hk) hk

theorem Keeps.pumpFlush (hk : Keeps calm s t) : Keeps calm s t.pumpFlush := by
  unfold State.pumpFlush
  exact .foldl (fun hk => .ite (.addReq hk) hk) hk

theorem Keeps.pump (hk : Keeps calm s t) : Keeps calm s t.pump := by
  unfold State.pump
  exact .pumpFlush (.stampRequests (.pumpQm hk))

theorem Keeps.admitNext (hk : Keeps calm s t) {q : Nat} : Keeps calm s (t.admitNext q) := by
  unfold State.admitNext
  split
  · exact hk
  · split
    · exact .addDesc (.takeAdm hk)
    · exact .ite hk (.ite (by split; exacts [.enter hk, .slotWait hk]) (.enter hk))

theorem Keeps.controlEcc (hk : Keeps calm s t) {q : Nat} : Keeps calm s (t.controlEcc q) := by
  unfold State.controlEcc
  split
  exacts [.ofEq ‹_› (.inject hk), .countEcc (.ofEq ‹_› (.inject hk)), .countEcc (.ofEq ‹_› (.inject hk))]

theorem Keeps.replayTake (hk : Keeps calm s t) {d : Desc} {e : Bytes} : Keeps calm s (t.replayTake d e) := by
  unfold State.replayTake
  refine .ite (.ite ?_ (.onDesc (.setDesc hk))) (.addDesc (.onDesc (.setDesc hk)))
  split
  exacts [.admitNext (.onDesc (.setDesc hk)), .addDesc (.replayAdvance (.onDesc (.setDesc hk)))]

theorem Keeps.beginControl (hk : Keeps calm s t) {did op : Nat} {run : State → Desc → State} (hf : ∀ {t d}, Keeps calm s t → Keeps calm s (run t d)) :
    Keeps calm s (t.beginControl did op run) := by
  unfold State.beginControl
  split
  · exact hk
  · exact .ite hk (.ite (.setDesc hk) (.ite (.setDesc hk) (.ite (.setDesc hk)
      (by split; exacts [.setDesc hk, .useId (.setDesc hk), hf (.useId hk)]))))

theorem Keeps.runNothing (hk : Keeps calm s t) {d : Desc} : Keeps calm s (t.runNothing d) := by
  unfold State.runNothing
  exact .setDesc hk

theorem Keeps.runFence (hk : Keeps calm s t) {d : Desc} : Keeps calm s (t.runFence d) := by
  unfold State.runFence
  exact .ite (.setDesc hk) (.ite (.setDesc hk) (.setDesc hk))

theorem Keeps.fence (hk : Keeps calm s t) {did : Nat} : Keeps calm s (t.fence did) := by
  unfold State.fence
  split
  exacts [hk, .ite (.runFence hk) (.beginControl hk (fun hk => .runFence hk))]

theorem Keeps.paramSet (hk : Keeps calm s t) {did : Nat} : Keeps calm s (t.paramSet did) := by
  unfold State.paramSet
  split
  exacts [hk, .ite (.beginControl hk (fun hk => .runNothing (.onQueue hk))) hk]

theorem Keeps.runReplay (hk : Keeps calm s t) {d : Desc} : Keeps calm s (t.runReplay d) := by
  unfold State.runReplay
  exact .pumpReplays (.setDesc hk)

theorem Keeps.streamFault (hk : Keeps calm s t) {d : Desc} {u : FUnit} {row : Nat} : Keeps calm s (t.streamFault d u row) := by
  unfold State.streamFault
  exact .ite (.setDesc (.latchFault hk)) (.setDesc (.latchFault hk))

theorem Keeps.askWake (hk : Keeps calm s t) {did va : Nat} : Keeps calm s (t.askWake did va) := by
  unfold State.askWake
  split
  · exact hk
  · dsimp only
    split
    exacts [.startWalkers (.startWalk hk), .ite (.wakePair (.onDesc hk)) (.onDesc hk), .onDesc hk]

theorem Keeps.askWakes (hk : Keeps calm s t) {did : Nat} : Keeps calm s (t.askWakes did) := by
  unfold State.askWakes
  exact .foldl (fun hk => .askWake hk) hk

theorem Keeps.setCport (hk : Keeps calm s t) {g : Nat} {x : CPort} : Keeps calm s (t.setCport g x) := by
  unfold State.setCport
  exact .rest hk

theorem Keeps.setChan (hk : Keeps calm s t) {g c : Nat} {ch : Channel} : Keeps calm s (t.setChan g c ch) := by
  unfold State.setChan
  exact .setCport hk

theorem Keeps.runData (hk : Keeps calm s t) {d : Desc} {g : Geo} : Keeps calm s (t.runData d g) := by
  unfold State.runData
  exact .ite (.setDesc (.useId hk)) (.askWakes (.ite (.setChan (.setDesc (.ite (.bump (.useId hk)) (.useId hk)))) (.setDesc (.ite (.bump
      (.useId hk)) (.useId hk)))))

theorem Keeps.beginPass (hk : Keeps calm s t) {d : Desc} {g : Geo} : Keeps calm s (t.beginPass d g) := by
  unfold State.beginPass
  split
  exacts [.setDesc hk, .useId (.setDesc hk), .ite hk (.runData hk)]

theorem Keeps.patternEcc (hk : Keeps calm s t) {g ctx : Nat} : Keeps calm s (t.patternEcc g ctx) := by
  have key (u : State) (k : Nat) (hu : Keeps calm s u) :
      Keeps calm s { u with images := tput u.images (patternMem g) { u.image (patternMem g) with damaged := [k] } } := .setImage hu id
  unfold State.patternEcc
  split
  · exact .ofEq ‹_› (.inject hk)
  · exact .countEcc (.ofEq ‹_› (.inject hk))
  · exact .countEcc (.useFree (key _ _ (.ofEq ‹_› (.inject hk))))

theorem Keeps.beginAbsent (hk : Keeps calm s t) {d : Desc} {g : Geo} : Keeps calm s (t.beginAbsent d g) := by
  unfold State.beginAbsent
  split
  exacts [.setDesc hk, .setDesc hk]

theorem Keeps.beginData (hk : Keeps calm s t) {did op : Nat} : Keeps calm s (t.beginData did op) := by
  unfold State.beginData
  split
  · exact hk
  · refine .ite hk (.ite (.beginAbsent hk) ?_)
    dsimp only
    split
    · exact .startWalkers (.startWalk hk)
    · split
      · split
        exacts [.streamFault hk, .beginPass hk, .beginPass hk]
      · exact .setDesc hk

theorem Keeps.beginStream (hk : Keeps calm s t) {did op : Nat} : Keeps calm s (t.beginStream did op) := by
  unfold State.beginStream
  split
  exacts [hk, .ite hk (.beginData (.patternEcc hk))]

theorem Keeps.linkPush (hk : Keeps calm s t) {l : Nat} {it : LinkItem} : Keeps calm s (t.linkPush l it) := by
  unfold State.linkPush
  exact .setLink hk

theorem Keeps.setLine (hk : Keeps calm s t) {n : Nat} {x : OutLine} : Keeps calm s (t.setLine n x) := by
  unfold State.setLine
  exact .rest hk

theorem Keeps.noteWait (hk : Keeps calm s t) {did chip : Nat} : Keeps calm s (t.noteWait did chip) := by
  unfold State.noteWait
  exact .ite hk (.bump (.rest hk))

theorem Keeps.lineFor (hk : Keeps calm s t) {did chip : Nat} : Keeps calm s (t.lineFor did chip).1 := by
  unfold State.lineFor
  split
  · exact hk
  · split
    · exact hk
    · split
      exacts [.noteWait hk, .setDesc (.setLine (.rest hk))]

theorem Keeps.endStream (hk : Keeps calm s t) {did status va : Nat} : Keeps calm s (t.endStream did status va) := by
  unfold State.endStream
  exact .onDesc hk (fun _ => by split <;> rfl)

theorem Keeps.dropLine (hk : Keeps calm s t) {n : Nat} : Keeps calm s (t.dropLine n) := by
  unfold State.dropLine
  split
  exacts [hk, .onDesc (.rest hk)]

theorem Keeps.loseLine (hk : Keeps calm s t) {n status va : Nat} : Keeps calm s (t.loseLine n status va) := by
  unfold State.loseLine
  split
  · exact hk
  · exact .dropLine (.endStream (.ite (.putQueues hk fun h => tsorted_tmod h ..) hk))

theorem Keeps.loopBlock (hk : Keeps calm s t) {b : LinkBlock} : Keeps calm s (t.loopBlock b) := by
  unfold State.loopBlock
  exact .rest hk

theorem Keeps.loopLine (hk : Keeps calm s t) {n : Nat} {x : OutLine} : Keeps calm s (t.loopLine n x) := by
  unfold State.loopLine
  exact .ite hk (.foldl (fun hk => .loopBlock hk) (.setLine hk))

theorem Keeps.pumpLine (hk : Keeps calm s t) {l n : Nat} : Keeps calm s (State.pumpLine l n t) := by
  induction n generalizing t with
  | zero => exact hk
  | succ n ih =>
    unfold State.pumpLine
    split
    · exact hk
    · refine .ite (.loopLine hk) ?_
      split
      · exact .ite hk (.loseLine hk)
      · refine .ite (.ite hk (.evFb hk)) ?_
        dsimp only
        split
        · exact .setLine hk
        · refine .ite (.setLine hk) ?_
          split
          · exact .setLine hk
          · exact ih (.linkPush (.setLine (.setLine hk)))

theorem Keeps.sealLine (hk : Keeps calm s t) {n : Nat} : Keeps calm s (t.sealLine n) := by
  unfold State.sealLine
  split
  exacts [hk, .ite (.pumpLine (.setLine hk)) hk]

theorem Keeps.sealLines (hk : Keeps calm s t) {did : Nat} : Keeps calm s (t.sealLines did) := by
  unfold State.sealLines
  exact .foldl (fun hk => .sealLine hk) hk

theorem Keeps.lineItem (hk :
    Keeps calm s t) {n : Nat} {x : Tag} {data : Bytes} {en : List Bool} {va : Nat} {tag : Option Nat} {unit : List Nat} : Keeps calm s
    (t.lineItem n x data en va tag unit) := by
  unfold State.lineItem
  split
  · exact hk
  · dsimp only
    split
    exacts [.pumpLine (.setLine hk), .pumpLine (.useId (.setLine hk))]

theorem Keeps.owe (hk : Keeps calm s t) {l : Option Nat} : Keeps calm s (t.owe l) := by
  unfold State.owe
  split
  exacts [.setLink hk, hk]

theorem Keeps.sendWaiting (hk : Keeps calm s t) {it : LinkItem} : Keeps calm s (t.sendWaiting it) := by
  unfold State.sendWaiting
  refine .ite (.owe (.loopBlock hk)) ?_
  split
  · split
    exacts [.loseLine hk, .ite (.evFb hk) hk]
  · split
    exacts [.rest hk, .owe (.linkPush hk)]

theorem Keeps.pumpTransit (hk : Keeps calm s t) : Keeps calm s t.pumpTransit := by
  unfold State.pumpTransit
  exact .foldl (fun hk => .sendWaiting hk) (.rest hk)

theorem Keeps.sendBlock (hk : Keeps calm s t) {it : LinkItem} : Keeps calm s (t.sendBlock it) := by
  unfold State.sendBlock
  exact .sendWaiting (by split; exacts [.ite hk (.evFb hk), hk])

theorem Keeps.settleFabric (hk : Keeps calm s t) : Keeps calm s t.settleFabric := by
  unfold State.settleFabric
  exact .foldl (fun hk => .pumpLine hk) (.pumpTransit hk)

theorem Keeps.remoteSig (hk : Keeps calm s t) {d : Desc} {chip : Nat} {w : Word} {amt : Nat} : Keeps calm s (t.remoteSig d chip w amt).1 := by
  unfold State.remoteSig
  refine .iteFst (.setDesc hk) (.iteFst (.setDesc hk) ?_)
  split
  exacts [.ofEq ‹_› (.lineFor hk), .lineItem (.onDesc (.ofEq ‹_› (.lineFor hk)))]

theorem Keeps.signal (hk : Keeps calm s t) {did k amt : Nat} : Keeps calm s (t.signal did k amt).1 := by
  unfold State.signal
  split
  · exact hk
  · split
    · exact hk
    · split
      · exact .remoteSig hk
      · exact .onDesc (.signalOp hk) fun d => by unfold sigRefused; split <;> rfl

theorem Keeps.runLate (hk : Keeps calm s t) {did n : Nat} : Keeps calm s (State.runLate did n t) := by
  induction n generalizing t with
  | zero => exact hk
  | succ n ih =>
    unfold State.runLate
    split
    · exact hk
    · split
      · exact hk
      · refine .ite ?_ hk
        split
        exacts [ih (.ofEq ‹_› (.signal (.setDesc hk))), .onDesc (.ofEq ‹_› (.signal (.setDesc hk)))]

theorem Keeps.runAllLate (hk : Keeps calm s t) : Keeps calm s t.runAllLate := by
  unfold State.runAllLate
  exact .foldl (fun hk => .runLate hk) hk

theorem Keeps.sliceDone (hk : Keeps calm s t) {did k : Nat} : Keeps calm s (t.sliceDone did k) := by
  unfold State.sliceDone
  split
  · exact hk
  · split
    · exact hk
    · refine .ite (.runLate (.useId (.onDesc (.setDesc hk)))) ?_
      split
      exacts [.ofEq ‹_› (.signal (.setDesc hk)), .onDesc (.ofEq ‹_› (.signal (.setDesc hk)))]

theorem Keeps.sliceLoop (hk : Keeps calm s t) {did k target n : Nat} : Keeps calm s (State.sliceLoop did k target n t) := by
  induction n generalizing t with
  | zero => exact hk
  | succ n ih =>
    unfold State.sliceLoop
    split
    exacts [hk, .ite (ih (.sliceDone hk)) hk]

theorem Keeps.sliceSignals (hk : Keeps calm s t) {did done : Nat} : Keeps calm s (t.sliceSignals did done) := by
  unfold State.sliceSignals
  exact .foldl (fun hk => (by split; exacts [hk, (by split; exacts [hk, .ite (.sliceLoop hk) hk])])) hk

theorem Keeps.finalSignals (hk : Keeps calm s t) {did : Nat} : Keeps calm s (t.finalSignals did) := by
  unfold State.finalSignals
  exact .foldl (fun hk => (by split; exacts [hk, (by split; exacts [hk, .ite hk (by split; exacts [.setDesc hk, (by split; exacts [.onDesc (.ofEq ‹_› (.signal hk)), (.ofEq ‹_› (.signal hk))])])])])) hk

theorem Keeps.closeLine (hk : Keeps calm s t) {n : Nat} : Keeps calm s (t.closeLine n) := by
  unfold State.closeLine
  split
  exacts [hk, .ite (.sendBlock (.dropLine hk)) (.dropLine hk)]

theorem Keeps.closeLines (hk : Keeps calm s t) {d : Desc} : Keeps calm s (t.closeLines d) := by
  unfold State.closeLines
  exact .foldl (fun hk => .closeLine hk) hk

theorem Keeps.freeChan (hk : Keeps calm s t) {d : Desc} : Keeps calm s (t.freeChan d) := by
  unfold State.freeChan
  split
  exacts [hk, .setChan hk]

theorem Keeps.childDone (hk : Keeps calm s t) {d : Desc} {parent : Nat} : Keeps calm s (t.childDone d parent) := by
  unfold State.childDone
  refine .readAhead (.onDesc (.errorStop (.dropDesc hk)) fun p => ?_)
  split
  · split <;> rfl
  · split <;> rfl

theorem Keeps.record (hk : Keeps calm s t) {did : Nat} : Keeps calm s (t.record did) := by
  unfold State.record
  split
  · exact hk
  · dsimp only
    split
    exacts [.childDone (.freeChan (.closeLines hk)), .setDesc (.freeChan (.closeLines hk))]

theorem Keeps.completeDesc (hk : Keeps calm s t) {did : Nat} : Keeps calm s (t.completeDesc did) := by
  unfold State.completeDesc
  split
  · exact hk
  · refine .ite hk (.ite (.sealLines hk) (.ite hk ?_))
    dsimp only
    split
    · exact .runLate hk
    · refine .ite (.runLate hk) ?_
      have hf (n : Nat) : Keeps calm s (((State.runLate did n t).finalSignals did).sealLines did) := .sealLines (.finalSignals (.runLate hk))
      split
      · exact hf _
      · exact .ite (hf _) (.record (hf _))

theorem Keeps.settleCores (hk : Keeps calm s t) : Keeps calm s t.settleCores := by
  unfold State.settleCores
  exact .mapDescs hk fun d => by unfold State.askCores; split <;> rfl

theorem Keeps.walkFor (hk : Keeps calm s t) {d : Desc} {va : Nat} : Keeps calm s (t.walkFor d va) := by
  unfold State.walkFor
  exact .startWalkers (.startWalk hk)

theorem Keeps.planCoalesced (hk : Keeps calm s t) {d : Desc} {i : List Nat} {u : FUnit} : Keeps calm s (t.planCoalesced d i u).1 := by
  have count (u : State) (n : Nat) (hu : Keeps calm s u) :
      Keeps calm s (if n = 0 then u else u.bump (Reg.mvReuseCnt (u.groupOf d.queue)) 31 0 n) := .ite hu (.bump hu)
  unfold State.planCoalesced
  split
  · exact .walkFor hk
  · exact .streamFault hk
  · dsimp only
    split
    · exact count _ _ (.setDesc hk)
    · refine .iteFst (count _ _ (.setDesc hk)) ?_
      split
      · exact hk
      · exact count _ _ (.setDesc hk)

theorem Keeps.planNext (hk : Keeps calm s t) {d : Desc} : Keeps calm s (t.planNext d).1 := by
  unfold State.planNext
  dsimp only
  split
  · exact .iteFst (.setDesc hk) hk
  · exact .iteFst (.planCoalesced hk) (.iteFst (.setDesc hk) (.iteFst (.setDesc hk) (.iteFst hk (.setDesc hk))))

theorem Keeps.planStep (hk : Keeps calm s t) {d : Desc} : Keeps calm s (t.planStep d).1 := by
  unfold State.planStep
  refine .iteFst ?_ (.iteFst ?_ ?_)
  · split
    exacts [.setDesc hk, hk]
  · split
    exacts [.setDesc hk, hk]
  · split
    exacts [.setDesc hk, .iteFst hk (.planNext hk)]

theorem Keeps.planReads (hk : Keeps calm s t) {did n : Nat} : Keeps calm s (State.planReads did n t) := by
  induction n generalizing t with
  | zero => exact hk
  | succ n ih =>
    unfold State.planReads
    split
    · exact hk
    · exact .ite hk (by split; exacts [ih (.ofEq ‹_› (.planStep hk)), (.ofEq ‹_› (.planStep hk))])

theorem Keeps.prepRead (hk : Keeps calm s t) {did : Nat} : Keeps calm s (t.prepRead did) := by
  unfold State.prepRead
  dsimp only
  split
  · exact .planReads hk
  · refine .ite (.planReads hk) ?_
    split
    · exact .planReads hk
    · split
      exacts [.walkFor (.planReads hk), .streamFault (.planReads hk), .planReads hk]

theorem Keeps.issueRead (hk : Keeps calm s t) {did : Nat} : Keeps calm s (t.issueRead did) := by
  unfold State.issueRead
  split
  · exact hk
  · split
    · exact hk
    · split
      · exact .walkFor (.ofEq ‹_› (.iteFst (.cacheParity hk) hk))
      · exact .ofEq ‹_› (.iteFst (.cacheParity hk) hk)
      · exact .addReq (.countAccess (.setDesc (.ofEq ‹_› (.iteFst (.cacheParity hk) hk))))

theorem Keeps.takeNotes (hk : Keeps calm s t) {did : Nat} {zeroTile : Bool} {n : Notes} : Keeps calm s (t.takeNotes did zeroTile n) := by
  unfold State.takeNotes
  split
  · exact hk
  · refine .setDesc ?_
    split
    · exact .ite (.ite hk (.bump hk)) (.bump (.ite hk (.bump hk)))
    · exact .ite (.bump (.bump (.bump (.ite (.ite hk (.bump hk)) (.bump (.ite hk (.bump hk))))))) (.ite (.bump (.ite (.ite hk (.bump hk))
        (.bump (.ite hk (.bump hk))))) (.bump (.bump (.ite (.ite hk (.bump hk)) (.bump (.ite hk (.bump hk)))))))

theorem Keeps.releaseIdx (hk : Keeps calm s t) {g c n : Nat} : Keeps calm s (t.releaseIdx g c n) := by
  unfold State.releaseIdx
  exact .foldl (fun hk => .emit hk) (.setChan hk)

theorem Keeps.freeIdx (hk : Keeps calm s t) {did : Nat} : Keeps calm s (t.freeIdx did) := by
  unfold State.freeIdx
  split
  exacts [hk, .ite (.ite (.releaseIdx (.setDesc hk)) hk) hk]

theorem Keeps.pastUnit (hk : Keeps calm s t) {did : Nat} : Keeps calm s (t.pastUnit did) := by
  unfold State.pastUnit
  split
  exacts [hk, .ite (.onDesc (.freeIdx (.sliceSignals (.setDesc hk))) (fun _ => by split <;> rfl)) (.freeIdx (.sliceSignals (.setDesc hk)))]

theorem Keeps.setOut (hk : Keeps calm s t) {d : Desc} {obj va : Nat} {m : Made} : Keeps calm s (t.setOut d obj va m) := by
  unfold State.setOut
  exact .useId (.setDesc hk)

theorem Keeps.restage (hk : Keeps calm s t) {d : Desc} : Keeps calm s (t.restage d) := by
  unfold State.restage
  exact .ite (.setDesc hk) (.bump (.setDesc hk))

theorem Keeps.lensOut (hk : Keeps calm s t) {did : Nat} : Keeps calm s (t.lensOut did).1 := by
  unfold State.lensOut
  split
  · exact hk
  · refine .iteFst hk ?_
    split
    · exact .ofEq ‹_› (.inject hk)
    · exact .onDesc (.bump (.countEcc (.ofEq ‹_› (.inject hk))))
    · exact .ifLive (.countEcc (.ofEq ‹_› (.inject hk))) (fun hk => .restage hk)

theorem Keeps.portSlots (hk : Keeps calm s t) {d : Desc} {kind chan : Nat} {data : Bytes} {ends : Bool} :
    Keeps calm s (t.portSlots d kind chan data ends) := by
  unfold State.portSlots
  exact .useId (.setCport hk)

theorem Keeps.openBytes (hk : Keeps calm s t) {d : Desc} {va : Nat} {m : Made} : Keeps calm s (t.openBytes d va m).1 := by
  unfold State.openBytes
  exact .iteFst (.ite (.onDesc hk) hk) (.useFree (.ite (.onDesc hk) hk))

theorem Keeps.makeNext (hk : Keeps calm s t) {did n : Nat} : Keeps calm s (State.makeNext did n t) := by
  induction n generalizing t with
  | zero => exact hk
  | succ n ih =>
    have hl (u : State) (b : Bool) (d : Nat) (h : t.lensOut d = (u, b)) : Keeps calm s u := .ofEq h (.lensOut hk)
    unfold State.makeNext
    split
    · exact hk
    · refine .ite hk (.ite hk ?_)
      dsimp only
      split
      · exact .setDesc hk
      · refine .ite (by split; exacts [.setOut hk, ih (.setDesc hk)]) ?_
        split
        · exact ih (.pastUnit hk)
        · split
          next h => exact hl _ _ _ h
          next h =>
            have hu := hl _ _ _ h
            split
            · exact .ite (.useFree hu) hu
            · refine .ite (ih (.pastUnit (.takeNotes (.portSlots (.ite (.useFree hu) hu)))))
                (.ite (.setOut (.ite (.useFree hu) hu)) ?_)
              split
              · exact .openBytes (.ite (.useFree hu) hu)
              · exact .setOut (.openBytes (.ite (.useFree hu) hu))

theorem Keeps.prepWrite (hk : Keeps calm s t) {did : Nat} : Keeps calm s (t.prepWrite did) := by
  have hm : Keeps calm s (State.makeNext did 64 t) := .makeNext hk
  unfold State.prepWrite
  dsimp only
  split
  · exact hm
  · split
    · exact hm
    · refine .ite hm (.ite (.foldl (fun hk => .ite hk (.noteWait hk)) hm) ?_)
      split
      · exact .walkFor hm
      · exact .streamFault hm
      · split
        · exact .walkFor (.ofEq ‹_› (.cacheParity hm))
        · exact .setDesc (.ofEq ‹_› (.cacheParity hm))

theorem Keeps.remotePart (hk : Keeps calm s t) {d : Desc} {u : OutUnit} {p : XPart} {chip : Nat} : Keeps calm s (t.remotePart d u p chip) := by
  unfold State.remotePart
  refine .ite (.setDesc hk) ?_
  split
  exacts [.ofEq ‹_› (.lineFor hk), .ite (.onDesc (.ofEq ‹_› (.lineFor hk))) (.lineItem (.countAccess (.onDesc (.ofEq ‹_› (.lineFor hk)))))]

theorem Keeps.localPart (hk : Keeps calm s t) {d : Desc} {u : OutUnit} {p : XPart} : Keeps calm s (t.localPart d u p) := by
  unfold State.localPart
  exact .ite (.setDesc hk) (by split; exacts [.setDesc hk, .addReq (.countAccess (.setDesc hk))])

theorem Keeps.portPart (hk : Keeps calm s t) {d : Desc} {u : OutUnit} {n : Nat} : Keeps calm s (t.portPart d u n) := by
  unfold State.portPart
  exact .onDesc (.portSlots hk)

theorem Keeps.issueWrite (hk : Keeps calm s t) {did : Nat} : Keeps calm s (t.issueWrite did) := by
  unfold State.issueWrite
  split
  · exact hk
  · split
    · dsimp only
      split
      · exact .ite (.portPart hk) (by split; exacts [.remotePart hk, .localPart hk])
      · refine .ite (.ite (.setDesc (.ite (.portPart hk) ?_)) (.pastUnit (.takeNotes (.ite (.portPart hk) ?_)))) (.ite (.portPart hk) ?_)
        · split
          exacts [.remotePart hk, .localPart hk]
        · split
          exacts [.remotePart hk, .localPart hk]
        · split
          exacts [.remotePart hk, .localPart hk]
    · exact hk

theorem Keeps.sealIdle (hk : Keeps calm s t) {did : Nat} : Keeps calm s (t.sealIdle did) := by
  unfold State.sealIdle
  split
  exacts [hk, .foldl (fun hk => .sealLine hk) hk]

theorem Keeps.moverPrep (hk : Keeps calm s t) {m : Nat} : Keeps calm s (t.moverPrep m) := by
  unfold State.moverPrep
  exact .foldl (fun hk => .sealIdle hk) (.foldl (fun hk => .runLate hk) (.foldl (fun hk => .prepWrite hk) (.foldl (fun hk => .prepRead hk)
      (.foldl (fun hk => .askWakes hk) hk))))

theorem Keeps.moverCycle (hk : Keeps calm s t) {m : Nat} : Keeps calm s (t.moverCycle m) := by
  unfold State.moverCycle
  exact .foldl (fun hk => .issueWrite hk) (by split; exacts [.issueWrite (.arbitrate (by split; exacts [.issueRead (.arbitrate (.moverPrep hk)), .arbitrate (.moverPrep hk)])), .arbitrate (by split; exacts [.issueRead (.arbitrate (.moverPrep hk)), .arbitrate (.moverPrep hk)])])

theorem Keeps.wakeReady (hk : Keeps calm s t) : Keeps calm s t.wakeReady := by
  unfold State.wakeReady
  exact .foldl (fun hk => .ite (.wakeGroup hk) hk) hk

theorem Keeps.dataCheck (hk : Keeps calm s t) {did va : Nat} : Keeps calm s (t.dataCheck did va) := by
  unfold State.dataCheck
  exact .onDesc hk (fun _ => by split <;> rfl)

theorem Keeps.scanList (hk : Keeps calm s t) {did n : Nat} : Keeps calm s (State.scanList did n t) := by
  induction n generalizing t with
  | zero => exact hk
  | succ n ih =>
    unfold State.scanList
    split
    · exact hk
    · refine .ite hk ?_
      dsimp only
      split
      · exact hk
      · split
        · exact .setDesc hk
        · exact ih (.ite (.bump (.setDesc hk)) (.setDesc hk))

theorem Keeps.takeSeeds (hk : Keeps calm s t) {did : Nat} : Keeps calm s (t.takeSeeds did) := by
  unfold State.takeSeeds
  split
  exacts [hk, .ite hk (.ite (.setDesc hk) (.setDesc hk))]

theorem Keeps.srcReturn (hk : Keeps calm s t) {did obj va off : Nat} {data : Bytes} : Keeps calm s (t.srcReturn did obj va off data) := by
  unfold State.srcReturn
  split
  · exact hk
  · refine .ite hk ?_
    dsimp only
    split
    · exact .setDesc hk
    · refine .ite (.setDesc hk) (.takeSeeds (.scanList ?_))
      split
      · exact .ofEq ‹_› (.inject (.setDesc hk))
      · exact .onDesc (.countEcc (.ofEq ‹_› (.inject (.setDesc hk))))
      · exact .ite (.dataCheck (.countEcc (.ofEq ‹_› (.inject (.setDesc hk))))) (.onDesc (.countEcc (.ofEq ‹_› (.inject (.setDesc hk)))))

theorem Keeps.sendInterim (hk : Keeps calm s t) {did : Nat} : Keeps calm s (t.sendInterim did) := by
  unfold State.sendInterim
  split
  exacts [hk, .qmSend hk]

theorem Keeps.haltStream (hk : Keeps calm s t) {d : Desc} : Keeps calm s (t.haltStream d) := by
  unfold State.haltStream
  dsimp only
  split
  exacts [.addReq (.bump (.useFree (.useId (.setDesc hk)))), .sendInterim (.bump (.useFree (.useId (.setDesc hk))))]

theorem Keeps.halt (hk : Keeps calm s t) {did : Nat} : Keeps calm s (t.halt did) := by
  unfold State.halt
  split
  exacts [hk, .ite (.haltStream hk) (.ite (.sendInterim hk) hk)]

theorem Keeps.makeRoom (hk : Keeps calm s t) {g need : Nat} {l : List Desc} : Keeps calm s (State.makeRoom g need l t) := by
  induction l generalizing t with
  | nil => exact hk
  | cons d l ih => exact .ite hk (ih (.bump (.onDesc hk)))

theorem Keeps.lensGrant (hk : Keeps calm s t) {g : Nat} : Keeps calm s (t.lensGrant g) := by
  unfold State.lensGrant
  split
  exacts [hk, .ite (.onDesc (.makeRoom hk)) (.makeRoom hk)]

theorem Keeps.wantBeacon (hk : Keeps calm s t) {l : Nat} : Keeps calm s (t.wantBeacon l) := by
  unfold State.wantBeacon
  exact .ite (.linkPush hk) hk

theorem Keeps.wantBeacons (hk : Keeps calm s t) : Keeps calm s t.wantBeacons := by
  unfold State.wantBeacons
  exact .foldl (fun hk => .wantBeacon hk) hk

theorem Keeps.train (hk : Keeps calm s t) {l : Nat} : Keeps calm s (t.train l) := by
  unfold State.train
  exact .wantBeacon (.setLink hk)

theorem Keeps.failLink (hk : Keeps calm s t) {l cause : Nat} : Keeps calm s (t.failLink l cause) := by
  unfold State.failLink
  exact .ite hk (.settleFabric (.logObj (.bump (.evFb (.dropLink hk)))))

theorem Keeps.lockLink (hk : Keeps calm s t) {l : Nat} : Keeps calm s (t.lockLink l) := by
  unfold State.lockLink
  exact .ite (.ite (.train (.setLink hk)) (.setLink hk)) hk

theorem Keeps.loseLock (hk : Keeps calm s t) {l : Nat} : Keeps calm s (t.loseLock l) := by
  unfold State.loseLock
  exact .ite (.setLink hk) (.failLink (.setLink hk))

theorem Keeps.restoreLink (hk : Keeps calm s t) {l : Nat} : Keeps calm s (t.restoreLink l) := by
  unfold State.restoreLink
  exact .ite (.train hk) hk

theorem Keeps.setChipId (hk : Keeps calm s t) {id origin : Nat} : Keeps calm s (t.setChipId id origin) := by
  unfold State.setChipId
  exact .ite hk (.wantBeacons (.logRec (.rest hk)))

theorem Keeps.fabricCommit (hk : Keeps calm s t) {island : Nat} : Keeps calm s (t.fabricCommit island) := by
  unfold State.fabricCommit
  exact .settleFabric (.ite (.wantBeacons (.ite (.setChipId (.foldl (fun hk => .ite (.setLink (.dropLink hk)) hk) hk)) (.foldl
      (fun hk => .ite (.setLink (.dropLink hk)) hk) hk))) (.ite (.setChipId (.foldl (fun hk => .ite (.setLink (.dropLink hk)) hk) hk))
      (.foldl (fun hk => .ite (.setLink (.dropLink hk)) hk) hk)))

theorem Keeps.tokenStep (hk : Keeps calm s t) : Keeps calm s t.tokenStep := by
  unfold State.tokenStep
  exact .ite (.fabricCommit (.token hk)) (.token hk)

theorem Keeps.tagReturns (hk : Keeps calm s t) {l : Nat} {x : Tag} : Keeps calm s (t.tagReturns l x) := by
  unfold State.tagReturns
  exact .setLink hk

theorem Keeps.resendFrom (hk : Keeps calm s t) {l i : Nat} : Keeps calm s (t.resendFrom l i) := by
  unfold State.resendFrom
  exact .ite hk (.ite (.failLink hk) (.setLink hk))

theorem Keeps.discardBlock (hk : Keeps calm s t) {l : Nat} : Keeps calm s (t.discardBlock l) := by
  unfold State.discardBlock
  exact .ite hk (.linkPush (.setLink hk))

theorem Keeps.crcFailure (hk : Keeps calm s t) {l : Nat} : Keeps calm s (t.crcFailure l) := by
  unfold State.crcFailure
  exact .discardBlock (.countEcc (.bump hk))

theorem Keeps.setIn (hk : Keeps calm s t) {k : Nat} {x : InLine} : Keeps calm s (t.setIn k x) := by
  unfold State.setIn
  exact .rest hk

theorem Keeps.freeIn (hk : Keeps calm s t) {k : Nat} : Keeps calm s (t.freeIn k) := by
  unfold State.freeIn
  exact .rest (.foldl (fun hk => .owe hk) hk)

theorem Keeps.refuseItem (hk : Keeps calm s t) {k seq code : Nat} : Keeps calm s (t.refuseItem k seq code) := by
  unfold State.refuseItem
  split
  exacts [hk, .ite hk (.setIn hk)]

theorem Keeps.applying (hk : Keeps calm s t) {k : Nat} {x : InLine} {seq parts : Nat} {came : Option Nat} :
    Keeps calm s (t.applying k x seq parts came) := by
  unfold State.applying
  exact .setIn hk

theorem Keeps.applyWrite (hk : Keeps calm s t) {k : Nat} {x : InLine} {y : Tag} {data : Bytes} {en : List Bool} {came : Option Nat} :
    Keeps calm s (t.applyWrite k x y data en came) := by
  unfold State.applyWrite
  exact .foldl (fun hk => by split; exacts [.addReq hk, hk]) (.applying hk)

theorem Keeps.applyAdd (hk : Keeps calm s t) {k : Nat} {x : InLine} {y : Tag} {data : Bytes} {came : Option Nat} :
    Keeps calm s (t.applyAdd k x y data came) := by
  unfold State.applyAdd
  exact .foldl (fun hk => by split; exacts [.addReq hk, hk]) (.applying hk)

theorem Keeps.remoteBuoy (hk : Keeps calm s t) {k : Nat} {x : Tag} : Keeps calm s (t.remoteBuoy k x) := by
  unfold State.remoteBuoy
  dsimp only
  split
  · exact .refuseItem (.evBy hk)
  · split
    exacts [.ofEq ‹_› (.signalOp hk), .refuseItem (.evBy (.ofEq ‹_› (.signalOp hk))), .refuseItem (.evBy (.ofEq ‹_› (.signalOp hk)))]

theorem Keeps.skipItem (hk : Keeps calm s t) {k : Nat} : Keeps calm s (t.skipItem k) := by
  unfold State.skipItem
  split
  exacts [hk, .setIn hk]

theorem Keeps.applyItem (hk : Keeps calm s t) {k : Nat} {x : InLine} {came : Option Nat} {b : LinkBlock} : Keeps calm s (t.applyItem k x came b).1 := by
  unfold State.applyItem
  exact .iteFst (.owe (.freeIn hk)) (.iteFst (.owe (.skipItem hk)) (.iteFst (.iteFst (.owe (.remoteBuoy (.skipItem hk))) hk) (.iteFst (.ite
      (.applyAdd hk) (.applyWrite hk)) (.owe (.skipItem (.refuseItem (.evFb hk)))))))

theorem Keeps.applyLine (hk : Keeps calm s t) {k n : Nat} : Keeps calm s (State.applyLine k n t) := by
  induction n generalizing t with
  | zero => exact hk
  | succ n ih =>
    unfold State.applyLine
    split
    · exact hk
    · split
      · exact hk
      · dsimp only
        split
        exacts [ih (.ofEq ‹_› (.applyItem (.setIn hk))), hk]

theorem Keeps.sendBusy (hk : Keeps calm s t) {x : Tag} : Keeps calm s (t.sendBusy x) := by
  unfold State.sendBusy
  exact .sendBlock hk

theorem Keeps.lineEntry (hk : Keeps calm s t) {x : Tag} {b : LinkBlock} : Keeps calm s (t.lineEntry x b).1 := by
  unfold State.lineEntry
  split
  · exact .iteFst (.setIn hk) (.iteFst (.setIn (.freeIn hk)) hk)
  · split
    exacts [.setIn hk, .ite (.sendBusy hk) hk]

theorem Keeps.takeLine (hk : Keeps calm s t) {l : Option Nat} {x : Tag} {b : LinkBlock} : Keeps calm s (t.takeLine l x b) := by
  unfold State.takeLine
  split
  · exact .owe (.ofEq ‹_› (.lineEntry hk))
  · split
    · exact .ofEq ‹_› (.lineEntry hk)
    · exact .ite (.owe (.ofEq ‹_› (.lineEntry hk))) (.applyLine (.rest (.ite (.owe (.setIn (.ofEq ‹_› (.lineEntry hk)))) (.setIn (.ofEq ‹_›
        (.lineEntry hk))))))

theorem Keeps.storeRefuses (hk : Keeps calm s t) {l : Nat} {x : Tag} : Keeps calm s (t.storeRefuses l x).1 := by
  unfold State.storeRefuses
  refine .iteFst hk (.iteFst hk ?_)
  dsimp only
  split
  · exact .ofEq ‹_› (.inject hk)
  · exact .countEcc (.ofEq ‹_› (.inject hk))
  · exact .countEcc (.ofEq ‹_› (.inject hk))

theorem Keeps.inboundDone (hk : Keeps calm s t) {k seq : Nat} : Keeps calm s (t.inboundDone k seq) := by
  unfold State.inboundDone
  split
  exacts [hk, .applyLine (.setIn (.foldl (fun hk => .owe hk) hk))]

theorem Keeps.lineAck (hk : Keeps calm s t) {k : Nat} : Keeps calm s (t.lineAck k) := by
  unfold State.lineAck
  split
  exacts [hk, .ite hk (.sendBlock (.setIn hk))]

theorem Keeps.takeLineAck (hk : Keeps calm s t) {x : Tag} : Keeps calm s (t.takeLineAck x) := by
  unfold State.takeLineAck
  split
  · exact hk
  · refine .ite hk (.ite (.freeIdx (.runAllLate (.onDesc (.setLine hk)))) ?_)
    split
    exacts [hk, .endStream (.setLine hk)]

theorem Keeps.takeBusy (hk : Keeps calm s t) {x : Tag} : Keeps calm s (t.takeBusy x) := by
  unfold State.takeBusy
  split
  exacts [.ite (.setLine hk) hk, hk]

theorem Keeps.busyRetry (hk : Keeps calm s t) {n : Nat} : Keeps calm s (t.busyRetry n) := by
  unfold State.busyRetry
  split
  exacts [.ite (.pumpLine (.setLine hk)) hk, hk]

theorem Keeps.lineRetry (hk : Keeps calm s t) {n : Nat} : Keeps calm s (t.lineRetry n) := by
  unfold State.lineRetry
  split
  · exact .ite hk (by split; exacts [.loseLine hk, .pumpLine (.setLine hk)])
  · exact hk

theorem Keeps.lineLost (hk : Keeps calm s t) {n : Nat} : Keeps calm s (t.lineLost n) := by
  unfold State.lineLost
  split
  · split
    exacts [.loseLine hk, hk]
  · exact hk

theorem Keeps.forward (hk : Keeps calm s t) {l : Nat} {x : Tag} {b : LinkBlock} : Keeps calm s (t.forward l x b) := by
  unfold State.forward
  exact .ite (.sendBlock hk) (.owe (.evFb hk))

theorem Keeps.deliver (hk : Keeps calm s t) {l : Nat} {x : Tag} {b : LinkBlock} {here : State → State} (hf : ∀ {t}, Keeps calm s t → Keeps calm s (here t)) :
    Keeps calm s (t.deliver l x b here) := by
  unfold State.deliver
  exact .ite (.owe hk) (.ite (hf hk) (.forward hk))

theorem Keeps.receive (hk : Keeps calm s t) {l kind : Nat} {b : LinkBlock} {f : State → Tag → State}
    (hf : ∀ {t x}, Keeps calm s t → Keeps calm s (f t x)) : Keeps calm s (t.receive l kind b f) := by
  have hi : Keeps calm s (t.inject 11 l none).1 := .inject hk
  have hs : Keeps calm s (if (t.inject 11 l none).1.fab.idValid && (tagFields b).dst == (t.inject 11 l none).1.fab.chipId then
      (t.inject 11 l none).1.storeRefuses l (tagFields b) else ((t.inject 11 l none).1, false)).1 := by
    split
    · exact .storeRefuses hi
    · exact hi
  unfold State.receive
  exact .ite hk (.ite (.crcFailure hi) (.ite hi (.ite (.discardBlock hi) (.ite (.discardBlock hs)
    (.settleFabric (hf (.tagReturns (.setLink hs))))))))

theorem Keeps.receiveLine (hk : Keeps calm s t) {l kind : Nat} {b : LinkBlock} : Keeps calm s (t.receiveLine l kind b) := by
  unfold State.receiveLine
  exact .receive hk (fun hk => .deliver hk (fun hk => .takeLine hk))

theorem Keeps.takeBeacon (hk : Keeps calm s t) {l : Nat} {b : LinkBlock} : Keeps calm s (t.takeBeacon l b) := by
  unfold State.takeBeacon
  exact .ite (.setLink (.ite (.evFb (.ite (.rest (.setChipId (.setLink (.ite (.evFb hk) hk)))) (.setLink (.ite (.evFb hk) hk)))) (.ite (.rest
      (.setChipId (.setLink (.ite (.evFb hk) hk)))) (.setLink (.ite (.evFb hk) hk))))) (.wantBeacon (.setLink (.ite (.evFb (.ite (.rest
      (.setChipId (.setLink (.ite (.evFb hk) hk)))) (.setLink (.ite (.evFb hk) hk)))) (.ite (.rest (.setChipId (.setLink (.ite
      (.evFb hk) hk)))) (.setLink (.ite (.evFb hk) hk))))))

theorem Keeps.takeFog (hk : Keeps calm s t) {l : Nat} {b : LinkBlock} : Keeps calm s (t.takeFog l b) := by
  unfold State.takeFog
  exact .foldl (fun hk => .loseLine hk) (.foldl (fun hk => .freeIn hk) (.foldl (fun hk => .failLink hk) (.evFb (.setReg hk))))

theorem Keeps.takeNack (hk : Keeps calm s t) {l : Nat} : Keeps calm s (t.takeNack l) := by
  unfold State.takeNack
  exact .resendFrom hk

theorem Keeps.localBlock (hk : Keeps calm s t) {b : LinkBlock} : Keeps calm s (t.localBlock b) := by
  unfold State.localBlock
  exact .ite (.takeLineAck hk) (.ite (.takeBusy hk) (.takeLine hk))

theorem Keeps.drainLoop (hk : Keeps calm s t) {n : Nat} : Keeps calm s (State.drainLoop n t) := by
  induction n generalizing t with
  | zero => exact hk
  | succ n ih =>
    unfold State.drainLoop
    split
    exacts [hk, ih (.localBlock (.rest hk))]

theorem Keeps.deliverLocal (hk : Keeps calm s t) : Keeps calm s t.deliverLocal := by
  unfold State.deliverLocal
  exact .drainLoop hk

theorem Keeps.countSend (hk : Keeps calm s t) {it : LinkItem} : Keeps calm s (t.countSend it) := by
  unfold State.countSend
  split
  · exact hk
  · split
    exacts [hk, .setLine hk]

theorem Keeps.sendAgain (hk : Keeps calm s t) {l i : Nat} : Keeps calm s (t.sendAgain l i) := by
  unfold State.sendAgain
  dsimp only
  split
  · exact .setLink hk
  · split
    · exact .loseLine (.countSend (.emit (.bump (.setLink hk))))
    · exact .countSend (.emit (.bump (.setLink hk)))

theorem Keeps.sendFirst (hk : Keeps calm s t) {l : Nat} {it : LinkItem} : Keeps calm s (t.sendFirst l it) := by
  unfold State.sendFirst
  split
  exacts [.loseLine hk, .countSend (.emit (.setLink hk))]

theorem Keeps.linkSend (hk : Keeps calm s t) {l : Nat} : Keeps calm s (t.linkSend l) := by
  unfold State.linkSend
  dsimp only
  split
  · exact .sendFirst hk
  · split
    · exact .ite (.sendAgain hk) hk
    · split
      next u c h =>
        have hu : Keeps calm s u := .ofEq h (.arbitrate hk)
        cases ((t.link l).queue[c.id]?) with
        | none => exact hu
        | some it => exact .sendFirst hu
      next u h => exact .ofEq h (.arbitrate hk)

theorem Keeps.linkTurn (hk : Keeps calm s t) {l : Nat} : Keeps calm s (t.linkTurn l) := by
  unfold State.linkTurn
  exact .ite hk (.ite (.ite (.emit hk) hk) (.ite (.settleFabric (.linkSend hk)) hk))

theorem Keeps.linkIdleTag (hk : Keeps calm s t) {l : Nat} : Keeps calm s (t.linkIdleTag l) := by
  unfold State.linkIdleTag
  exact .ite (.sendFirst hk) hk

theorem Keeps.ackTimeout (hk : Keeps calm s t) {l : Nat} : Keeps calm s (t.ackTimeout l) := by
  unfold State.ackTimeout
  exact .ite (.ite (.failLink (.setLink (.bump hk))) (.resendFrom (.setLink (.bump hk)))) hk

theorem Keeps.liftGrant (hk : Keeps calm s t) {u : Nat} : Keeps calm s (t.liftGrant u) := by
  unfold State.liftGrant
  split
  exacts [hk, .ite (.setDesc hk) hk]

theorem Keeps.liftTurn (hk : Keeps calm s t) {u : Nat} : Keeps calm s (t.liftTurn u).1 := by
  unfold State.liftTurn
  dsimp only
  split
  · exact .rest hk
  · split
    · exact .rest hk
    · exact hk

theorem Keeps.liftReread (hk : Keeps calm s t) {d : Desc} : Keeps calm s (t.liftReread d) := by
  unfold State.liftReread
  dsimp only
  split
  exacts [.setDesc hk, .setDesc hk]

theorem Keeps.liftPort (hk : Keeps calm s t) {did n : Nat} : Keeps calm s (State.liftPort did n t) := by
  induction n generalizing t with
  | zero => exact hk
  | succ n ih =>
    unfold State.liftPort
    split
    · exact hk
    · refine .ite hk ?_
      split
      · exact .setDesc hk
      · dsimp only
        split
        · exact .onDesc (.pastUnit (by split; exacts [.onDesc (.portSlots hk), hk]))
        · refine .ite (ih (.onDesc (.pastUnit (.takeNotes (.portSlots ?_))))) (.ite (.onDesc (.pastUnit (.takeNotes (.portSlots ?_)))) ?_)
          · split
            exacts [.onDesc (.portSlots hk), hk]
          · split
            exacts [.onDesc (.portSlots hk), hk]
          · split
            exacts [.onDesc (.portSlots hk), hk]

theorem Keeps.liftCycle (hk : Keeps calm s t) {u : Nat} : Keeps calm s (t.liftCycle u) := by
  unfold State.liftCycle
  split
  · exact .ofEq ‹_› (.liftTurn hk)
  · split
    · exact .setDesc (.ofEq ‹_› (.liftTurn hk))
    · dsimp only
      split
      · exact .ite (.liftPort (.ofEq ‹_› (.inject (.ofEq ‹_› (.liftTurn hk))))) (.onDesc (.ofEq ‹_› (.inject (.ofEq ‹_› (.liftTurn hk)))))
      · exact .ite (.liftPort (.onDesc (.bump (.countEcc (.ofEq ‹_› (.inject (.ofEq ‹_› (.liftTurn hk)))))))) (.onDesc (.onDesc (.bump
          (.countEcc (.ofEq ‹_› (.inject (.ofEq ‹_› (.liftTurn hk))))))))
      · exact .ifLive (.countEcc (.ofEq ‹_› (.inject (.ofEq ‹_› (.liftTurn hk))))) (fun hk => .liftReread hk)

theorem Keeps.startCore (hk : Keeps calm s t) {d : Desc} {i r limb : Nat} : Keeps calm s (t.startCore d i r limb) := by
  unfold State.startCore
  dsimp only
  split
  exacts [.setDesc hk, .bump (.setDesc hk)]

theorem Keeps.giveCores (hk : Keeps calm s t) {did n : Nat} : Keeps calm s (State.giveCores did n t) := by
  induction n generalizing t with
  | zero => exact hk
  | succ n ih =>
    unfold State.giveCores
    split
    · exact hk
    · split
      exacts [ih (.startCore hk), hk]

theorem Keeps.takeBack (hk : Keeps calm s t) {g need : Nat} {l : List (Nat × Nat)} : Keeps calm s (State.takeBack g need l t) := by
  induction l generalizing t with
  | nil => exact hk
  | cons p l ih => exact .ite hk (ih (.onDesc hk))

theorem Keeps.coreGrant (hk : Keeps calm s t) {g : Nat} : Keeps calm s (t.coreGrant g) := by
  unfold State.coreGrant
  split
  exacts [hk, .ite (.settleCores (.giveCores (.ite (.takeBack hk) hk))) (.settleCores (.ite (.takeBack hk) hk))]

theorem Keeps.parityRetry (hk : Keeps calm s t) {d : Desc} {c : Core} : Keeps calm s (t.parityRetry d c) := by
  unfold State.parityRetry
  exact .ite (.setDesc hk) (.bump (.setDesc hk))

theorem Keeps.xof (hk : Keeps calm s t) {g core : Nat} {parityFail : Bool} : Keeps calm s (t.xof g core parityFail) := by
  unfold State.xof
  split
  · exact hk
  · exact .ite hk (.ite (.ifLive (.countEcc (.inject hk)) (fun hk => .parityRetry hk)) (.ite (.settleCores (.bump (.bump (.bump (.useId
      (.setDesc (.inject hk))))))) (.bump (.bump (.useId (.setDesc (.inject hk)))))))

theorem Keeps.bySignal (hk : Keeps calm s t) {p : Port} {part : Part} {v : Word} : Keeps calm s (t.bySignal p part v) := by
  unfold State.bySignal
  exact .ite hk (.drainHeld (.setHeld hk))

theorem Keeps.bySet (hk : Keeps calm s t) {p : Port} {part : Part} {v : Word} : Keeps calm s (t.bySet p part v) := by
  unfold State.bySet
  split
  · exact hk
  · exact .ite hk (by split; exacts [.evBy hk, .logRec (.evBy (.buoyOp (.setBuoy hk)))])

theorem Keeps.armRes (hk : Keeps calm s t) {p : Port} {result handle : Nat} : Keeps calm s (t.armRes p result handle) := by
  unfold State.armRes
  exact .setReg hk

theorem Keeps.armFail (hk : Keeps calm s t) {p : Port} {result : Nat} : Keeps calm s (t.armFail p result) := by
  unfold State.armFail
  exact .ite (.useFree (.armRes hk)) (.evBy (.useFree (.armRes hk)))

theorem Keeps.armIn (hk : Keeps calm s t) {slot : Nat} {w : Watch} : Keeps calm s (t.armIn slot w) := by
  unfold State.armIn
  exact .ite (.settleClaims (.setClaimants (.rest hk))) (.ite (.fireWatch (.rest hk)) (.rest hk))

theorem Keeps.byArm (hk : Keeps calm s t) {p : Port} {part : Part} {v : Word} : Keeps calm s (t.byArm p part v) := by
  unfold State.byArm
  refine .ite hk (.ite (.armFail hk) ?_)
  split
  · exact .armFail hk
  · exact .ite (.armFail hk) (by dsimp only; split; exacts [.armFail hk, .ite (.armFail hk) (.armRes (.armIn hk))])

theorem Keeps.byDisarm (hk : Keeps calm s t) {p : Port} {part : Part} {v : Word} : Keeps calm s (t.byDisarm p part v) := by
  unfold State.byDisarm
  exact .ite hk (by dsimp only; split; exacts [.armFail hk, .ite (.armFail hk) (.armRes (.sweepClaims (.rest hk)))])

theorem Keeps.fqLost (hk : Keeps calm s t) {f : Nat} : Keeps calm s (t.fqLost f) := by
  unfold State.fqLost
  exact .event hk

theorem Keeps.fqEcc (hk : Keeps calm s t) {f i : Nat} {cells : List (List Flash)} : Keeps calm s (t.fqEcc f i cells).1 := by
  unfold State.fqEcc
  split
  · exact .ofEq ‹_› (.inject hk)
  · exact .bump (.countEcc (.ofEq ‹_› (.inject hk)))
  · exact .iteFst (.fqLost (.useFree (.countEcc (.ofEq ‹_› (.inject hk))))) (.foldl (fun hk => .fqLost hk) (.useFree (.countEcc (.ofEq ‹_›
      (.inject hk)))))

theorem Keeps.fqTake (hk : Keeps calm s t) {f : Nat} : Keeps calm s (t.fqTake f) := by
  unfold State.fqTake
  dsimp only
  split
  exacts [.ite (.setFq (.fqEcc hk)) (.setFq hk), .setFq hk]

theorem Keeps.emptyAhead (hk : Keeps calm s t) {p : Port} : Keeps calm s (t.emptyAhead p) := by
  unfold State.emptyAhead
  split
  exacts [.rest hk, hk]

theorem Keeps.bySelRead (hk : Keeps calm s t) {p : Port} {val : Bool} : Keeps calm s (t.bySelRead p val) := by
  unfold State.bySelRead
  exact .ite (.ite (.emptyAhead hk) hk) (.evBy hk)

theorem Keeps.fqRead (hk : Keeps calm s t) {p : Port} {f : Nat} : Keeps calm s (t.fqRead p f) := by
  unfold State.fqRead
  exact .ite hk (.ite (.emit (.fqTake (.emptyAhead hk))) (.emit (.evBy (.emptyAhead hk))))

theorem Keeps.fqCtrl (hk : Keeps calm s t) {p : Port} {f op : Nat} : Keeps calm s (t.fqCtrl p f op) := by
  unfold State.fqCtrl
  exact .ite hk (.ite (.ite (.setFq hk) hk) (.evBy hk))

theorem Keeps.waitReport (hk : Keeps calm s t) {g : Nat} : Keeps calm s (t.waitReport g) := by
  unfold State.waitReport
  exact .ite hk (.pmSend (.foldl (fun hk => .setPair hk) (.bump (.setReg hk))))

theorem Keeps.tpWrite (hk : Keeps calm s t) {p : Port} {off : Nat} {f : State → State} (hf : ∀ {t}, Keeps calm s t → Keeps calm s (f t)) :
    Keeps calm s (t.tpWrite p off f) := by
  unfold State.tpWrite
  exact .ite hk (.logRec (hf hk))

theorem Keeps.tpPlain (hk : Keeps calm s t) {p : Port} {off : Nat} {part : Part} {v : Word} : Keeps calm s (t.tpPlain p off part v) := by
  unfold State.tpPlain
  exact .tpWrite hk (fun hk => .ite hk (.writeFields hk))

theorem Keeps.tpInj (hk : Keeps calm s t) {p : Port} {part : Part} {v : Word} : Keeps calm s (t.tpInj p part v) := by
  unfold State.tpInj
  exact .tpWrite hk (fun hk => .ite hk (.rest (.writeFields hk)))

theorem Keeps.tpLock (hk : Keeps calm s t) {p : Port} : Keeps calm s (t.tpLock p) := by
  unfold State.tpLock
  exact .tpWrite hk (fun hk => .rest hk)

theorem Keeps.tgWrite (hk : Keeps calm s t) {port : Port} {p : Nat} {part : Part} {v0 : Word} : Keeps calm s (t.tgWrite port p part v0) := by
  unfold State.tgWrite
  exact .ite hk (.tpWrite hk (fun hk => .ite (.writeFields hk) (.ite (.writeFields hk) (.ite (.setReg (.writeFields hk)) (.ite (.setReg
      (.writeFields hk)) (.rest (.setReg (.setReg (.writeFields hk)))))))))

theorem Keeps.tgStep (hk : Keeps calm s t) {p : Nat} : Keeps calm s (t.tgStep p) := by
  unfold State.tgStep
  dsimp only
  split
  · split
    · exact hk
    · split
      · exact .rest hk
      · exact .ite hk (.rest (.ite (.setReg (.addReq hk)) (.addReq hk)))
  · exact hk

theorem Keeps.tgDone (hk : Keeps calm s t) {p : Nat} {r : MemReq} {data : Bytes} {poison : Bool} : Keeps calm s (t.tgDone p r data poison) := by
  unfold State.tgDone
  refine .ite ?_ (.bump hk)
  dsimp only
  split
  exacts [.ite (.bumpSat (.bump hk)) (.rest (.setReg (.bumpSat (.bump hk)))), .bumpSat (.bump hk)]

theorem Keeps.sendRsps (hk : Keeps calm s t) {g n : Nat} : Keeps calm s (State.sendRsps g n t) := by
  induction n generalizing t with
  | zero => exact hk
  | succ n ih =>
    unfold State.sendRsps
    dsimp only
    split
    · exact hk
    · exact .ite (ih (.emit (.setCport hk))) hk

theorem Keeps.cpDone (hk : Keeps calm s t) {g rsp off : Nat} {data : Bytes} {err : Bool} : Keeps calm s (t.cpDone g rsp off data err) := by
  unfold State.cpDone
  exact .sendRsps (.setCport hk)

theorem Keeps.dropAhead (hk : Keeps calm s t) {g o len : Nat} : Keeps calm s (t.dropAhead g o len) := by
  unfold State.dropAhead
  exact .setCport hk

theorem Keeps.putAhead (hk : Keeps calm s t) {g gran : Nat} {data : Bytes} : Keeps calm s (t.putAhead g gran data) := by
  unfold State.putAhead
  exact .useFree (.setCport hk)

theorem Keeps.aheadDone (hk : Keeps calm s t) {g o : Nat} {data : Bytes} : Keeps calm s (t.aheadDone g o data) := by
  unfold State.aheadDone
  exact .foldl (fun hk => .putAhead hk) hk

theorem Keeps.reissue (hk : Keeps calm s t) {r : MemReq} : Keeps calm s (t.reissue r) := by
  unfold State.reissue
  split
  exacts [hk, .rest (.dropReq hk)]

theorem Keeps.writeDone (hk : Keeps calm s t) {r : MemReq} : Keeps calm s (t.writeDone r) := by
  unfold State.writeDone
  dsimp only
  split
  · exact .freeIdx (.runAllLate (.dropReq hk))
  · exact .freeIdx (.runAllLate (.onDesc (.dropReq hk)))
  · exact .ite (.chainDone (.countRecord (.dropReq hk))) (.recordDone (.dropReq hk))
  · exact .interimDone (.dropReq hk)
  · exact .ite (.sendInterim (.dropReq hk)) (.dropReq hk)
  · exact .inboundDone (.dropReq hk)
  · exact .inboundDone (.dropReq hk)
  · exact .cpDone (.dropAhead (.dropReq hk))
  · exact .tgDone (.dropReq hk)
  · exact .dropReq hk

theorem Keeps.flushDone (hk : Keeps calm s t) {e : Nat} {f : MemReq} : Keeps calm s (t.flushDone e f) := by
  unfold State.flushDone
  exact .foldl (fun hk => .writeDone hk) (.dropReq hk)

theorem Keeps.failStream (hk : Keeps calm s t) {did status va : Nat} : Keeps calm s (t.failStream did status va) := by
  unfold State.failStream
  exact .onDesc hk (fun _ => by split <;> rfl)

theorem Keeps.loseAccess (hk : Keeps calm s t) {r : MemReq} {row did obj va : Nat} : Keeps calm s (t.loseAccess r row did obj va) := by
  unfold State.loseAccess
  exact .runAllLate (.failStream (.ite hk (.latchFault hk)))

theorem Keeps.resumeRead (hk : Keeps calm s t) : Keeps calm s t.resumeRead := by
  unfold State.resumeRead
  split
  exacts [.ite (.adminRecord hk) hk, hk]

theorem Keeps.recordBad (hk : Keeps calm s t) {did : Nat} : Keeps calm s (t.recordBad did) := by
  unfold State.recordBad
  split
  exacts [hk, .setDesc (.bump hk)]

theorem Keeps.recordRead (hk : Keeps calm s t) {did : Nat} {data : Bytes} {bad : Bool} : Keeps calm s (t.recordRead did data bad) := by
  unfold State.recordRead
  dsimp only
  split
  · exact .ite (.inject hk) (.countEcc (.inject hk))
  · exact .ite (.recordBad (.ite (.inject hk) (.countEcc (.inject hk)))) (.bump (.useId (.setDesc (.ite (.inject hk) (.countEcc (.inject hk))))))

theorem Keeps.lostAccess (hk : Keeps calm s t) {r : MemReq} {row : Nat} : Keeps calm s (t.lostAccess r row) := by
  unfold State.lostAccess
  dsimp only
  split
  · exact .ite (.loseAccess (.dropReq hk)) (.dropReq hk)
  · exact .loseAccess (.dropReq hk)
  · exact .loseAccess (.onDesc (.dropReq hk))
  · split
    exacts [.ite (.endWalk (.dropReq hk)) (.endWalk (.evAt (.dropReq hk))), .dropReq hk]
  · exact .sendInterim (.dropReq hk)
  · exact .resumeRead (.recordBad (.dropReq hk))
  · exact .cpDone (.dropReq hk)
  · exact .inboundDone (.refuseItem (.evFb (.dropReq hk)))
  · exact .inboundDone (.refuseItem (.evFb (.dropReq hk)))
  · exact .tgDone (.dropReq hk)
  · exact .dropReq hk
  · split
    exacts [.qmLost (.dropReq hk), .dropReq hk]

theorem Keeps.portEcc (hk : Keeps calm s t) {r : MemReq} {poison ce : Bool} : Keeps calm s (t.portEcc r poison ce).1 := by
  unfold State.portEcc
  split
  exacts [.ite (.countEcc (.ite (.countEcc (.inject hk)) (.inject hk))) (.ite (.countEcc (.inject hk)) (.inject hk)), hk]

theorem Keeps.addCorrected (hk : Keeps calm s t) {did : Nat} {corr : Bool} : Keeps calm s (t.addCorrected did corr) := by
  unfold State.addCorrected
  exact .ite (.onDesc hk) hk

theorem Keeps.memRead (hk : Keeps calm s t) {r : MemReq} {data : Bytes} {poison ce : Bool} : Keeps calm s (t.memRead r data poison ce) := by
  unfold State.memRead
  refine .ite (.reissue (.portEcc hk)) ?_
  split
  · exact .ite (.ite (.dataCheck (.addCorrected (.dropReq (.portEcc hk)))) (.addCorrected (.dropReq (.portEcc hk)))) (.srcReturn
      (.addCorrected (.dropReq (.portEcc hk))))
  · exact .resumeRead (.recordRead (.dropReq (.portEcc hk)))
  · exact .tgDone (.dropReq (.portEcc hk))
  · exact .flushDone (.portEcc hk)
  · exact .portEcc hk

theorem Keeps.addReplaced (hk : Keeps calm s t) {r : MemReq} {n : Nat} : Keeps calm s (t.addReplaced r n) := by
  unfold State.addReplaced
  split
  exacts [.onDesc hk, hk]

theorem Keeps.atomicStep (hk : Keeps calm s t) {r : MemReq} {old : Bytes} {err : Bool} : Keeps calm s (t.atomicStep r old err) := by
  unfold State.atomicStep
  exact .ite (.lostAccess hk) (.addReplaced (.rest hk))

theorem Keeps.keepRmw (hk : Keeps calm s t) {b p : Nat} {r : MemReq} : Keeps calm s (t.keepRmw b p r) := by
  unfold State.keepRmw
  exact .ite (.rest hk) hk

theorem Keeps.busyPin (hk : Keeps calm s t) {r : MemReq} : Keeps calm s (t.busyPin r) := by
  unfold State.busyPin
  exact .ite (.emit (.bump hk)) hk

theorem Keeps.damage (hk : Keeps calm s t) {o len : Nat} : Keeps calm s (t.damage o len) := by
  unfold State.damage
  exact .useFree (.rest hk)

theorem Keeps.bankEcc (hk : Keeps calm s t) {b : Nat} {r : MemReq} {o : Nat} {ecc : Ecc} : Keeps calm s (t.bankEcc b r o ecc) := by
  have hi : Keeps calm s (t.inject 1 b (if r.ctx = 0xFFFF then none else some r.ctx)).1 := .inject hk
  unfold State.bankEcc
  generalize t.inject 1 b (if r.ctx = 0xFFFF then none else some r.ctx) = p at hi ⊢
  obtain ⟨u, e⟩ := p
  have hd : Keeps calm s (if ecc = .uncorrectable ∨ e = .uncorrectable then u.damage o r.len else u) := .ite (.damage hi) hi
  refine .ite ?_ hd
  dsimp only
  split
  · exact .addCorrected (.countEcc hd)
  · exact .countEcc hd

theorem Keeps.bankRead (hk : Keeps calm s t) {r : MemReq} {data : Bytes} {bad : Bool} : Keeps calm s (t.bankRead r data bad) := by
  unfold State.bankRead
  refine .ite (.rest hk) (.ite (.lostAccess hk) ?_)
  split
  exacts [.srcReturn (.dropReq hk), .cpDone (.dropReq hk), .aheadDone (.dropReq hk), .dropReq hk]

theorem Keeps.bankWrite (hk : Keeps calm s t) {o : Nat} {r : MemReq} {new : Bytes} {enables : List Bool} : Keeps calm s (t.bankWrite o r new enables) := by
  unfold State.bankWrite
  exact .putWin hk fun h => Memory.wf_ramWrite h ..

theorem Keeps.badWord (hk : Keeps calm s t) {r : MemReq} : Keeps calm s (t.badWord r) := by
  unfold State.badWord
  split
  exacts [.ite (.lostAccess hk) (.enterError (.dropReq hk)), .lostAccess hk]

theorem Keeps.bankServe (hk : Keeps calm s t) {b : Nat} {r : MemReq} {ecc : Ecc} : Keeps calm s (t.bankServe b r ecc) := by
  unfold State.bankServe
  exact .ite (.ite (.bankRead (.countEcc (.evWb (.bankEcc hk)))) (.badWord (.bankWrite (.countEcc (.evWb (.bankEcc hk)))))) (.ite (.bankRead
      (.bankEcc hk)) (.writeDone (.addReplaced (.bankWrite (.bankEcc hk)))))

theorem Keeps.bankAccess (hk : Keeps calm s t) {b p : Nat} {r : MemReq} {ecc : Ecc} : Keeps calm s (t.bankAccess b p r ecc) := by
  unfold State.bankAccess
  refine .ite (.lostAccess hk) (.ite (.lostAccess (.regionRefuse hk)) ?_)
  split
  exacts [.ite (.busyPin (.bump hk)) (.bankServe (.keepRmw hk)), .busyPin (.wakePair hk), .busyPin hk, .busyPin hk]

theorem Keeps.bankCycle (hk : Keeps calm s t) {b p : Nat} {ecc : Ecc} : Keeps calm s (t.bankCycle b p ecc) := by
  unfold State.bankCycle
  refine .ite (.rest hk) ?_
  dsimp only
  split
  · exact .wakeReady (.pump (.pumpReplays (.settleCores (.settlePair (.bankAccess (.arbitrate hk))))))
  · exact hk

theorem Keeps.scrubStep (hk : Keeps calm s t) {b : Nat} {ecc : Ecc} : Keeps calm s (t.scrubStep b ecc) := by
  unfold State.scrubStep
  exact .ite hk (.ite (.countEcc (.evWb (.ite (.countEcc (.ite (.damage (.inject (.rest hk))) (.inject (.rest hk)))) (.ite (.damage (.inject
      (.rest hk))) (.inject (.rest hk)))))) (.ite (.countEcc (.ite (.damage (.inject (.rest hk))) (.inject (.rest hk)))) (.ite (.damage
      (.inject (.rest hk))) (.inject (.rest hk)))))

theorem Keeps.retainDone (hk : Keeps calm s t) {p : Nat} {ok : Bool} : Keeps calm s (t.retainDone p ok) := by
  unfold State.retainDone
  exact .pmSend hk

theorem Keeps.retainPair (hk : Keeps calm s t) {p : Nat} : Keeps calm s (t.retainPair p) := by
  unfold State.retainPair
  exact .ite hk (.ite (.ite (.retainDone hk) (.setPair hk)) (.retainDone (.evWb (.bump hk))))

theorem Keeps.retention (hk : Keeps calm s t) {p : Nat} : Keeps calm s (t.retention p) := by
  unfold State.retention
  exact .ite (.pdAsk (.setPair hk)) hk

theorem Keeps.pairAwake (hk : Keeps calm s t) {p : Nat} : Keeps calm s (t.pairAwake p) := by
  unfold State.pairAwake
  exact .ite (.pmSend (.setPair hk)) hk

theorem Keeps.nextStream (hk : Keeps calm s t) {g : Nat} : Keeps calm s (t.nextStream g).1 := by
  unfold State.nextStream
  dsimp only
  split
  · exact hk
  · exact .arbitrate hk

theorem Keeps.fillTransfer (hk : Keeps calm s t) {g n m : Nat} {l : List (Nat × Slot)} : Keeps calm s (State.fillTransfer g n m t l).1 := by
  induction n generalizing t m l with
  | zero => exact hk
  | succ n ih =>
    unfold State.fillTransfer
    refine .iteFst hk ?_
    split
    · exact .ofEq ‹_› (.nextStream hk)
    · exact ih (.setCport (.ofEq ‹_› (.nextStream hk)))

theorem Keeps.deliver16 (hk : Keeps calm s t) {g : Nat} : Keeps calm s (t.deliver16 g) := by
  have hf : Keeps calm s (State.fillTransfer g 17 16 t []).1 := .fillTransfer hk
  unfold State.deliver16
  generalize State.fillTransfer g 17 16 t [] = p at hf ⊢
  obtain ⟨u, out⟩ := p
  exact .ite hk (.pump (.settleCores (.foldl (fun hk => .freeIdx hk) (.runAllLate (.emit (.setCport hf))))))

theorem Keeps.oweRsp (hk : Keeps calm s t) {g : Nat} {r : CpReq} {base left : Nat} {parts : List (Nat × Bytes)} {err : Bool} :
    Keeps calm s (t.oweRsp g r base left parts err) := by
  unfold State.oweRsp
  exact .useId (.setCport hk)

theorem Keeps.windowSpan (hk :
    Keeps calm s t) {g rsp base : Nat} {dest : Dest} {kind : Access} {data : Bytes} {en : List Bool} {spans : List (Nat × Nat)} : Keeps calm s
    (t.windowSpan g rsp base dest kind data en spans) := by
  unfold State.windowSpan
  exact .foldl (fun hk => .addReq hk) hk

theorem Keeps.windowRead (hk : Keeps calm s t) {g : Nat} {r : CpReq} {o : Nat} {dest : Dest} : Keeps calm s (t.windowRead g r o dest) := by
  unfold State.windowRead
  exact .sendRsps (.foldl (fun hk => .addReq hk) (.windowSpan (.oweRsp (.ite (.dropAhead hk) hk))))

theorem Keeps.windowWrite (hk : Keeps calm s t) {g : Nat} {r : CpReq} {kind : Access} {o : Nat} {dest : Dest} :
    Keeps calm s (t.windowWrite g r kind o dest) := by
  unfold State.windowWrite
  exact .windowSpan (.oweRsp (.dropAhead hk))

theorem Keeps.windowRequest (hk : Keeps calm s t) {g : Nat} {r : CpReq} : Keeps calm s (t.windowRequest g r) := by
  unfold State.windowRequest
  refine .ite hk ?_
  dsimp only
  split
  · exact .sendRsps (.oweRsp hk)
  · split
    exacts [.sendRsps (.oweRsp hk), .ite (.windowWrite hk) (.windowRead hk)]

theorem Keeps.aixWord (hk : Keeps calm s t) {g c : Nat} {vals : List (BitVec 32)} : Keeps calm s (t.aixWord g c vals) := by
  unfold State.aixWord
  exact .ite hk (.wakeReady (.setChan hk))

theorem Keeps.settleDomains (hk : Keeps calm s t) : Keeps calm s t.settleDomains := by
  unfold State.settleDomains
  exact .foldl (fun hk => .ite hk (.pdAsk hk)) hk

theorem Keeps.adminRun (hk : Keeps calm s t) {code : Nat} {check : State → Bytes → Option AdminStop} {run : State → AdminCmd → State}
    (hf : ∀ {t c}, Keeps calm s t → Keeps calm s (run t c)) : Keeps calm s (t.adminRun code check run) := by
  unfold State.adminRun
  split
  · exact .ite (.pump (.pumpReplays (by split; exacts [.adminRecord hk, hf hk]))) hk
  · exact hk

theorem Keeps.adminWait (hk : Keeps calm s t) : Keeps calm s t.adminWait := by
  unfold State.adminWait
  exact .rest hk

theorem Keeps.createRun (hk : Keeps calm s t) {c : AdminCmd} : Keeps calm s (t.createRun c) := by
  unfold State.createRun
  exact .ite (.adminRecord (.ite (.wantFetch (.onQueue (.qmSend (.setReg (.setQueue (.settleDomains (.adminWait hk))))))) (.qmSend (.setReg
      (.setQueue (.settleDomains (.adminWait hk))))))) (.settleDomains (.adminWait hk))

theorem Keeps.createAgain (hk : Keeps calm s t) : Keeps calm s t.createAgain := by
  unfold State.createAgain
  split
  · exact .ite (by split; exacts [.adminRecord hk, .createRun hk]) hk
  · exact hk

theorem Keeps.destroyRun (hk : Keeps calm s t) {c : AdminCmd} : Keeps calm s (t.destroyRun c) := by
  unfold State.destroyRun
  exact .settleDomains (.adminRecord (.rest (.putQueues hk fun h => tsorted_tdel h _)))

theorem Keeps.enableRun (hk : Keeps calm s t) {c : AdminCmd} : Keeps calm s (t.enableRun c) := by
  unfold State.enableRun
  exact .adminRecord (.wantFetch (.readAhead (.onQueue hk)))

theorem Keeps.disableRun (hk : Keeps calm s t) {c : AdminCmd} : Keeps calm s (t.disableRun c) := by
  unfold State.disableRun
  exact .wantFetch (.onQueue (.adminWait hk))

theorem Keeps.resetRun (hk : Keeps calm s t) {c : AdminCmd} : Keeps calm s (t.resetRun c) := by
  unfold State.resetRun
  exact .adminRecord (.onQueue hk)

theorem Keeps.modifyRun (hk : Keeps calm s t) {c : AdminCmd} : Keeps calm s (t.modifyRun c) := by
  unfold State.modifyRun
  exact .adminRecord (.onQueue hk)

theorem Keeps.resumeOne (hk : Keeps calm s t) {d : Desc} : Keeps calm s (t.resumeOne d) := by
  unfold State.resumeOne
  exact .ite (.setDesc hk) (by dsimp only; split; exacts [.addReq hk, .recordBad hk])

theorem Keeps.resumeRun (hk : Keeps calm s t) {c : AdminCmd} : Keeps calm s (t.resumeRun c) := by
  unfold State.resumeRun
  exact .resumeRead (.foldl (fun hk => .resumeOne hk) (.adminWait hk))

theorem Keeps.abandonOne (hk : Keeps calm s t) {d : Desc} : Keeps calm s (t.abandonOne d) := by
  unfold State.abandonOne
  exact .ite (.setDesc hk) (.setDesc (by split; exacts [.freeChan (.releaseIdx hk), hk]))

theorem Keeps.abandonRun (hk : Keeps calm s t) {c : AdminCmd} : Keeps calm s (t.abandonRun c) := by
  unfold State.abandonRun
  exact .adminRecord (.foldl (fun hk => .abandonOne hk) hk)

theorem Keeps.placeResumed (hk : Keeps calm s t) {did : Nat} : Keeps calm s (t.placeResumed did) := by
  unfold State.placeResumed
  split
  · exact hk
  · refine .ite hk (.ite (.setDesc hk) ?_)
    split
    exacts [.ite (.setDesc hk) (.bump (.setDesc hk)), .ite hk (.bump (.setDesc hk))]

theorem Keeps.adminRing (hk : Keeps calm s t) {p : Port} {part : Part} {v : Word} : Keeps calm s (t.adminRing p part v) := by
  unfold State.adminRing
  exact .ite hk (.ite (.writeFields hk) (.setFld (.writeFields hk)))

theorem Keeps.adminIdx (hk : Keeps calm s t) {p : Port} {part : Part} {v : Word} : Keeps calm s (t.adminIdx p part v) := by
  unfold State.adminIdx
  exact .ite hk (.rest (.writeFields hk))

theorem Keeps.adminEnable (hk : Keeps calm s t) {p : Port} : Keeps calm s (t.adminEnable p) := by
  unfold State.adminEnable
  exact .ite hk (.pump (.wantFetch (.rest (.setQueue hk))))

theorem Keeps.adminDisable (hk : Keeps calm s t) {p : Port} : Keeps calm s (t.adminDisable p) := by
  unfold State.adminDisable
  exact .ite hk (.pump (.wantFetch (.setQueue hk)))

theorem Keeps.afterRetire (hk : Keeps calm s t) : Keeps calm s t.afterRetire := by
  unfold State.afterRetire
  exact .pump (.pumpReplays (.settleCores (.settleFabric (.createAgain (.settleDomains hk)))))

theorem Keeps.failPort (hk : Keeps calm s t) {p : Nat} : Keeps calm s (t.failPort p) := by
  unfold State.failPort
  exact .ite (.emit (.evHm (.rest hk))) hk

theorem Keeps.movePort (hk : Keeps calm s t) {r : MemReq} : Keeps calm s (t.movePort r) := by
  unfold State.movePort
  exact .ite (.lostAccess hk) (.reissue hk)

theorem Keeps.portDrained (hk : Keeps calm s t) {p : Nat} : Keeps calm s (t.portDrained p) := by
  unfold State.portDrained
  exact .ite (.afterRetire (.foldl (fun hk => .movePort hk) (.retire (.rest hk)))) hk

theorem Keeps.portStuck (hk : Keeps calm s t) {p : Nat} : Keeps calm s (t.portStuck p) := by
  unfold State.portStuck
  exact .ite (.afterRetire (.foldl (fun hk => .lostAccess hk) (.retire (.retire (.rest hk))))) hk

theorem Keeps.bankPortFailed (hk : Keeps calm s t) {b p : Nat} : Keeps calm s (t.bankPortFailed b p) := by
  unfold State.bankPortFailed
  exact .ite hk (.pump (.pumpReplays (.settleCores (.foldl (fun hk => .lostAccess hk) (.evHm (.setReg (.rest hk)))))))

theorem Keeps.retireReq (hk : Keeps calm s t) {p : Port} {part : Part} {v : Word} : Keeps calm s (t.retireReq p part v) := by
  unfold State.retireReq
  exact .ite hk (.ite (.afterRetire (.retire hk)) (.evHm hk))

theorem Keeps.retireIsland (hk : Keeps calm s t) {i : Nat} : Keeps calm s (t.retireIsland i) := by
  unfold State.retireIsland
  exact .ite (.raiseFatal hk) (.foldl (fun hk => .retire hk) hk)

theorem Keeps.replan (hk : Keeps calm s t) {i : Nat} : Keeps calm s (t.replan i) := by
  unfold State.replan
  exact .ite (.retireIsland (.pmSend (.logObj (.evHm (.bump (.setFld hk)))))) (.pmSend (.logObj (.evHm (.bump (.setFld hk)))))

theorem Keeps.readMargin (hk : Keeps calm s t) {i m : Nat} : Keeps calm s (t.readMargin i m) := by
  unfold State.readMargin
  exact .ite (.replan (.setFld hk)) (.setFld hk)

theorem Keeps.codeEcc (hk : Keeps calm s t) : Keeps calm s t.codeEcc := by
  have key (u : State) (k : Nat) (hu : Keeps calm s u) : Keeps calm s { u with images := tput u.images 0 { u.image 0 with damaged := [k] } } :=
    .setImage hu id
  unfold State.codeEcc
  split
  · exact .ofEq ‹_› (.inject hk)
  · exact .countEcc (.ofEq ‹_› (.inject hk))
  · exact .countEcc (.useFree (key _ _ (.ofEq ‹_› (.inject hk))))

theorem Keeps.repairDone (hk : Keeps calm s t) {mem : Nat} {ok : Bool} : Keeps calm s (t.repairDone mem ok) := by
  have hi : Keeps calm s { t with images := tput t.images mem { t.image mem with damaged := [] } } := .setImage hk id
  unfold State.repairDone
  exact .ite hk (.ite hi (.ite (.raiseFatal hi) (.afterRetire (.retire hi))))

theorem Keeps.fatalDone (hk : Keeps false s t) {trap : Bytes} : Keeps false s (t.fatalDone trap) := by
  unfold State.fatalDone
  split
  exacts [hk, .ite hk (.restart (.logObj (.useFree (.rest hk))))]

theorem Keeps.setOp (hk : Keeps calm s t) {i freq seq : Nat} : Keeps calm s (t.setOp i freq seq) := by
  unfold State.setOp
  exact .ite hk (.rest (.ite (.evHm hk) hk))

theorem Keeps.opChange (hk : Keeps calm s t) {i : Nat} : Keeps calm s (t.opChange i) := by
  unfold State.opChange
  dsimp only
  split
  exacts [.rest (.pmSend (.setFld hk)), .ite (.setFld hk) hk]

theorem Keeps.pdAck (hk : Keeps calm s t) {d st : Nat} : Keeps calm s (t.pdAck d st) := by
  unfold State.pdAck
  split
  exacts [hk, .ite hk (.ite (.rest hk) (.pump (.createAgain (.ite (.retainDone (.rest hk)) (.rest hk)))))]

theorem Keeps.pdTimeout (hk : Keeps calm s t) {d : Nat} : Keeps calm s (t.pdTimeout d) := by
  unfold State.pdTimeout
  split
  exacts [hk, .ite hk (.afterRetire (.foldl (fun hk => .retire hk) hk))]

theorem Keeps.prParam (hk : Keeps calm s t) {p : Port} {i : Nat} {part : Part} {v : Word} : Keeps calm s (t.prParam p i part v) := by
  unfold State.prParam
  exact .ite hk (by split; exacts [.onQueue hk, .onQueue hk, .event hk])

theorem Keeps.cfCtrl (hk : Keeps calm s t) {p : Port} {part : Part} {v : Word} : Keeps calm s (t.cfCtrl p part v) := by
  unfold State.cfCtrl
  refine .ite hk ?_
  split
  exacts [.cfCtrlGate hk (fun hk => .checkOp hk), .cfCtrlGate hk (fun hk => .checkOp hk), .cfCtrlGate hk (fun hk => .discardShadow hk), hk]

theorem Keeps.adminCtrl (hk : Keeps calm s t) {p : Port} {part : Part} {v : Word} : Keeps calm s (t.adminCtrl p part v) := by
  unfold State.adminCtrl
  exact .ite hk (.ite (.adminEnable hk) (.adminDisable hk))

theorem Keeps.linkStatWrite (hk : Keeps calm s t) {p : Port} {l : Nat} {part : Part} {v : Word} : Keeps calm s (t.linkStatWrite p l part v) := by
  unfold State.linkStatWrite
  exact .ite (.restoreLink (.writeFields hk)) (.writeFields hk)

theorem Keeps.writeActing (hk : Keeps calm s t) {p : Port} {off : Nat} {part : Part} {v : Word} : Keeps calm s (t.writeActing p off part v) := by
  unfold State.writeActing
  exact .ite (.cfCtrl hk) (.ite (.imgData hk) (.ite (.adminRing hk) (.ite (.adminIdx hk) (.ite (.adminCtrl hk) (.ite (.atInv hk) (.ite
      (.atTable hk) (.ite (.bySignal hk) (.ite (.bySet hk) (.ite (.byArm hk) (.ite (.byDisarm hk) (.ite (.ite hk (.fqCtrl hk)) (.ite
      (.retireReq hk) (.ite (.ite (.tpLock hk) (.tpPlain hk)) (.ite (.tpInj hk) (.ite (.tgWrite hk) (.ite (.tpPlain hk) (.ite
      (.linkStatWrite hk) (.ite (.prParam hk) (.writeFields hk)))))))))))))))))))

theorem Keeps.writeNormal (hk : Keeps calm s t) {p : Port} {off : Nat} {part : Part} {v : Word} : Keeps calm s (t.writeNormal p off part v) := by
  unfold State.writeNormal
  exact .ite (.ite (.writeActing hk) (.ite (.refuseWrite hk) hk)) (.writeActing hk)

theorem Keeps.programEpoch (hk : Keeps calm s t) {j : EpochJob} : Keeps calm s (t.programEpoch j) := by
  unfold State.programEpoch
  exact .emit (.emit (.rest hk))

theorem Keeps.startEpoch (hk : Keeps calm s t) : Keeps calm s t.startEpoch := by
  unfold State.startEpoch
  exact .ite hk (.ite (.emit (.emit (.rest hk))) (.programEpoch hk))

theorem Keeps.epochStep (hk : Keeps calm s t) {j : EpochJob} {ok : Bool} : Keeps calm s (t.epochStep j ok) := by
  unfold State.epochStep
  exact .ite (.rest hk) (.ite (.programEpoch (.rest hk)) (.rest hk))

theorem Keeps.endBoot (hk : Keeps false s t) {mode : KpMode} {reason : Nat} : Keeps false s (t.endBoot mode reason) := by
  unfold State.endBoot
  exact .startEpoch (.logObj (.useFree (.restart hk)))

theorem Keeps.keeperOnly (hk : Keeps false s t) {reason : Nat} : Keeps false s (t.keeperOnly reason) := by
  unfold State.keeperOnly
  exact .endBoot hk

theorem Keeps.nextSlot (hk : Keeps false s t) : Keeps false s t.nextSlot := by
  unfold State.nextSlot
  split
  exacts [.keeperOnly hk, .emit (.rest hk)]

theorem Keeps.refuseList (hk : Keeps false s t) {reason : Nat} : Keeps false s (t.refuseList reason) := by
  unfold State.refuseList
  exact .nextSlot (.rest hk)

theorem Keeps.listBlock (hk : Keeps calm s t) {target : Nat} {body : Bytes} : Keeps calm s (t.listBlock target body) := by
  unfold State.listBlock
  exact .foldl (fun hk => .ite hk (.writeNormal hk)) hk

theorem Keeps.listImage (hk : Keeps calm s t) {mem : Nat} {body : Bytes} {warm : Bool} : Keeps calm s (t.listImage mem body warm) := by
  unfold State.listImage
  exact .ite hk (.setShadow (.foldl (fun hk => .putImage hk) hk))

theorem Keeps.listRecord (hk : Keeps calm s t) {warm : Bool} {r : ListRec} : Keeps calm s (State.listRecord warm t r) := by
  unfold State.listRecord
  exact .ite (.listBlock hk) (.ite (.listImage hk) hk)

theorem Keeps.setCeiling (hk : Keeps calm s t) {i measured : Nat} : Keeps calm s (t.setCeiling i measured) := by
  unfold State.setCeiling
  exact .ite (.retireIsland (.setFld hk)) (.setFld hk)

theorem Keeps.measure (hk : Keeps calm s t) : Keeps calm s t.measure := by
  unfold State.measure
  exact .setFld (.useFree (.foldl (fun hk => .setFld hk) (.foldl (fun hk => .setCeiling hk) hk)))

theorem Keeps.bootCommit (hk : Keeps false s t) {rs : List ListRec} : Keeps false s (t.bootCommit rs) := by
  have hs : Keeps false s (t.swaps.foldl (fun s p => s.swapImage p.1 p.2) t) := .foldl (fun hk => .swapImage hk) hk
  unfold State.bootCommit
  generalize t.swaps.foldl (fun s p => s.swapImage p.1 p.2) t = u at hs ⊢
  exact .pump (.settleDomains (.endBoot (.oldFromActive (.foldl (fun hk => .fabricCommit hk)
    (.foldl (fun hk => .powerPair hk) (.evCf (.bootSets hs)))))))

theorem Keeps.bootTargets (hk : Keeps false s t) : Keeps false s t.bootTargets := by
  unfold State.bootTargets
  dsimp only
  split
  exacts [.keeperOnly (.checkFailed hk), .bootCommit hk]

theorem Keeps.bootList (hk : Keeps false s t) {list : Bytes} {source : Nat} : Keeps false s (t.bootList list source) := by
  unfold State.bootList
  exact .ite (.measure (.foldl (fun hk => .listRecord hk) (.rest hk))) (.ite (.keeperOnly (.measure (.foldl (fun hk => .listRecord hk) (.rest hk)))) (by split; exacts [.keeperOnly (.checkFailed (.measure (.foldl (fun hk => .listRecord hk) (.rest hk)))), (by split; exacts [.askCode (.measure (.foldl (fun hk => .listRecord hk) (.rest hk))), .bootTargets (.measure (.foldl (fun hk => .listRecord hk) (.rest hk)))])]))

theorem Keeps.gotDirectory (hk : Keeps false s t) {b : Bytes} : Keeps false s (t.gotDirectory b) := by
  unfold State.gotDirectory
  exact .ite (.emit (.rest (.rest hk))) (.nextSlot (.rest hk))

theorem Keeps.gotList (hk : Keeps false s t) {e : SlotEntry} {b : Bytes} : Keeps false s (t.gotList e b) := by
  unfold State.gotList
  split
  exacts [.emit (.rest hk), .refuseList hk]

theorem Keeps.norFailed (hk : Keeps false s t) : Keeps false s t.norFailed := by
  unfold State.norFailed
  exact .keeperOnly (.rest hk)

theorem Keeps.nvmRead (hk : Keeps false s t) {ok : Bool} {data : Bytes} : Keeps false s (t.nvmRead ok data) := by
  unfold State.nvmRead
  split
  · split
    exacts [.emit (.rest hk), .norFailed hk]
  · exact .ite (.gotDirectory hk) (.norFailed hk)
  · exact .ite (.nextSlot (.rest hk)) (.norFailed hk)
  · exact .ite (.gotList hk) (.norFailed hk)
  · exact hk

theorem Keeps.nvmDone (hk : Keeps false s t) {ok : Bool} {data : Bytes} : Keeps false s (t.nvmDone ok data) := by
  unfold State.nvmDone
  exact .ite hk (.ite (.nvmRead hk) (by split; exacts [.epochStep hk, hk]))

theorem Keeps.codeVerdict (hk : Keeps false s t) {applyAfter : Bool} {origin : Nat} {pass : Bool} :
    Keeps false s (t.codeVerdict applyAfter origin pass) := by
  unfold State.codeVerdict
  exact .ite (.ite (.bootTargets (.rest hk)) (.keeperOnly (.checkFailed (.rest hk)))) (.ite (.checkFailed (.rest hk)) (.ite (.startCommit
      (.rest hk)) (.rest (.rest hk))))

theorem Keeps.verdict (hk : Keeps false s t) {pass : Bool} : Keeps false s (t.verdict pass) := by
  unfold State.verdict
  split
  · exact hk
  · split
    exacts [.ite (.bootList (.rest hk)) (.refuseList (.rest hk)), hk]
  · exact .codeVerdict hk

theorem Keeps.noVerdict (hk : Keeps false s t) : Keeps false s t.noVerdict := by
  unfold State.noVerdict
  exact .ite hk (.ite (.keeperOnly (.rest hk)) (.verdict hk))

theorem Keeps.coldState (hk : Keeps false s t) : Keeps false s t.coldState :=
  hk.trans ⟨nofun, nofun, rfl, fun _ => State.canonical_iff.mpr ⟨rfl, rfl, ⟨rfl, rfl, rfl, rfl⟩, nofun, rfl, rfl⟩, fun _ => rfl⟩

theorem Keeps.warmState (hk : Keeps false s t) : Keeps false s t.warmState :=
  hk.trans ⟨nofun, nofun, rfl, fun h => by
    obtain ⟨hw, hr, -, hi, -, -⟩ := State.canonical_iff.mp h
    exact State.canonical_iff.mpr ⟨hw, tsorted_filter hr _, ⟨rfl, rfl, rfl, rfl⟩, fun p hp => hi p (List.mem_of_mem_filter hp), rfl, rfl⟩,
    fun _ => rfl⟩

theorem Keeps.domainsOff (hk : Keeps calm s t) : Keeps calm s t.domainsOff := by
  unfold State.domainsOff
  exact .foldl (fun hk => .pdAsk hk) hk

theorem Keeps.enterReset (hk : Keeps false s t) {level : ResetLevel} : Keeps false s (t.enterReset level) := by
  unfold State.enterReset
  split
  exacts [.coldState (.domainsOff hk), .warmState (.domainsOff hk)]

theorem Keeps.logReset (hk : Keeps calm s t) {level origin : Nat} : Keeps calm s (t.logReset level origin) := by
  unfold State.logReset
  exact .logObj hk

theorem Keeps.restOfUnit (hk : Keeps calm s t) {did n : Nat} : Keeps calm s (State.restOfUnit did n t) := by
  induction n generalizing t with
  | zero => exact hk
  | succ n ih =>
    unfold State.restOfUnit
    split
    · exact hk
    · split
      · exact hk
      · split
        exacts [.ite hk (ih (.localPart hk)), hk]

theorem Keeps.finishUnits (hk : Keeps calm s t) : Keeps calm s t.finishUnits := by
  unfold State.finishUnits
  exact .foldl (fun hk => .restOfUnit hk) hk

theorem Keeps.beginAbort (hk : Keeps false s t) : Keeps false s t.beginAbort := by
  unfold State.beginAbort
  exact .pump (.restart (.putQueues (.dropDescs (.finishUnits hk)) fun h => tsorted_map h _))

theorem Keeps.askWarm (hk : Keeps false s t) {origin : Nat} : Keeps false s (t.askWarm origin) := by
  unfold State.askWarm
  exact .ite hk (.beginAbort (.logReset hk))

theorem Keeps.askCold (hk : Keeps false s t) {origin : Nat} : Keeps false s (t.askCold origin) := by
  unfold State.askCold
  exact .ite hk (.enterReset (.logReset hk))

theorem Keeps.bootNor (hk : Keeps calm s t) : Keeps calm s t.bootNor := by
  unfold State.bootNor
  exact .emit (.rest hk)

theorem Keeps.release (hk : Keeps false s t) {refClock startup : Bool} {ceilings : List Nat} : Keeps false s (t.release refClock startup ceilings) := by
  unfold State.release
  dsimp only
  split
  exacts [.bootNor (.restart hk), .ite (.bootNor (.restart (.restart hk))) (.bootList (.restart (.restart hk)))]

theorem Keeps.kpReset (hk : Keeps false s t) {p : Port} {part : Part} {v : Word} : Keeps false s (t.kpReset p part v) := by
  unfold State.kpReset
  exact .ite hk (.ite (.askCold hk) (.askWarm hk))

theorem Keeps.writeAny (hk : Keeps false s t) {p : Port} {off0 : Nat} {part : Part} {v : Word} : Keeps false s (t.writeAny p off0 part v) := by
  unfold State.writeAny
  exact .ite (.ite hk (.ite (.kpReset hk) (.writeFields hk))) (.ite (.writeNormal hk) hk)

theorem Keeps.portRead (hk : Keeps calm s t) {p : Port} {off : Nat} : Keeps calm s (t.portRead p off).1 := by
  unfold State.portRead
  exact .ite hk (.ite (.fqRead hk) (.ite (.bySelRead hk) (.ite (.bySelRead hk) hk)))

theorem Keeps.regAccess (hk : Keeps false s t) {dr : BitVec 88} : Keeps false s (t.regAccess dr) := by
  unfold State.regAccess
  exact .ite (.putTap hk) (.ite (.putTap (.pump (.writeAny hk))) (.putTap (.portRead hk)))

theorem Keeps.tapSelect (hk : Keeps calm s t) {ir : Nat} {data : Word} : Keeps calm s (t.tapSelect ir data) := by
  unfold State.tapSelect
  exact .rest hk

theorem Keeps.wrapper (hk : Keeps calm s t) {ir : Nat} : Keeps calm s (t.wrapper ir) := by
  unfold State.wrapper
  exact .ite (.useFree (.tapSelect hk)) (.useFree (.tapSelect hk))

theorem Keeps.withFetchWord (hk : Keeps calm s t) {nbits w : Nat} : Keeps calm s (t.withFetchWord nbits w) := by
  unfold State.withFetchWord
  split
  exacts [hk, .rest hk]

theorem Keeps.tookBlock (hk : Keeps calm s t) {l k : Nat} {b : LinkBlock} : Keeps calm s (tookBlock t l k b) := by
  unfold Machine.tookBlock
  exact .tagReturns (.setLink hk)

theorem Keeps.tgWritten (hk : Keeps calm s t) {p : Nat} {part : Part} {v : Word} : Keeps calm s (t.tgWritten p part v) := by
  unfold State.tgWritten
  exact .setReg hk

theorem Keeps.tgRefused (hk : Keeps calm s t) {p : Nat} {part : Part} {v : Word} : Keeps calm s (t.tgRefused p part v) := by
  unfold State.tgRefused
  exact .setReg (.tgWritten hk)

theorem Keeps.tgStarted (hk : Keeps calm s t) {p : Nat} {part : Part} {v : Word} : Keeps calm s (t.tgStarted p part v) := by
  unfold State.tgStarted
  exact .setReg (.setReg (.tgWritten hk))

theorem Keeps.tgCounted (hk : Keeps calm s t) {p : Nat} : Keeps calm s (t.tgCounted p) := by
  unfold State.tgCounted
  exact .bumpSat (.bump hk)

theorem Keeps.countedUe (hk : Keeps calm s t) {store unit : Nat} : Keeps calm s (t.countedUe store unit) := by
  unfold State.countedUe
  exact .evHm (.bump (.setFld hk))

/-! ### The commands -/

/-- What an outcome keeps of the state that it comes from. -/
def Keeps.outcome (calm : Bool) (s : State) (o : Host.Outcome State Fault Refusal) : Prop := ∀ t, o = .next t → Keeps calm s t

theorem Keeps.answer {f : State} (hk : Keeps calm s f) : Keeps.outcome calm s (answer s f) := fun t h => by
  obtain rfl := Host.Outcome.next.inj h
  exact hk.rest

theorem Keeps.whenNormal {f : State → State} (hk : Keeps calm s (f s)) : Keeps.outcome calm s (whenNormal f s) := .answer (.ite hk (.refl s))

theorem Keeps.whenServing {f : State → State} (hk : Keeps calm s (f s)) : Keeps.outcome calm s (whenServing f s) := .answer (.ite hk (.refl s))

theorem Keeps.whenIssuing {f : State → State} (hk : Keeps calm s (f s)) : Keeps.outcome calm s (whenIssuing f s) := .answer (.ite hk (.refl s))

theorem Keeps.outOfReset {f : State → State} (hk : Keeps calm s (f s)) : Keeps.outcome calm s (outOfReset f s) := .answer (.ite (.refl s) hk)

theorem Keeps.execColdReset : Keeps.outcome false s (execColdReset s) := .answer (.askCold (.refl s))

theorem Keeps.execWarmReset : Keeps.outcome false s (execWarmReset s) := .answer (.askWarm (.refl s))

theorem Keeps.execAbortPhaseEnd : Keeps.outcome false s (execAbortPhaseEnd s) := .outOfReset (.ite (.enterReset (.refl s)) (.refl s))

theorem Keeps.execTapReset : Keeps.outcome calm s (execTapReset s) := .answer (.rest (.refl s))

theorem Keeps.execResetRelease {refClock startup : Bool} {ceilings : List Nat} :
    Keeps.outcome false s (execResetRelease refClock startup ceilings s) :=
  .answer (.ite (.release (.refl s)) (.refl s))

theorem Keeps.execNvmTransferComplete {ok : Bool} {data : Bytes} : Keeps.outcome false s (execNvmTransferComplete ok data s) :=
  .outOfReset (.nvmDone (.refl s))

theorem Keeps.execSecurityResponse {answer : Byte} : Keeps.outcome false s (execSecurityResponse answer s) :=
  .outOfReset (.ite (.verdict (.refl s)) (.refl s))

theorem Keeps.execSecurityTimeout : Keeps.outcome false s (execSecurityTimeout s) := .outOfReset (.ite (.noVerdict (.refl s)) (.refl s))

theorem Keeps.execRegisterWrite {port : Port} {offset : Nat} {part : Part} {value : Word} :
    Keeps.outcome false s (execRegisterWrite port offset part value s) :=
  .outOfReset (.pump (.writeAny (.refl s)))

theorem Keeps.execCheck {port : Port} : Keeps.outcome calm s (execCheck port s) := .whenNormal (.cfCtrlGate (.refl s) (fun hk => .checkOp hk))

theorem Keeps.execApply {port : Port} : Keeps.outcome calm s (execApply port s) := .whenNormal (.cfCtrlGate (.refl s) (fun hk => .checkOp hk))

theorem Keeps.execDiscard {port : Port} : Keeps.outcome calm s (execDiscard port s) :=
  .whenNormal (.cfCtrlGate (.refl s) (fun hk => .discardShadow hk))

theorem Keeps.execCommitTokenArrival : Keeps.outcome calm s (execCommitTokenArrival s) := .whenNormal (.settleDomains (.tokenStep (.refl s)))

theorem Keeps.execIslandRetireReport {island : Nat} : Keeps.outcome calm s (execIslandRetireReport island s) :=
  .whenNormal (.retireReport (.refl s))

theorem Keeps.execCommitStall : Keeps.outcome calm s (execCommitStall s) := .whenNormal (.ite (.raiseFatal (.refl s)) (.refl s))

theorem Keeps.execCfImgDataWrite {port : Port} {part : Part} {value : Word} : Keeps.outcome calm s (execCfImgDataWrite port part value s) :=
  .whenNormal (.imgData (.refl s))

theorem Keeps.execKpResetWarm {port : Port} : Keeps.outcome false s (execKpResetWarm port s) := .outOfReset (.kpReset (.refl s))

theorem Keeps.execKpResetCold {port : Port} : Keeps.outcome false s (execKpResetCold port s) := .outOfReset (.kpReset (.refl s))

theorem Keeps.execPrParamWrite {port : Port} {k : Nat} {part : Part} {value : Word} : Keeps.outcome calm s (execPrParamWrite port k part value s) :=
  .whenNormal (.prParam (.refl s))

theorem Keeps.execQmAdminRingWrite {port : Port} {part : Part} {value : Word} : Keeps.outcome calm s (execQmAdminRingWrite port part value s) :=
  .whenNormal (.adminRing (.refl s))

theorem Keeps.execQmAdminEnable {port : Port} : Keeps.outcome calm s (execQmAdminEnable port s) := .whenNormal (.adminEnable (.refl s))

theorem Keeps.execQmAdminDisable {port : Port} : Keeps.outcome calm s (execQmAdminDisable port s) := .whenNormal (.adminDisable (.refl s))

theorem Keeps.execDoorbell {port : Port} {queue : Nat} : Keeps.outcome calm s (execDoorbell port queue s) := by
  unfold Machine.execDoorbell
  split
  · exact .answer (.refl s)
  · exact .whenNormal (.ite (.pump (.doorbell (.refl s))) (.ite (.refl s) (.doorbell (.refl s))))

theorem Keeps.execIndexBlockReadResponse {queue : Nat} {data : Bytes} {err : Bool} :
    Keeps.outcome calm s (execIndexBlockReadResponse queue data err s) := by
  refine .whenIssuing ?_
  split
  exacts [.refl s, .pump (.ite (.idxLost (.dropReq (.passOn (.refl s)))) (.idxReturn (.dropReq (.passOn (.refl s)))))]

theorem Keeps.execEntryReadResponse {queue : Nat} {data : Bytes} {err : Bool} : Keeps.outcome calm s (execEntryReadResponse queue data err s) := by
  refine .whenIssuing ?_
  split
  · exact .refl s
  · split
    exacts [.refl s, .pump (.wantFetch (.ite (.entLost (.dropReq (.passOn (.refl s)))) (.entReturn (.dropReq (.passOn (.refl s))))))]

theorem Keeps.execAdmit {queue : Nat} : Keeps.outcome calm s (execAdmit queue s) :=
  .whenIssuing (.pump (.pumpReplays (.admitNext (.stampRequests (.controlEcc (.refl s))))))

theorem Keeps.execNop {did : Nat} : Keeps.outcome calm s (execNop did s) := .whenIssuing (.beginControl (.refl s) (fun hk => .runNothing hk))

theorem Keeps.execMove {did : Nat} : Keeps.outcome calm s (execMove did s) := .whenIssuing (.beginStream (.refl s))

theorem Keeps.execGather {did : Nat} : Keeps.outcome calm s (execGather did s) := .whenIssuing (.beginStream (.refl s))

theorem Keeps.execScatter {did : Nat} : Keeps.outcome calm s (execScatter did s) := .whenIssuing (.beginStream (.refl s))

theorem Keeps.execScatterAdd {did : Nat} : Keeps.outcome calm s (execScatterAdd did s) := .whenIssuing (.beginStream (.refl s))

theorem Keeps.execAutomorph {did : Nat} : Keeps.outcome calm s (execAutomorph did s) := .whenIssuing (.beginStream (.refl s))

theorem Keeps.execLimbXpose {did : Nat} : Keeps.outcome calm s (execLimbXpose did s) := .whenIssuing (.beginStream (.refl s))

theorem Keeps.execExpand {did : Nat} : Keeps.outcome calm s (execExpand did s) := .whenIssuing (.beginStream (.refl s))

theorem Keeps.execLift {did : Nat} : Keeps.outcome calm s (execLift did s) := .whenIssuing (.beginStream (.refl s))

theorem Keeps.execCondition {did : Nat} : Keeps.outcome calm s (execCondition did s) := .whenIssuing (.beginStream (.refl s))

theorem Keeps.execSignal {did : Nat} : Keeps.outcome calm s (execSignal did s) :=
  .whenIssuing (.beginControl (.refl s) (fun hk => .runNothing hk))

theorem Keeps.execWait {did : Nat} : Keeps.outcome calm s (execWait did s) := .whenIssuing (.beginControl (.refl s) (fun hk => .runNothing hk))

theorem Keeps.execFence {did : Nat} : Keeps.outcome calm s (execFence did s) := .whenIssuing (.fence (.refl s))

theorem Keeps.execParamSet {did : Nat} : Keeps.outcome calm s (execParamSet did s) := .whenIssuing (.paramSet (.refl s))

theorem Keeps.execReplay {did : Nat} : Keeps.outcome calm s (execReplay did s) :=
  .whenIssuing (.pump (.beginControl (.refl s) (fun hk => .runReplay hk)))

theorem Keeps.execMark {did : Nat} : Keeps.outcome calm s (execMark did s) := .whenIssuing (.beginControl (.refl s) (fun hk => .runNothing hk))

theorem Keeps.execReplayEntryReadResponse {did : Nat} {data : Bytes} {err : Bool} :
    Keeps.outcome calm s (execReplayEntryReadResponse did data err s) := by
  refine .whenIssuing ?_
  split
  exacts [.pump (.pumpReplays (.ite (.replayLost (.dropReq (.passOn (.refl s)))) (.replayTake (.dropReq (.passOn (.refl s)))))), .refl s]

theorem Keeps.execMoverIssueCycle {mover : Nat} : Keeps.outcome calm s (execMoverIssueCycle mover s) :=
  .whenIssuing (.ite (.settleCores (.deliverLocal (.pumpFlush (.moverCycle (.wakeReady (.refl s)))))) (.refl s))

theorem Keeps.execWalkGranuleRead {walk : Nat} {data : Bytes} {err : Bool} : Keeps.outcome calm s (execWalkGranuleRead walk data err s) :=
  .whenServing (by split; exacts [.pump (.startWalkers (.walkStep (.dropReq (.passOn (.refl s))))), .refl s])

theorem Keeps.execMemoryReadResponse {req : Nat} {data : Bytes} {poison ce : Bool} :
    Keeps.outcome calm s (execMemoryReadResponse req data poison ce s) := by
  refine .whenServing ?_
  split
  exacts [.ite (.wakeReady (.pump (.settleCores (.pumpReplays (.memRead (.passOn (.refl s))))))) (.refl s), .refl s]

theorem Keeps.execMemoryWriteAck {req : Nat} : Keeps.outcome calm s (execMemoryWriteAck req s) :=
  .whenServing (by split; exacts [.ite (.pump (.pumpReplays (.writeDone (.passOn (.refl s))))) (.refl s), .refl s])

theorem Keeps.execAtomicRmw {req : Nat} {data : Bytes} {err : Bool} : Keeps.outcome calm s (execAtomicRmw req data err s) :=
  .whenNormal (by split; exacts [.ite (.pump (.atomicStep (.passOn (.refl s)))) (.refl s), .refl s])

theorem Keeps.execDescriptorComplete {did : Nat} : Keeps.outcome calm s (execDescriptorComplete did s) :=
  .whenIssuing (.pump (.pumpReplays (.deliverLocal (.completeDesc (.refl s)))))

theorem Keeps.execLensStagingGrant {g : Nat} : Keeps.outcome calm s (execLensStagingGrant g s) :=
  .whenIssuing (.ite (.wakeReady (.lensGrant (.refl s))) (.refl s))

theorem Keeps.execLensHoldExpiry {did : Nat} : Keeps.outcome calm s (execLensHoldExpiry did s) :=
  .whenNormal (by split; exacts [.ite (.setDesc (.refl s)) (.refl s), .refl s])

theorem Keeps.execStreamHalt {did : Nat} : Keeps.outcome calm s (execStreamHalt did s) := .whenIssuing (.pump (.halt (.refl s)))

theorem Keeps.execCreateQueue : Keeps.outcome calm s (execCreateQueue s) := .whenIssuing (.adminRun (.refl s) (fun hk => .createRun hk))

theorem Keeps.execDestroyQueue : Keeps.outcome calm s (execDestroyQueue s) := .whenIssuing (.adminRun (.refl s) (fun hk => .destroyRun hk))

theorem Keeps.execEnableQueue : Keeps.outcome calm s (execEnableQueue s) := .whenIssuing (.adminRun (.refl s) (fun hk => .enableRun hk))

theorem Keeps.execDisableQueue : Keeps.outcome calm s (execDisableQueue s) := .whenIssuing (.adminRun (.refl s) (fun hk => .disableRun hk))

theorem Keeps.execResetQueue : Keeps.outcome calm s (execResetQueue s) := .whenIssuing (.adminRun (.refl s) (fun hk => .resetRun hk))

theorem Keeps.execModifyQueue : Keeps.outcome calm s (execModifyQueue s) := .whenIssuing (.adminRun (.refl s) (fun hk => .modifyRun hk))

theorem Keeps.execResumeStream : Keeps.outcome calm s (execResumeStream s) := .whenIssuing (.adminRun (.refl s) (fun hk => .resumeRun hk))

theorem Keeps.execAbandonStream : Keeps.outcome calm s (execAbandonStream s) := .whenIssuing (.adminRun (.refl s) (fun hk => .abandonRun hk))

theorem Keeps.execResumePlacement {did : Nat} : Keeps.outcome calm s (execResumePlacement did s) :=
  .whenIssuing (.wakeReady (.pump (.settleCores (.placeResumed (.refl s)))))

theorem Keeps.execExpanderCoreGrant {g : Nat} : Keeps.outcome calm s (execExpanderCoreGrant g s) :=
  .whenIssuing (.ite (.coreGrant (.refl s)) (.refl s))

theorem Keeps.execXofPermutation {g core : Nat} {parityFail : Bool} : Keeps.outcome calm s (execXofPermutation g core parityFail s) :=
  .whenIssuing (.ite (.wakeReady (.xof (.refl s))) (.refl s))

theorem Keeps.execLiftSlotGrant {u : Nat} : Keeps.outcome calm s (execLiftSlotGrant u s) := .whenIssuing (.wakeReady (.liftGrant (.refl s)))

theorem Keeps.execLiftUnitCycle {u : Nat} : Keeps.outcome calm s (execLiftUnitCycle u s) :=
  .whenIssuing (.ite (.wakeReady (.liftCycle (.refl s))) (.refl s))

theorem Keeps.execCpDeliveryTransfer {g : Nat} : Keeps.outcome calm s (execCpDeliveryTransfer g s) := .whenNormal (.deliver16 (.refl s))

theorem Keeps.execCpWindowRequest {g : Nat} {req : CpReq} : Keeps.outcome calm s (execCpWindowRequest g req s) :=
  .whenNormal (.windowRequest (.refl s))

theorem Keeps.execCpAixWord {g chan : Nat} {vals : List (BitVec 32)} : Keeps.outcome calm s (execCpAixWord g chan vals s) :=
  .whenNormal (.aixWord (.refl s))

theorem Keeps.execBankPortCycle {bank port : Nat} {ecc : Ecc} : Keeps.outcome calm s (execBankPortCycle bank port ecc s) :=
  .whenServing (.bankCycle (.refl s))

theorem Keeps.execBankScrub {bank : Nat} {ecc : Ecc} : Keeps.outcome calm s (execBankScrub bank ecc s) := .whenNormal (.scrubStep (.refl s))

theorem Keeps.execRetain {pair : Nat} : Keeps.outcome calm s (execRetain pair s) := .whenNormal (.retainPair (.refl s))

theorem Keeps.execRetentionEntry {pair : Nat} : Keeps.outcome calm s (execRetentionEntry pair s) := .whenNormal (.retention (.refl s))

theorem Keeps.execWake {pair : Nat} : Keeps.outcome calm s (execWake pair s) := .whenNormal (.ite (.wakePair (.refl s)) (.refl s))

theorem Keeps.execPairWakeComplete {pair : Nat} : Keeps.outcome calm s (execPairWakeComplete pair s) := .whenServing (.pairAwake (.refl s))

theorem Keeps.execSetOp {island freq seq : Nat} : Keeps.outcome calm s (execSetOp island freq seq s) := .whenNormal (.setOp (.refl s))

theorem Keeps.execOperatingPointChange {island : Nat} : Keeps.outcome calm s (execOperatingPointChange island s) :=
  .whenNormal (.opChange (.refl s))

theorem Keeps.execPdAck {domain state : Nat} : Keeps.outcome calm s (execPdAck domain state s) := .outOfReset (.pdAck (.refl s))

theorem Keeps.execPdAckTimeout {domain : Nat} : Keeps.outcome calm s (execPdAckTimeout domain s) := .whenNormal (.pdTimeout (.refl s))

theorem Keeps.execRefClockLoss : Keeps.outcome calm s (execRefClockLoss s) := .outOfReset (.rest (.refl s))

theorem Keeps.execAtInv {port : Port} {part : Part} {value : Word} : Keeps.outcome calm s (execAtInv port part value s) :=
  .whenNormal (.ite (.refl s) (.atInv (.refl s)))

theorem Keeps.execInvalidationComplete : Keeps.outcome calm s (execInvalidationComplete s) := .whenNormal (.invDone (.refl s))

theorem Keeps.execAtTableWrite {port : Port} {part : Part} {value : Word} : Keeps.outcome calm s (execAtTableWrite port part value s) :=
  .whenNormal (.ite (.refl s) (.atTable (.refl s)))

theorem Keeps.execAtEpochHalving : Keeps.outcome calm s (execAtEpochHalving s) := .whenNormal (.halveCounters (.refl s))

theorem Keeps.execBySignal {port : Port} {part : Part} {value : Word} : Keeps.outcome calm s (execBySignal port part value s) :=
  .whenNormal (.bySignal (.refl s))

theorem Keeps.execBySignalRelease {port : Port} : Keeps.outcome calm s (execBySignalRelease port s) := .whenNormal (.drainHeld (.refl s))

theorem Keeps.execBySet {port : Port} {part : Part} {value : Word} : Keeps.outcome calm s (execBySet port part value s) :=
  .whenNormal (.bySet (.refl s))

theorem Keeps.execByArm {port : Port} {part : Part} {value : Word} : Keeps.outcome calm s (execByArm port part value s) :=
  .whenNormal (.byArm (.refl s))

theorem Keeps.execByDisarm {port : Port} {part : Part} {value : Word} : Keeps.outcome calm s (execByDisarm port part value s) :=
  .whenNormal (.byDisarm (.refl s))

theorem Keeps.execFqDataRead {port : Port} {f : Nat} : Keeps.outcome calm s (execFqDataRead port f s) := .whenNormal (.fqRead (.refl s))

theorem Keeps.execFqMark {port : Port} {f : Nat} : Keeps.outcome calm s (execFqMark port f s) := .whenNormal (.fqCtrl (.refl s))

theorem Keeps.execFqRewind {port : Port} {f : Nat} : Keeps.outcome calm s (execFqRewind port f s) := .whenNormal (.fqCtrl (.refl s))

theorem Keeps.execFqRelease {port : Port} {f : Nat} : Keeps.outcome calm s (execFqRelease port f s) := .whenNormal (.fqCtrl (.refl s))

theorem Keeps.execFqMarkRelease {port : Port} {f : Nat} : Keeps.outcome calm s (execFqMarkRelease port f s) := .whenNormal (.fqCtrl (.refl s))

theorem Keeps.execWaitLong {g : Nat} : Keeps.outcome calm s (execWaitLong g s) := .whenNormal (.waitReport (.refl s))

theorem Keeps.execLinkLock {l : Nat} : Keeps.outcome calm s (execLinkLock l s) := .whenIssuing (.lockLink (.refl s))

theorem Keeps.execLinkLockLoss {l : Nat} : Keeps.outcome calm s (execLinkLockLoss l s) := .whenIssuing (.loseLock (.refl s))

theorem Keeps.execLinkSend {l : Nat} : Keeps.outcome calm s (execLinkSend l s) := .outOfReset (.linkTurn (.refl s))

theorem Keeps.execLinkIdleTimer {l : Nat} : Keeps.outcome calm s (execLinkIdleTimer l s) := .whenIssuing (.linkIdleTag (.refl s))

theorem Keeps.execAckTimeout {l : Nat} : Keeps.outcome calm s (execAckTimeout l s) := .whenIssuing (.ackTimeout (.refl s))

theorem Keeps.execBeaconTimer {l : Nat} : Keeps.outcome calm s (execBeaconTimer l s) := .whenIssuing (.wantBeacon (.refl s))

theorem Keeps.execLineAckTimer {line : Nat} : Keeps.outcome calm s (execLineAckTimer line s) :=
  .whenIssuing (.pump (.deliverLocal (.lineAck (.refl s))))

theorem Keeps.execLineRetry {line : Nat} : Keeps.outcome calm s (execLineRetry line s) :=
  .whenIssuing (.pump (.deliverLocal (.lineRetry (.refl s))))

theorem Keeps.execLineLost {line : Nat} : Keeps.outcome calm s (execLineLost line s) := .whenIssuing (.pump (.lineLost (.refl s)))

theorem Keeps.execBusyRetry {line : Nat} : Keeps.outcome calm s (execBusyRetry line s) :=
  .whenIssuing (.pump (.deliverLocal (.busyRetry (.refl s))))

theorem Keeps.execLinkIdle {l : Nat} {b : LinkBlock} : Keeps.outcome calm s (execLinkIdle l b s) :=
  .whenIssuing (.receive (.refl s) (fun hk => hk))

theorem Keeps.execLinkData {l : Nat} {b : LinkBlock} : Keeps.outcome calm s (execLinkData l b s) := .whenIssuing (.receiveLine (.refl s))

theorem Keeps.execLinkDataMasked {l : Nat} {b : LinkBlock} : Keeps.outcome calm s (execLinkDataMasked l b s) :=
  .whenIssuing (.receiveLine (.refl s))

theorem Keeps.execLinkAdd {l : Nat} {b : LinkBlock} : Keeps.outcome calm s (execLinkAdd l b s) := .whenIssuing (.receiveLine (.refl s))

theorem Keeps.execLinkSignal {l : Nat} {b : LinkBlock} : Keeps.outcome calm s (execLinkSignal l b s) := .whenIssuing (.receiveLine (.refl s))

theorem Keeps.execLineAck {l : Nat} {b : LinkBlock} : Keeps.outcome calm s (execLineAck l b s) :=
  .whenIssuing (.pump (.receive (.refl s) (fun hk => .deliver hk (fun hk => .owe (.takeLineAck hk)))))

theorem Keeps.execBeacon {l : Nat} {b : LinkBlock} : Keeps.outcome calm s (execBeacon l b s) :=
  .whenIssuing (.receive (.refl s) (fun hk => .takeBeacon hk))

theorem Keeps.execFog {l : Nat} {b : LinkBlock} : Keeps.outcome calm s (execFog l b s) :=
  .whenIssuing (.pump (.receive (.refl s) (fun hk => .takeFog hk)))

theorem Keeps.execNack {l : Nat} {b : LinkBlock} : Keeps.outcome calm s (execNack l b s) :=
  .whenIssuing (.receive (.refl s) (fun hk => .takeNack hk))

theorem Keeps.execClose {l : Nat} {b : LinkBlock} : Keeps.outcome calm s (execClose l b s) := .whenIssuing (.receiveLine (.refl s))

theorem Keeps.execBusy {l : Nat} {b : LinkBlock} : Keeps.outcome calm s (execBusy l b s) :=
  .whenIssuing (.receive (.refl s) (fun hk => .deliver hk (fun hk => .takeBusy hk)))

theorem Keeps.execRestore {port : Port} {l : Nat} : Keeps.outcome calm s (execRestore port l s) :=
  .whenNormal (.ite (.refl s) (.restoreLink (.refl s)))

theorem Keeps.execMemoryPortTimeout {p : Nat} : Keeps.outcome calm s (execMemoryPortTimeout p s) :=
  .whenNormal (.ite (.failPort (.refl s)) (.refl s))

theorem Keeps.execMpFailed {p : Nat} : Keeps.outcome calm s (execMpFailed p s) := .whenNormal (.failPort (.refl s))

theorem Keeps.execMpDrained {p : Nat} : Keeps.outcome calm s (execMpDrained p s) := .whenNormal (.portDrained (.refl s))

theorem Keeps.execQuiesceTimeout {p : Nat} : Keeps.outcome calm s (execQuiesceTimeout p s) := .whenNormal (.portStuck (.refl s))

theorem Keeps.execBankPortTimeout {bank port : Nat} : Keeps.outcome calm s (execBankPortTimeout bank port s) :=
  .whenNormal (.bankPortFailed (.refl s))

theorem Keeps.execHmRetireReq {port : Port} {part : Part} {value : Word} : Keeps.outcome calm s (execHmRetireReq port part value s) :=
  .whenNormal (.retireReq (.refl s))

theorem Keeps.execAgeingPeriod {margins : List Nat} : Keeps.outcome calm s (execAgeingPeriod margins s) :=
  .whenIssuing (.afterRetire (.foldl (fun hk => (by split; exacts [.readMargin hk, hk])) (.codeEcc (.refl s))))

theorem Keeps.execMemoryRepairDone {mem : Nat} {ok : Bool} : Keeps.outcome calm s (execMemoryRepairDone mem ok s) :=
  .whenNormal (.repairDone (.refl s))

theorem Keeps.execKeeperWatchdog : Keeps.outcome calm s (execKeeperWatchdog s) := .outOfReset (.raiseFatal (.refl s))

theorem Keeps.execFatalDumpWritten {trap : Bytes} : Keeps.outcome false s (execFatalDumpWritten trap s) := .outOfReset (.fatalDone (.refl s))

theorem Keeps.execTpLockSet {port : Port} : Keeps.outcome calm s (execTpLockSet port s) := .whenNormal (.tpLock (.refl s))

theorem Keeps.execTpInjArm {port : Port} {part : Part} {value : Word} : Keeps.outcome calm s (execTpInjArm port part value s) :=
  .whenNormal (.tpInj (.refl s))

theorem Keeps.execTpTgRun {port : Port} {p : Nat} {part : Part} {value : Word} : Keeps.outcome calm s (execTpTgRun port p part value s) :=
  .whenNormal (.tgWrite (.refl s))

theorem Keeps.execTgCycle {p : Nat} : Keeps.outcome calm s (execTgCycle p s) := .whenIssuing (.tgStep (.refl s))

theorem Keeps.execRegAccess {dr : BitVec 88} : Keeps.outcome false s (execRegAccess dr s) := .outOfReset (.regAccess (.refl s))

theorem Keeps.execIdcode : Keeps.outcome calm s (execIdcode s) := .answer (.tapSelect (.refl s))

theorem Keeps.execWsExtest : Keeps.outcome calm s (execWsExtest s) := .answer (.wrapper (.refl s))

theorem Keeps.execWsIntest : Keeps.outcome calm s (execWsIntest s) := .answer (.wrapper (.refl s))

theorem Keeps.execWsBypass : Keeps.outcome calm s (execWsBypass s) := .answer (.useFree (.tapSelect (.refl s)))

theorem Keeps.execBypass : Keeps.outcome calm s (execBypass s) := .answer (.useFree (.tapSelect (.refl s)))

theorem Keeps.execLimitWindowExpiry : Keeps.outcome calm s (execLimitWindowExpiry s) := .whenNormal (.rest (.refl s))

theorem Keeps.execRefClockReturn : Keeps.outcome calm s (execRefClockReturn s) := .outOfReset (.rest (.refl s))

/-- Every command but a power-on keeps the die, the canonical forms and the rising identities. -/
theorem exec_keeps {c : Instr} (hp : ∀ f x, c ≠ .powerOnReset f x) : Keeps.outcome false s (exec c s) := by
  cases c with
  | powerOnReset fuses straps => exact absurd rfl (hp fuses straps)
  | coldReset => exact .execColdReset
  | warmReset => exact .execWarmReset
  | abortPhaseEnd => exact .execAbortPhaseEnd
  | tapReset => exact .execTapReset
  | resetRelease refClock startup ceilings => exact .execResetRelease
  | nvmTransferComplete ok data => exact .execNvmTransferComplete
  | securityResponse answer => exact .execSecurityResponse
  | securityTimeout => exact .execSecurityTimeout
  | registerWrite port offset part value => exact .execRegisterWrite
  | check port => exact .execCheck
  | apply port => exact .execApply
  | discard port => exact .execDiscard
  | commitTokenArrival => exact .execCommitTokenArrival
  | islandRetireReport island => exact .execIslandRetireReport
  | commitStall => exact .execCommitStall
  | cfImgDataWrite port part value => exact .execCfImgDataWrite
  | kpResetWarm port => exact .execKpResetWarm
  | kpResetCold port => exact .execKpResetCold
  | prParamWrite port k part value => exact .execPrParamWrite
  | qmAdminRingWrite port part value => exact .execQmAdminRingWrite
  | qmAdminEnable port => exact .execQmAdminEnable
  | qmAdminDisable port => exact .execQmAdminDisable
  | doorbell port queue => exact .execDoorbell
  | indexBlockReadResponse queue data err => exact .execIndexBlockReadResponse
  | entryReadResponse queue data err => exact .execEntryReadResponse
  | admission queue => exact .execAdmit
  | nop did => exact .execNop
  | move did => exact .execMove
  | gather did => exact .execGather
  | scatter did => exact .execScatter
  | scatterAdd did => exact .execScatterAdd
  | automorph did => exact .execAutomorph
  | limbXpose did => exact .execLimbXpose
  | expand did => exact .execExpand
  | lift did => exact .execLift
  | condition did => exact .execCondition
  | signal did => exact .execSignal
  | wait did => exact .execWait
  | fence did => exact .execFence
  | paramSet did => exact .execParamSet
  | replay did => exact .execReplay
  | mark did => exact .execMark
  | replayEntryReadResponse did data err => exact .execReplayEntryReadResponse
  | moverIssueCycle mover => exact .execMoverIssueCycle
  | walkGranuleRead walk data err => exact .execWalkGranuleRead
  | memoryReadResponse req data poison ce => exact .execMemoryReadResponse
  | memoryWriteAck req => exact .execMemoryWriteAck
  | atomicRmw req data err => exact .execAtomicRmw
  | descriptorComplete did => exact .execDescriptorComplete
  | lensStagingGrant g => exact .execLensStagingGrant
  | lensHoldExpiry did => exact .execLensHoldExpiry
  | streamHalt did => exact .execStreamHalt
  | createQueue => exact .execCreateQueue
  | destroyQueue => exact .execDestroyQueue
  | enableQueue => exact .execEnableQueue
  | disableQueue => exact .execDisableQueue
  | resetQueue => exact .execResetQueue
  | modifyQueue => exact .execModifyQueue
  | resumeStream => exact .execResumeStream
  | abandonStream => exact .execAbandonStream
  | resumePlacement did => exact .execResumePlacement
  | expanderCoreGrant g => exact .execExpanderCoreGrant
  | xofPermutation g core parityFail => exact .execXofPermutation
  | liftSlotGrant u => exact .execLiftSlotGrant
  | liftUnitCycle u => exact .execLiftUnitCycle
  | cpDeliveryTransfer g => exact .execCpDeliveryTransfer
  | cpWindowRequest g req => exact .execCpWindowRequest
  | cpAixWord g chan vals => exact .execCpAixWord
  | bankPortCycle bank port ecc => exact .execBankPortCycle
  | bankScrub bank ecc => exact .execBankScrub
  | retain pair => exact .execRetain
  | retentionEntry pair => exact .execRetentionEntry
  | wake pair => exact .execWake
  | pairWakeComplete pair => exact .execPairWakeComplete
  | setOp island freq seq => exact .execSetOp
  | operatingPointChange island => exact .execOperatingPointChange
  | pdAck domain state => exact .execPdAck
  | pdAckTimeout domain => exact .execPdAckTimeout
  | refClockLoss => exact .execRefClockLoss
  | atInv port part value => exact .execAtInv
  | invalidationComplete => exact .execInvalidationComplete
  | atTableWrite port part value => exact .execAtTableWrite
  | atEpochHalving => exact .execAtEpochHalving
  | bySignal port part value => exact .execBySignal
  | bySignalRelease port => exact .execBySignalRelease
  | bySet port part value => exact .execBySet
  | byArm port part value => exact .execByArm
  | byDisarm port part value => exact .execByDisarm
  | fqDataRead port f => exact .execFqDataRead
  | fqMark port f => exact .execFqMark
  | fqRewind port f => exact .execFqRewind
  | fqRelease port f => exact .execFqRelease
  | fqMarkRelease port f => exact .execFqMarkRelease
  | waitLong g => exact .execWaitLong
  | linkLock l => exact .execLinkLock
  | linkLockLoss l => exact .execLinkLockLoss
  | linkSend l => exact .execLinkSend
  | linkIdleTimer l => exact .execLinkIdleTimer
  | ackTimeout l => exact .execAckTimeout
  | beaconTimer l => exact .execBeaconTimer
  | lineAckTimer line => exact .execLineAckTimer
  | lineRetry line => exact .execLineRetry
  | lineLost line => exact .execLineLost
  | busyRetry line => exact .execBusyRetry
  | linkIdle l b => exact .execLinkIdle
  | linkData l b => exact .execLinkData
  | linkDataMasked l b => exact .execLinkDataMasked
  | linkAdd l b => exact .execLinkAdd
  | linkSignal l b => exact .execLinkSignal
  | lineAck l b => exact .execLineAck
  | beacon l b => exact .execBeacon
  | fog l b => exact .execFog
  | nack l b => exact .execNack
  | close l b => exact .execClose
  | busy l b => exact .execBusy
  | restore port l => exact .execRestore
  | memoryPortTimeout p => exact .execMemoryPortTimeout
  | mpFailed p => exact .execMpFailed
  | mpDrained p => exact .execMpDrained
  | quiesceTimeout p => exact .execQuiesceTimeout
  | bankPortTimeout bank port => exact .execBankPortTimeout
  | hmRetireReq port part value => exact .execHmRetireReq
  | ageingPeriod margins => exact .execAgeingPeriod
  | memoryRepairDone mem ok => exact .execMemoryRepairDone
  | keeperWatchdog => exact .execKeeperWatchdog
  | fatalDumpWritten trap => exact .execFatalDumpWritten
  | tpLockSet port => exact .execTpLockSet
  | tpInjArm port part value => exact .execTpInjArm
  | tpTgRun port p part value => exact .execTpTgRun
  | tgCycle p => exact .execTgCycle
  | regAccess dr => exact .execRegAccess
  | idcode => exact .execIdcode
  | wsExtest => exact .execWsExtest
  | wsIntest => exact .execWsIntest
  | wsBypass => exact .execWsBypass
  | bypass => exact .execBypass
  | limitWindowExpiry => exact .execLimitWindowExpiry
  | refClockReturn => exact .execRefClockReturn

end

end Sys2Proof.Machine
end

section
/-! PROOFS. The statements about the machine as a whole (R554, R8, R577; log entries 1 to 5 and 7): a step answers and takes one command, every
step keeps the canonical forms, the rising identities and, but for a power-on, the die, and what reset leaves. -/

namespace Sys2Proof.Machine

variable {c : Instr} {s t : State}

/-! ### A step -/

/-- Every command has an effect in every state and leaves the commands that wait. -/
theorem exec_completes (c : Instr) (s : State) : ∃ t, exec c s = .next t ∧ t.pending = s.pending := by
  cases c with
  | doorbell port q => cases port <;> exact answer_completes
  | _ => exact answer_completes

theorem step_of_empty (h : s.pending = []) : step s = .next s := by simp [step, h]

theorem step_of_cons {rest : List Instr} (h : s.pending = c :: rest) : step s = exec c { s with pending := rest } := by simp [step, h]

theorem step_completes (s : State) : ∃ t, step s = .next t ∧ t.pending = s.pending.tail := by
  cases h : s.pending with
  | nil => exact ⟨s, step_of_empty h, h⟩
  | cons c rest => rw [step_of_cons h]; exact exec_completes c _

/-- Settles O1. -/
theorem stepsTakeOneCommandAndAlwaysAnswer : Obligations.StepsTakeOneCommandAndAlwaysAnswer :=
  ⟨⟨fun _ _ _ => rfl, fun _ => step_of_empty⟩, exec_completes, step_completes⟩

/-! ### What every command keeps -/

/-- A power-on leaves the state of reset with another die. -/
theorem powerOnReset_keeps (f : Fuses) (x : Straps) (h : exec (.powerOnReset f x) s = .next t) :
    (s.canonical = true → t.canonical = true) ∧ (s.idsRise = true → t.idsRise = true) := by
  obtain rfl := Host.Outcome.next.inj h
  exact ⟨fun _ => rfl, fun _ => rfl⟩

theorem exec_canonical (h : s.canonical = true) (ht : exec c s = .next t) : t.canonical = true := by
  by_cases hp : ∃ f x, c = .powerOnReset f x
  · obtain ⟨f, x, rfl⟩ := hp
    exact (powerOnReset_keeps f x ht).1 h
  · exact (exec_keeps (fun f x e => hp ⟨f, x, e⟩) t ht).canonical h

theorem exec_idsRise (h : s.idsRise = true) (ht : exec c s = .next t) : t.idsRise = true := by
  by_cases hp : ∃ f x, c = .powerOnReset f x
  · obtain ⟨f, x, rfl⟩ := hp
    exact (powerOnReset_keeps f x ht).2 h
  · exact (exec_keeps (fun f x e => hp ⟨f, x, e⟩) t ht).idsRise h

/-- What every command keeps, and what does not look at the commands that wait, every step keeps. -/
theorem step_keeps {P : State → Prop} (hexec : ∀ c s t, P s → exec c s = .next t → P t)
    (hpending : ∀ s p, P s → P { s with pending := p }) (h : P s) (ht : step s = .next t) : P t := by
  cases hs : s.pending with
  | nil =>
    rw [step_of_empty hs] at ht
    obtain rfl := Host.Outcome.next.inj ht
    exact h
  | cons c rest =>
    rw [step_of_cons hs] at ht
    exact hexec c _ t (hpending s rest h) ht

theorem step_canonical (h : s.canonical = true) (ht : step s = .next t) : t.canonical = true :=
  step_keeps (P := fun s => s.canonical = true) (fun _ _ _ => exec_canonical) (fun _ _ h => h) h ht

theorem step_idsRise (h : s.idsRise = true) (ht : step s = .next t) : t.idsRise = true :=
  step_keeps (P := fun s => s.idsRise = true) (fun _ _ _ => exec_idsRise) (fun _ _ h => h) h ht

theorem safeRun_of_canonical (n : Nat) (h : s.canonical = true) : SafeRun n s := by
  induction n generalizing s with
  | zero => exact h
  | succ n ih =>
    obtain ⟨t, ht, -⟩ := step_completes s
    exact ⟨h, t, ht, ih (step_canonical h ht)⟩

/-- Settles O4. -/
theorem everyStepKeepsTheCanonicalForms : Obligations.EveryStepKeepsTheCanonicalForms :=
  ⟨⟨fun _ _ _ => exec_canonical, fun _ _ => step_canonical⟩, ⟨fun _ _ _ => exec_idsRise, fun _ _ => step_idsRise⟩,
    fun n _ => safeRun_of_canonical n⟩

/-- Settles O5. -/
theorem fusesAndStrapsHoldUntilPowerOn : Obligations.FusesAndStrapsHoldUntilPowerOn :=
  fun _ _ t ht hc => (exec_keeps hc t ht).die

/-! ### Reset -/

/-- An empty register file reads the reset values. -/
theorem rget_nil (g k : Nat) : rget g [] k = resetOf g k := rfl

/-- Settles O6: the sets of registers are empty, so each reads its reset value. -/
theorem resetLeavesTheBlockEmpty : Obligations.ResetLeavesTheBlockEmpty := by
  have hq (q : Nat) (h : q ≠ 0) : (State.reset.queue q).state = .absent := by
    simp [State.queue, State.reset, tget_cons, Ne.symm h, Queue.blank]
  have hr (k : Nat) : State.reset.reg k = resetOf State.reset.grade k ∧ State.reset.shadow k = resetOf State.reset.grade k ∧
      State.reset.act k = resetOf State.reset.grade k := ⟨rget_nil .., rget_nil .., rget_nil ..⟩
  exact ⟨rfl, rfl, rfl, rfl, rfl, rfl, rfl, hq, hr, by decide, by decide, by decide, by decide, by decide, fun _ => rfl, fun _ => rfl,
    rfl, rfl, fun _ => rfl, rfl, rfl, rfl⟩

end Sys2Proof.Machine
end

section
/-! PROOFS. The tags of link blocks (Table 13-2, R446 to R448): every field of a tag is read back from its block, and the CRC is good. -/

namespace Sys2Proof.Machine

/-! ### Little-endian strings -/

theorem leNat_append (a b : Bytes) : leNat (a ++ b) = leNat a + 256 ^ a.length * leNat b := by
  induction a with
  | nil => simp [leNat]
  | cons x a ih => simp only [List.cons_append, leNat, ih, List.length_cons, pow_succ]; ring

/-! ### The CRC -/

theorem crcBit_lt {c : Nat} (h : c < 2 ^ 32) : crcBit c < 2 ^ 32 := by
  unfold crcBit
  split
  · exact Nat.xor_lt_two_pow (by omega) (by decide)
  · omega

theorem crcByte_lt {c : Nat} (h : c < 2 ^ 32) (b : Byte) : crcByte c b < 2 ^ 32 := by
  have hx : c ^^^ b.toNat < 2 ^ 32 := Nat.xor_lt_two_pow h (b.isLt.trans (by decide))
  exact crcBit_lt (crcBit_lt (crcBit_lt (crcBit_lt (crcBit_lt (crcBit_lt (crcBit_lt (crcBit_lt hx)))))))

theorem crc32c_lt (bs : Bytes) : crc32c bs < 2 ^ 32 := by
  refine Nat.xor_lt_two_pow ?_ (by decide)
  induction bs using List.reverseRecOn with
  | nil => decide
  | append_singleton bs b ih => rw [List.foldl_append]; exact crcByte_lt ih b

/-! ### The words of a tag -/

/-- Words 0 to 3 of a tag as numbers. -/
def Tag.word0 (t : Tag) : Nat :=
  t.linkSeq + 2 ^ 16 * t.ack + 2 ^ 32 * t.kind + 2 ^ 40 * t.credit + 2 ^ 48 * t.granules + 2 ^ 54 * b2n t.opens + 2 ^ 55 * b2n t.lc
def Tag.word1 (t : Tag) : Nat := t.src + 2 ^ 20 * t.dst + 2 ^ 40 * t.hops + 2 ^ 52 * t.line
def Tag.word2 (t : Tag) : Nat := t.seq + 2 ^ 32 * t.amount
def Tag.word3 (t : Tag) : Nat := t.addr + 2 ^ 38 * t.ctx + 2 ^ 48 * t.fmt + 2 ^ 52 * t.prime + 2 ^ 59 * t.round

/-- The fields of a tag fit their widths (Table 13-2). -/
structure Tag.Fits (t : Tag) : Prop where
  linkSeq : t.linkSeq < 2 ^ 16
  ack : t.ack < 2 ^ 16
  kind : t.kind < 2 ^ 8
  credit : t.credit < 2 ^ 8
  granules : t.granules < 2 ^ 6
  src : t.src < 2 ^ 20
  dst : t.dst < 2 ^ 20
  hops : t.hops < 2 ^ 12
  line : t.line < 2 ^ 12
  seq : t.seq < 2 ^ 32
  amount : t.amount < 2 ^ 32
  addr : t.addr < 2 ^ 38
  ctx : t.ctx < 2 ^ 10
  fmt : t.fmt < 2 ^ 4
  prime : t.prime < 2 ^ 7
  round : t.round < 2 ^ 2

theorem b2n_lt (b : Bool) : b2n b < 2 := by cases b <;> decide

variable {t : Tag}

theorem Tag.word0_lt (h : t.Fits) : t.word0 < 2 ^ 64 := by
  have h1 := b2n_lt t.opens
  have h2 := b2n_lt t.lc
  have := h.linkSeq; have := h.ack; have := h.kind; have := h.credit; have := h.granules
  unfold Tag.word0
  omega

theorem Tag.word1_lt (h : t.Fits) : t.word1 < 2 ^ 64 := by
  have := h.src; have := h.dst; have := h.hops; have := h.line
  unfold Tag.word1
  omega

theorem Tag.word2_lt (h : t.Fits) : t.word2 < 2 ^ 64 := by
  have := h.seq; have := h.amount
  unfold Tag.word2
  omega

theorem Tag.word3_lt (h : t.Fits) : t.word3 < 2 ^ 64 := by
  have := h.addr; have := h.ctx; have := h.fmt; have := h.prime; have := h.round
  unfold Tag.word3
  omega

/-- Words 0 to 3 as one number. -/
def Tag.bodyNat (t : Tag) : Nat := t.word0 + 2 ^ 64 * t.word1 + 2 ^ 128 * t.word2 + 2 ^ 192 * t.word3

theorem Tag.bodyNat_lt (h : t.Fits) : t.bodyNat < 2 ^ 256 := by
  have := word0_lt h; have := word1_lt h; have := word2_lt h; have := word3_lt h
  unfold Tag.bodyNat
  omega

theorem Tag.body_length : t.body.length = 32 := by simp [Tag.body]

theorem Tag.leNat_body (h : t.Fits) : leNat t.body = t.bodyNat := by
  have h0 := word0_lt h; have h1 := word1_lt h; have h2 := word2_lt h; have h3 := word3_lt h
  change leNat (leBytes 8 t.word0 ++ leBytes 8 t.word1 ++ leBytes 8 t.word2 ++ leBytes 8 t.word3) = _
  simp only [leNat_append, leNat_leBytes, List.length_append, leBytes_length]
  unfold Tag.bodyNat
  omega

/-- A string spells its number. -/
theorem leBytes_leNat (b : Bytes) : leBytes b.length (leNat b) = b := by
  induction b with
  | nil => rfl
  | cons x b ih =>
    have hx := x.isLt
    have hd : (x.toNat + 256 * leNat b) / 256 = leNat b := by omega
    have hm : BitVec.ofNat 8 (x.toNat + 256 * leNat b) = x := BitVec.eq_of_toNat_eq (by simp; omega)
    rw [List.length_cons, leNat, leBytes, hd, ih, hm]

/-- A bit below which `a` fits, with more above it. -/
theorem nbit_of_sum {a c i : Nat} (b : Bool) (ha : a < 2 ^ i) : nbit (a + 2 ^ i * b2n b + 2 ^ (i + 1) * c) i = b := by
  have hd : (a + 2 ^ i * b2n b + 2 ^ (i + 1) * c) / 2 ^ i = b2n b + 2 * c := by
    rw [pow_succ, Nat.mul_assoc, Nat.add_assoc, ← Nat.mul_add, Nat.add_mul_div_left _ _ (Nat.two_pow_pos i), Nat.div_eq_of_lt ha,
      Nat.zero_add]
  rw [nbit, Nat.testBit_eq_decide_div_mod_eq, hd]
  cases b <;> simp [b2n, Nat.add_mod]

/-- The fields of words 0 to 3 are those of the tag. -/
theorem Tag.fields_word0 (h : t.Fits) : nfld t.word0 15 0 = t.linkSeq ∧ nfld t.word0 31 16 = t.ack ∧ nfld t.word0 39 32 = t.kind ∧
    nfld t.word0 47 40 = t.credit ∧ nfld t.word0 53 48 = t.granules ∧ nbit t.word0 54 = t.opens ∧ nbit t.word0 55 = t.lc := by
  have ho := b2n_lt t.opens; have hl := b2n_lt t.lc
  have := h.linkSeq; have := h.ack; have := h.kind; have := h.credit; have := h.granules
  refine ⟨?_, ?_, ?_, ?_, ?_, nbit_of_sum (i := 54) t.opens (by omega), ?_⟩
  case refine_6 => exact nbit_of_sum (i := 55) (c := 0) t.lc (by omega)
  all_goals
    unfold Tag.word0 nfld
    omega

theorem Tag.fields_word1 (h : t.Fits) : nfld t.word1 19 0 = t.src ∧ nfld t.word1 39 20 = t.dst ∧ nfld t.word1 51 40 = t.hops ∧
    nfld t.word1 63 52 = t.line := by
  have := h.src; have := h.dst; have := h.hops; have := h.line
  unfold Tag.word1 nfld
  omega

theorem Tag.fields_word2 (h : t.Fits) : nfld t.word2 31 0 = t.seq ∧ nfld t.word2 63 32 = t.amount := by
  have := h.seq; have := h.amount
  unfold Tag.word2 nfld
  omega

theorem Tag.fields_word3 (h : t.Fits) : nfld t.word3 37 0 = t.addr ∧ nfld t.word3 47 38 = t.ctx ∧ nfld t.word3 51 48 = t.fmt ∧
    nfld t.word3 58 52 = t.prime ∧ nfld t.word3 60 59 = t.round := by
  have := h.addr; have := h.ctx; have := h.fmt; have := h.prime; have := h.round
  unfold Tag.word3 nfld
  omega

/-! ### Blocks -/

/-- The tag of a block: the words and, above them, the CRC. -/
theorem Tag.block_tag (h : t.Fits) (payload : Bytes) :
    (t.block payload).tag.toNat = t.bodyNat + 2 ^ 256 * blockCrc t.body payload := by
  have hb := bodyNat_lt h
  have hc : blockCrc t.body payload < 2 ^ 32 := crc32c_lt _
  simp only [Tag.block, leNat_append, leNat_body h, leNat_leBytes, body_length, BitVec.toNat_ofNat]
  omega

theorem Tag.crcGood_block (h : t.Fits) (payload : Bytes) : crcGood (t.block payload) = true := by
  have hb := bodyNat_lt h
  have hc : blockCrc t.body payload < 2 ^ 32 := crc32c_lt _
  have hm : (t.block payload).tag.toNat % 2 ^ 256 = leNat t.body := by rw [block_tag h, leNat_body h]; omega
  have hbody : leBytes 32 (leNat t.body) = t.body := by simpa only [body_length] using leBytes_leNat t.body
  have hf : nfld (t.block payload).tag.toNat 287 256 = blockCrc t.body payload := by
    rw [block_tag h, nfld]
    omega
  unfold crcGood
  rw [hm, hbody, hf]
  exact beq_self_eq_true _

theorem Tag.tagFields_block (h : t.Fits) (payload : Bytes) : tagFields (t.block payload) = t := by
  have h0 := word0_lt h; have h1 := word1_lt h; have h2 := word2_lt h; have h3 := word3_lt h
  have hc : blockCrc t.body payload < 2 ^ 32 := crc32c_lt _
  have e0 : nfld (t.block payload).tag.toNat 63 0 = t.word0 := by rw [block_tag h, nfld, bodyNat]; omega
  have e1 : nfld (t.block payload).tag.toNat 127 64 = t.word1 := by rw [block_tag h, nfld, bodyNat]; omega
  have e2 : nfld (t.block payload).tag.toNat 191 128 = t.word2 := by rw [block_tag h, nfld, bodyNat]; omega
  have e3 : nfld (t.block payload).tag.toNat 255 192 = t.word3 := by rw [block_tag h, nfld, bodyNat]; omega
  obtain ⟨f1, f2, f3, f4, f5, f6, f7⟩ := fields_word0 h
  obtain ⟨g1, g2, g3, g4⟩ := fields_word1 h
  obtain ⟨k1, k2⟩ := fields_word2 h
  obtain ⟨l1, l2, l3, l4, l5⟩ := fields_word3 h
  unfold tagFields
  simp only [e0, e1, e2, e3, f1, f2, f3, f4, f5, f6, f7, g1, g2, g3, g4, k1, k2, l1, l2, l3, l4, l5]

/-- Settles O54. -/
theorem linkTagsAreReadBack : Obligations.LinkTagsAreReadBack := by
  intro t payload h1 h2 h3 h4 h5 h6 h7 h8 h9 h10 h11 h12 h13 h14 h15 h16
  have h : t.Fits := ⟨h1, h2, h3, h4, h5, h6, h7, h8, h9, h10, h11, h12, h13, h14, h15, h16⟩
  exact ⟨Tag.tagFields_block h payload, Tag.crcGood_block h payload, rfl⟩

end Sys2Proof.Machine
end

section
/-! PROOFS. The modes in which a command acts: reset, halt, abort phase and fatal event keep the block still (R345, R509, R511, R554). -/

namespace Sys2Proof.Machine

/-- The tests that stand before the effect of a command. -/
inductive Gate where
  | always | outOfReset | serving | normal | issuing

/-- The commands of the datapath that no fatal event stops: what memory answers is taken in an abort phase too. -/
def Gate.datapath (c : Instr) : Gate :=
  match c with
  | .walkGranuleRead _ _ _ | .memoryReadResponse _ _ _ _ | .memoryWriteAck _ | .bankPortCycle _ _ _ | .pairWakeComplete _ => .serving
  | _ => .normal

/-- The gate of each command. -/
def Gate.of (c : Instr) : Gate :=
  if Instr.actsInReset c then .always else if Instr.issuesWork c then .issuing else if Instr.actsInAnyMode c then .outOfReset
  else Gate.datapath c

/-- An effect behind a gate. -/
def Gate.run (g : Gate) (f : State → State) (s : State) : Host.Outcome State Fault Refusal :=
  match g with
  | .always => answer s (f s)
  | .outOfReset => Machine.outOfReset f s
  | .serving => whenServing f s
  | .normal => whenNormal f s
  | .issuing => whenIssuing f s

variable {s t : State} {c : Instr}

theorem askWarm_inEffect (h : s.rst.inEffect = true) (origin : Nat) : s.askWarm origin = s := by simp [State.askWarm, h]

theorem execWarmReset_gated (s : State) : execWarmReset s = outOfReset (fun s => s.askWarm keeperOrigin) s := by
  cases h : s.rst.inEffect <;> simp [execWarmReset, outOfReset, askWarm_inEffect, h]

/-- A doorbell through the debug port does nothing (R317), which is the gate of the other ports' doorbells around no effect. -/
theorem execDoorbell_gated (p : Port) (q : Nat) (s : State) : ∃ f, execDoorbell p q s = whenNormal f s := by
  cases p with
  | debug => exact ⟨id, by simp [execDoorbell, whenNormal]⟩
  | host | compute g => exact ⟨fun s => if s.issuing then (s.doorbell q).pump else if s.rst.abort then s else s.doorbell q, rfl⟩

/-- An answer stands behind the open gate. -/
theorem answer_gated (s t : State) : ∃ f, answer s t = Gate.always.run f s := ⟨fun _ => t, rfl⟩

/-- Every command has its effect behind its gate. -/
theorem exec_gated (c : Instr) (s : State) : ∃ f, exec c s = (Gate.of c).run f s := by
  cases c with
  | powerOnReset | coldReset | tapReset | resetRelease | idcode | wsExtest | wsIntest | wsBypass | bypass => exact answer_gated s _
  | doorbell p q => exact execDoorbell_gated p q s
  | warmReset => exact ⟨fun s => s.askWarm keeperOrigin, execWarmReset_gated s⟩
  | _ => exact ⟨_, rfl⟩

/-- When a gate lets its effect through. -/
def Gate.passes (g : Gate) (s : State) : Bool :=
  match g with
  | .always => true
  | .outOfReset => !s.rst.inEffect
  | .serving => s.serving
  | .normal => s.normal
  | .issuing => s.issuing

/-- A command whose gate is shut leaves the state as it is. -/
theorem exec_of_shut (h : (Gate.of c).passes s = false) : exec c s = .next s := by
  obtain ⟨f, e⟩ := exec_gated c s
  rw [e]
  generalize Gate.of c = g at h ⊢
  cases g with
  | always => exact absurd h (by simp [Gate.passes])
  | outOfReset => exact outOfReset_inert (by simpa [Gate.passes] using h)
  | serving => exact whenServing_inert h
  | normal => exact whenNormal_inert h
  | issuing => exact whenIssuing_inert h

theorem normal_of_inEffect (h : s.rst.inEffect = true) : s.normal = false := by simp [State.normal, h]

theorem serving_of_inEffect (h : s.rst.inEffect = true) : s.serving = false := by simp [State.serving, normal_of_inEffect h, h]

theorem normal_of_mode_ne (h : s.kp.mode ≠ .normal) : s.normal = false := by simp [State.normal, h]

theorem serving_of_mode_ne (h : s.kp.mode ≠ .normal) (ha : s.rst.abort = false) : s.serving = false := by
  simp [State.serving, normal_of_mode_ne h, ha]

theorem issuing_of_not_normal (h : s.normal = false) : s.issuing = false := by simp [State.issuing, h]

/-- Every gate but the open one is shut while a reset is in effect. -/
theorem Gate.shut_in_reset {g : Gate} (hg : g ≠ .always) (h : s.rst.inEffect = true) : g.passes s = false := by
  have hn := normal_of_inEffect h
  cases g with
  | always => exact absurd rfl hg
  | outOfReset => simp [Gate.passes, h]
  | serving => exact serving_of_inEffect h
  | normal => exact hn
  | issuing => exact issuing_of_not_normal hn

/-- The gates of the datapath are shut outside mode NORMAL and an abort phase. -/
theorem Gate.shut_outside_normal {g : Gate} (h1 : g ≠ .always) (h2 : g ≠ .outOfReset) (h : s.kp.mode ≠ .normal) (ha : s.rst.abort = false) :
    g.passes s = false := by
  have hn := normal_of_mode_ne h
  cases g with
  | always => exact absurd rfl h1
  | outOfReset => exact absurd rfl h2
  | serving => exact serving_of_mode_ne h ha
  | normal => exact hn
  | issuing => exact issuing_of_not_normal hn

/-- The gate of a command that issues or takes on work is shut once a fatal event is detected, and in an abort phase. -/
theorem issuing_shut (h : s.kp.fatal.isSome = true ∨ s.rst.abort = true) : s.issuing = false := by
  rcases h with h | h
  · simp [State.issuing, Option.isNone_eq_false_iff.mpr h]
  · simp [State.issuing, h]

theorem Gate.datapath_cases (c : Instr) : Gate.datapath c = .serving ∨ Gate.datapath c = .normal := by
  unfold Gate.datapath
  split <;> simp

theorem Gate.of_ne_always (h : Instr.actsInReset c = false) : Gate.of c ≠ .always := by
  rw [Gate.of, if_neg (by simp [h])]
  split
  · nofun
  · split
    · nofun
    · rcases Gate.datapath_cases c with e | e <;> rw [e] <;> nofun

theorem actsInReset_of_actsInAnyMode (h : Instr.actsInAnyMode c = false) : Instr.actsInReset c = false := by
  unfold Instr.actsInAnyMode at h
  exact (Bool.or_eq_false_iff.mp h).1

theorem Gate.of_ne_outOfReset (h : Instr.actsInAnyMode c = false) : Gate.of c ≠ .outOfReset := by
  rw [Gate.of, if_neg (by simp [actsInReset_of_actsInAnyMode h])]
  split
  · nofun
  · rw [if_neg (by simp [h])]
    rcases Gate.datapath_cases c with e | e <;> rw [e] <;> nofun

theorem Gate.of_issuesWork (h : Instr.issuesWork c = true) (hr : Instr.actsInReset c = false) : Gate.of c = .issuing := by
  rw [Gate.of, if_neg (by rw [hr]; decide), if_pos h]

/-- No command of the reset inputs or of the TAP issues work. -/
theorem actsInReset_of_issuesWork (h : Instr.issuesWork c = true) : Instr.actsInReset c = false := by
  unfold Instr.actsInReset
  split
  case h_10 => rfl
  all_goals cases h

/-- Settles O2: each part names a gate that is shut. -/
theorem commandsActOnlyInTheirModes : Obligations.CommandsActOnlyInTheirModes :=
  ⟨fun _ _ h hc => exec_of_shut (Gate.shut_in_reset (Gate.of_ne_always hc) h),
   fun _ _ h ha hc => exec_of_shut
     (Gate.shut_outside_normal (Gate.of_ne_always (actsInReset_of_actsInAnyMode hc)) (Gate.of_ne_outOfReset hc) h ha),
   fun _ _ h hc => exec_of_shut (by rw [Gate.of_issuesWork hc (actsInReset_of_issuesWork hc)]; exact issuing_shut h)⟩

end Sys2Proof.Machine
end

section
/-! PROOFS. The block resets: what a reset level keeps (Table 15-12) and how the release starts the boot (R509, R527, R589). -/

namespace Sys2Proof.Machine

variable {s t : State}

/-- What every domain is asked for while a reset takes effect changes the power switches and the messages alone. -/
theorem State.pdAskAll_is (l : List Nat) (s : State) :
    ∃ x out, l.foldl (fun s d => s.pdAsk d 0) s = { s with sup := x, out := s.out ++ out } := by
  induction l generalizing s with
  | nil => exact ⟨s.sup, [], by simp⟩
  | cons d l ih =>
    obtain ⟨y, o, e, -⟩ := s.pdAsk_is d 0
    obtain ⟨x, out, h⟩ := ih (s.pdAsk d 0)
    exact ⟨x, o ++ out, by rw [List.foldl_cons, h, e]; simp⟩

theorem State.domainsOff_is (s : State) : ∃ x out, s.domainsOff = { s with sup := x, out := s.out ++ out } := State.pdAskAll_is _ s

/-- A cold reset keeps the queue of commands, the die, the TAP, the model's counters and what is sent out. -/
theorem State.enterReset_cold (s : State) : ∃ out, s.enterReset .cold = { State.reset with
    pending := s.pending, free := s.free, ids := s.ids, out := s.out ++ out, die := s.die, tap := s.tap } := by
  obtain ⟨x, out, h⟩ := s.domainsOff_is
  exact ⟨out, by rw [State.enterReset, h]; rfl⟩

theorem State.askCold_eq (h : ¬(s.rst.inEffect = true ∧ s.rst.level = .cold)) (origin : Nat) :
    s.askCold origin = (s.logReset 1 origin).enterReset .cold := by
  rw [State.askCold, if_neg (by simpa using h)]

/-- A cold reset that is asked for by software leaves the power-on state, with one free value taken by its record. -/
theorem State.askCold_is (h : ¬(s.rst.inEffect = true ∧ s.rst.level = .cold)) (origin : Nat) : ∃ out, s.askCold origin = { State.reset with
    pending := s.pending, free := s.free + 1, ids := s.ids, out := s.out ++ out, die := s.die, tap := s.tap } := by
  obtain ⟨out, e⟩ := (s.logReset 1 origin).enterReset_cold
  obtain ⟨r, log, x, o, el, -⟩ := s.logObj_is 0x0B origin 0 (leBytes 1 1 ++ leBytes 1 origin)
  refine ⟨out, ?_⟩
  rw [State.askCold_eq h, e, State.logReset, el]

theorem State.kpReset_cold {p : Port} (hp : fromCompute p = false) : s.kpReset p .whole 0xA501 = s.askCold (originOf p) := by
  rw [State.kpReset, if_neg (by rw [hp]; decide), if_pos (by decide)]

theorem State.kpReset_warm {p : Port} (hp : fromCompute p = false) : s.kpReset p .whole 0xA500 = s.askWarm (originOf p) := by
  rw [State.kpReset, if_neg (by rw [hp]; decide), if_neg (by decide)]

/-- Settles O7. -/
theorem coldResetsGiveThePowerOnState : Obligations.ColdResetsGiveThePowerOnState := by
  refine ⟨fun f x s => ?_, fun s h => ?_, fun p s hp hr => ?_⟩
  · obtain ⟨out, e⟩ := s.enterReset_cold
    exact ⟨out, by rw [exec_powerOnReset, execPowerOnReset, e, answer_eq]⟩
  · obtain ⟨out, e⟩ := State.askCold_is h keeperOrigin
    exact ⟨out, by rw [exec_coldReset, execColdReset, e, answer_eq]⟩
  · obtain ⟨out, e⟩ := State.askCold_is (s := s) (by simp [hr]) (originOf p)
    exact ⟨out, by rw [exec_kpResetCold, execKpResetCold, outOfReset_acts hr, State.kpReset_cold hp, e]⟩

/-! ### Release -/

theorem execResetRelease_acts (h : s.rst.inEffect = true) (refClock startup : Bool) (ceilings : List Nat) :
    exec (.resetRelease refClock startup ceilings) s = .next { s.release refClock startup ceilings with pending := s.pending } := by
  rw [exec_resetRelease, execResetRelease, if_pos h, answer_eq]

/-- Settles O9: the release by the level of the reset, and a warm one by the cached list. -/
theorem releaseStartsTheBoot : Obligations.ReleaseStartsTheBoot := by
  intro s refClock startup ceilings h
  rw [execResetRelease_acts h]
  refine ⟨fun hl => ?_, fun hl hc => ?_⟩
  · simp only [State.release, hl, State.bootNor, State.emit]
  · simp only [State.release, hl, hc, List.isEmpty_nil, if_true, State.bootNor, State.emit]

/-! ### A warm reset takes effect -/

theorem tget_filter {α : Type} (l : List (Nat × α)) (p : Nat → Bool) (k : Nat) :
    tget (l.filter (fun q => p q.1)) k = if p k then tget l k else none := by
  induction l with
  | nil => simp
  | cons q l ih =>
    obtain ⟨j, a⟩ := q
    rw [List.filter_cons, tget_cons]
    by_cases hk : j = k
    · subst hk
      cases hp : p j <;> simp [ih, hp, tget_cons]
    · cases hp : p j <;> simp [ih, hk, tget_cons]

/-- A register file that keeps some registers reads those as before and the others as after reset. -/
theorem rget_filter (g : Nat) (f : RegFile) (p : Nat → Bool) (k : Nat) :
    rget g (f.filter (fun q => p q.1)) k = if p k then rget g f k else resetOf g k := by
  rw [rget, tget_filter]
  cases p k <;> rfl

theorem State.reg_warmState (s : State) (k : Nat) : s.warmState.reg k = if k ∈ retiredRegs then s.reg k else resetOf s.grade k := by
  rw [State.reg, State.warmState, rget_filter]
  simp only [List.contains_iff_mem]
  rfl

theorem execAbortPhaseEnd_acts (h : s.rst.inEffect = false) (ha : s.rst.abort = true) :
    exec .abortPhaseEnd s = .next { s.enterReset .warm with pending := s.pending } := by
  rw [exec_abortPhaseEnd, execAbortPhaseEnd, outOfReset_acts h, if_pos ha]

/-- The end of the abort phase: what Table 15-12 keeps of a state (O8, second part). -/
theorem abortPhaseEnd_keeps (h : s.rst.inEffect = false) (ha : s.rst.abort = true) :
    ∃ t, exec .abortPhaseEnd s = .next t ∧ t.rst = { inEffect := true, level := .warm, abort := false } ∧
      t.kp.log = s.kp.log ∧ t.kp.nextSeq = s.kp.nextSeq ∧ t.kp.dump = s.kp.dump ∧ t.kp.dumpValid = s.kp.dumpValid ∧
      t.kp.cached = s.kp.cached ∧ t.kp.epoch = s.kp.epoch ∧ t.kp.fatal = none ∧ t.kp.mode = .booting ∧
      (∀ k, k ∈ retiredRegs → t.reg k = s.reg k) ∧ (∀ k, k ∉ retiredRegs → t.reg k = resetOf s.grade k) ∧
      t.cfg = State.reset.cfg ∧ t.commit = State.reset.commit ∧ t.queues = State.reset.queues ∧ t.descs = [] ∧ t.reqs = [] ∧
      t.sync = State.reset.sync ∧ t.xl = State.reset.xl ∧ t.fab = Fabric.blank ∧ t.sup = Support.blank ∧ t.cps = [] ∧
      t.win.ram = s.win.ram ∧ t.win.bad = s.win.bad ∧ t.die = s.die ∧ t.tap = s.tap ∧ t.pending = s.pending := by
  obtain ⟨x, out, e⟩ := s.domainsOff_is
  rw [execAbortPhaseEnd_acts h ha, State.enterReset, e]
  have hreg := State.reg_warmState { s with sup := x, out := s.out ++ out }
  exact ⟨_, rfl, rfl, rfl, rfl, rfl, rfl, rfl, rfl, rfl, rfl, fun k hk => (hreg k).trans (if_pos hk), fun k hk => (hreg k).trans (if_neg hk),
    rfl, rfl, rfl, rfl, rfl, rfl, rfl, rfl, rfl, rfl, rfl, rfl, rfl, rfl, rfl⟩

end Sys2Proof.Machine
end

section
/-! PROOFS. The halt and the abort phase: only a block reset leaves HALTED (R554), and a warm reset begins with the abort phase (R345). -/

namespace Sys2Proof.Machine

variable {s t u : State}

/-! ### The abort phase begins -/

theorem State.logReset_is (s : State) (level origin : Nat) : ∃ r f log n o, s.logReset level origin = { s with
    regs := r, free := f, kp := { s.kp with log := log, nextSeq := n, overwritten := o } } := by
  obtain ⟨r, log, x, o, e, -⟩ := s.logObj_is 0x0B origin 0 (leBytes 1 level ++ leBytes 1 origin)
  exact ⟨r, _, _, _, o, e⟩

/-- A loop over states that change the register file alone changes it alone. -/
theorem foldl_regs {α : Type} {f : State → α → State} (hf : ∀ u x, ∃ r, f u x = { u with regs := r }) (l : List α) (s : State) :
    ∃ r, l.foldl f s = { s with regs := r } := by
  induction l generalizing s with
  | nil => exact ⟨s.regs, rfl⟩
  | cons x l ih =>
    obtain ⟨r, e⟩ := hf s x
    obtain ⟨r', e'⟩ := ih (f s x)
    exact ⟨r', by rw [List.foldl_cons, e', e]⟩

/-- The access counters are registers (R371): counting an access changes no other part of the state. -/
theorem State.countAccess_is (s : State) (rs : List Range) (va len : Nat) : ∃ r, s.countAccess rs va len = { s with regs := r } := by
  refine foldl_regs (fun u x => ?_) rs s
  dsimp only
  split
  · split
    · exact ⟨_, rfl⟩
    · exact ⟨_, rfl⟩
  · exact ⟨u.regs, rfl⟩

@[simp] theorem State.countAccess_kp (s : State) (rs : List Range) (va len : Nat) : (s.countAccess rs va len).kp = s.kp := by
  obtain ⟨r, e⟩ := s.countAccess_is rs va len
  rw [e]

theorem State.ite_kp {c : Prop} {_ : Decidable c} {k : Keeper} {a b : State} (ha : a.kp = k) (hb : b.kp = k) : (if c then a else b).kp = k := by
  split
  · exact ha
  · exact hb

/-- A piece that is issued leaves the keeper alone, and so do the units that are issued to their end. -/
theorem State.localPart_kp (s : State) (d : Desc) (u : OutUnit) (p : XPart) : (s.localPart d u p).kp = s.kp := by
  unfold State.localPart
  refine State.ite_kp rfl ?_
  split
  · rfl
  · rw [State.addReq_kp, State.countAccess_kp, State.setDesc_kp]

theorem State.restOfUnit_kp (did n : Nat) (s : State) : (State.restOfUnit did n s).kp = s.kp := by
  induction n generalizing s with
  | zero => rfl
  | succ n ih =>
    unfold State.restOfUnit
    split
    · rfl
    · split
      · rfl
      · split
        · split
          · rfl
          · rw [ih, State.localPart_kp]
        · rfl

theorem State.finishUnits_kp (s : State) : s.finishUnits.kp = s.kp := by
  have key : ∀ (l : List Desc) (s : State), (l.foldl (fun s d => State.restOfUnit d.id 16 s) s).kp = s.kp := by
    intro l
    induction l with
    | nil => exact fun _ => rfl
    | cons d l ih => exact fun s => (ih _).trans (State.restOfUnit_kp ..)
  exact key s.descs s

theorem State.finishUnits_rst (s : State) : s.finishUnits.rst = s.rst := (Keeps.finishUnits (calm := true) (.refl s)).rst rfl

/-- The state as the abort phase begins, before the first records go out. -/
def State.aborting (s : State) : State := { s.finishUnits with
  rst := { s.rst with abort := true, level := .warm }, qmResults := [], descs := [], fetchOrder := [],
  qmParked := if s.kp.fatal.any (fun f => f.1 == 0x10) then [] else s.finishUnits.abortRecords,
  queues := s.finishUnits.queues.map (fun (q : Nat × Queue) => (q.1, { q.2 with chains := [], part := [], halfEntry := none })) }

theorem State.beginAbort_eq (s : State) : s.beginAbort = s.aborting.pump := by
  rw [State.beginAbort, State.aborting, State.finishUnits_kp, State.finishUnits_rst]

theorem State.beginAbort_rst (s : State) : s.beginAbort.rst = { s.rst with abort := true, level := .warm } := by
  rw [State.beginAbort_eq, (Keeps.pump (calm := true) (.refl _)).rst rfl]
  rfl

theorem State.beginAbort_mode (s : State) : s.beginAbort.kp.mode = s.kp.mode := by
  rw [State.beginAbort_eq, (Keeps.pump (calm := true) (.refl _)).mode rfl]
  exact congrArg Keeper.mode s.finishUnits_kp

theorem State.beginAbort_die (s : State) : s.beginAbort.die = s.die := (Keeps.beginAbort (.refl s)).die

theorem State.askWarm_eq (h : s.rst.inEffect = false) (ha : s.rst.abort = false) (origin : Nat) :
    s.askWarm origin = (s.logReset 0 origin).beginAbort := by simp [State.askWarm, h, ha]

theorem State.askWarm_abort (h : s.rst.inEffect = false) (ha : s.rst.abort = false) (origin : Nat) : (s.askWarm origin).rst.abort = true := by
  rw [State.askWarm_eq h ha, State.beginAbort_rst]

theorem State.askCold_inEffect (h : s.rst.inEffect = false) (origin : Nat) : (s.askCold origin).rst.inEffect = true := by
  obtain ⟨out, e⟩ := State.askCold_is (s := s) (by simp [h]) origin
  rw [e]; rfl

/-- Settles O8: the abort phase begins by what it asks for, and its end by what Table 15-12 keeps. -/
theorem warmResetsAbortAndKeepWhatTheTableNames : Obligations.WarmResetsAbortAndKeepWhatTheTableNames := by
  refine ⟨fun s p h ha hp c origin hc => ?_, fun s h ha => abortPhaseEnd_keeps h ha⟩
  have he : exec c s = .next { s.askWarm origin with pending := s.pending } := by
    rcases hc with ⟨rfl, rfl⟩ | ⟨rfl, rfl⟩
    · rfl
    · rw [exec_kpResetWarm, execKpResetWarm, outOfReset_acts h, State.kpReset_warm hp]
  obtain ⟨r, f, log, n, o, el⟩ := s.logReset_is 0 origin
  refine ⟨_, he, ?_, ?_, ?_, rfl, ?_⟩ <;> rw [State.askWarm_eq h ha]
  · simp only [State.beginAbort_rst, el, h]
  · rw [State.beginAbort_mode, el]
  · rw [State.beginAbort_die, el]
  · rw [State.beginAbort_eq, State.aborting, show (s.logReset 0 origin).rst = s.rst by rw [el],
      show (s.logReset 0 origin).kp.fatal = s.kp.fatal by rw [el]]

/-! ### The halt -/

/-- The halt goes on, or a block reset has begun to leave it. -/
def State.haltedOrReset (t : State) : Prop := t.kp.mode = .halted ∨ t.rst.inEffect = true ∨ t.rst.abort = true

/-- A state that is halted by a fatal event, with no reset about. -/
structure State.AtHalt (s : State) : Prop where
  mode : s.kp.mode = .halted
  fatal : s.kp.fatal.isSome = true
  abort : s.rst.abort = false
  inEffect : s.rst.inEffect = false

theorem State.AtHalt.self (h : s.AtHalt) : s.haltedOrReset := .inl h.mode

theorem State.AtHalt.calm (h : s.AtHalt) (hk : Keeps true s t) : t.haltedOrReset := .inl ((hk.mode rfl).trans h.mode)

theorem State.haltedOrReset.calm (h : s.haltedOrReset) (hk : Keeps true s t) : t.haltedOrReset := by
  rw [State.haltedOrReset, hk.mode rfl, hk.rst rfl]
  exact h

theorem State.AtHalt.not_normal (h : s.AtHalt) : s.normal = false := normal_of_mode_ne (by rw [h.mode]; nofun)

theorem State.AtHalt.askWarm (h : s.AtHalt) (origin : Nat) : (s.askWarm origin).haltedOrReset :=
  .inr (.inr (State.askWarm_abort h.inEffect h.abort origin))

theorem State.AtHalt.askCold (h : s.AtHalt) (origin : Nat) : (s.askCold origin).haltedOrReset :=
  .inr (.inl (State.askCold_inEffect h.inEffect origin))

theorem State.AtHalt.kpReset (h : s.AtHalt) (p : Port) (part : Part) (v : Word) : (s.kpReset p part v).haltedOrReset := by
  unfold State.kpReset
  split
  · exact h.self
  · split
    · exact h.askCold _
    · exact h.askWarm _

/-- A register write in HALTED reaches the KP window alone. -/
theorem State.AtHalt.writeAny (h : s.AtHalt) (p : Port) (off : Nat) (part : Part) (v : Word) : (s.writeAny p off part v).haltedOrReset := by
  unfold State.writeAny
  dsimp only
  split
  · split
    · exact h.self
    · split
      · exact h.kpReset ..
      · exact h.calm (.writeFields (.refl s))
  · rw [if_neg (by simp [h.not_normal])]
    exact h.self

theorem State.AtHalt.nvmDone (h : s.AtHalt) (ok : Bool) (data : Bytes) : (s.nvmDone ok data).haltedOrReset := by
  rw [State.nvmDone, if_neg (by simp [h.abort]), if_neg (by simp [h.mode])]
  split
  · exact h.calm (.epochStep (.refl s))
  · exact h.self

theorem State.AtHalt.not_jobLives (h : s.AtHalt) : s.jobLives = false := by
  simp [State.jobLives, Option.isNone_eq_false_iff.mpr h.fatal]

theorem State.AtHalt.fatalDone (h : s.AtHalt) (trap : Bytes) : s.fatalDone trap = s := by
  unfold State.fatalDone
  split
  · rfl
  · rw [if_pos h.mode]

theorem State.AtHalt.regAccess (h : s.AtHalt) (dr : BitVec 88) : (s.regAccess dr).haltedOrReset := by
  unfold State.regAccess
  dsimp only
  split
  · exact h.self
  · split
    · exact (h.writeAny .debug _ .whole _).calm (.putTap (.pump (.refl _)))
    · exact h.calm (.putTap (.portRead (.refl s)))

theorem outOfReset_haltedOrReset {f : State → State} (h : s.AtHalt) (ht : outOfReset f s = .next t) (hf : (f s).haltedOrReset) :
    t.haltedOrReset := by
  rw [outOfReset_acts h.inEffect] at ht
  obtain rfl := Host.Outcome.next.inj ht
  exact hf

theorem answer_haltedOrReset (hu : u.haltedOrReset) (ht : answer s u = .next t) : t.haltedOrReset := by
  obtain rfl := Host.Outcome.next.inj ht
  exact hu

theorem State.AtHalt.resetRelease (h : s.AtHalt) (refClock startup : Bool) (ceilings : List Nat) :
    exec (.resetRelease refClock startup ceilings) s = .next s := by
  rw [exec_resetRelease, execResetRelease, if_neg (by simp [h.inEffect]), answer_self]

/-- Every command that acts in any mode leaves the halt as it is, or through a block reset. -/
theorem State.AtHalt.exec (h : s.AtHalt) {c : Instr} (hc : Instr.actsInAnyMode c = true) (ht : exec c s = .next t) : t.haltedOrReset := by
  cases c with
  | powerOnReset f x =>
    obtain ⟨out, e⟩ := s.enterReset_cold
    exact answer_haltedOrReset (.inr (.inl (by rw [e]; rfl))) ht
  | coldReset => exact answer_haltedOrReset (h.askCold _) ht
  | warmReset => exact answer_haltedOrReset (h.askWarm _) ht
  | abortPhaseEnd => exact outOfReset_haltedOrReset h ht (by rw [if_neg (by simp [h.abort])]; exact h.self)
  | kpResetWarm p => exact outOfReset_haltedOrReset (f := fun s => s.kpReset p .whole 0xA500) h ht (h.kpReset ..)
  | kpResetCold p => exact outOfReset_haltedOrReset (f := fun s => s.kpReset p .whole 0xA501) h ht (h.kpReset ..)
  | resetRelease r x l =>
    rw [h.resetRelease] at ht
    obtain rfl := Host.Outcome.next.inj ht
    exact h.self
  | registerWrite p off part v =>
    exact outOfReset_haltedOrReset (f := fun s => (s.writeAny p off part v).pump) h ht ((h.writeAny p off part v).calm (.pump (.refl _)))
  | nvmTransferComplete ok data => exact outOfReset_haltedOrReset (f := fun s => s.nvmDone ok data) h ht (h.nvmDone ok data)
  | securityResponse a => exact outOfReset_haltedOrReset h ht (by rw [if_neg (by simp [h.not_jobLives])]; exact h.self)
  | securityTimeout => exact outOfReset_haltedOrReset h ht (by rw [if_neg (by simp [h.not_jobLives])]; exact h.self)
  | regAccess dr => exact outOfReset_haltedOrReset (f := fun s => s.regAccess dr) h ht (h.regAccess dr)
  | fatalDumpWritten trap =>
    exact outOfReset_haltedOrReset (f := fun s => s.fatalDone trap) h ht (by rw [h.fatalDone]; exact h.self)
  | linkSend l => exact h.calm (Keeps.execLinkSend t ht)
  | pdAck d x => exact h.calm (Keeps.execPdAck t ht)
  | refClockLoss => exact h.calm (Keeps.execRefClockLoss t ht)
  | refClockReturn => exact h.calm (Keeps.execRefClockReturn t ht)
  | keeperWatchdog => exact h.calm (Keeps.execKeeperWatchdog t ht)
  | tapReset => exact h.calm (Keeps.execTapReset t ht)
  | idcode => exact h.calm (Keeps.execIdcode t ht)
  | wsExtest => exact h.calm (Keeps.execWsExtest t ht)
  | wsIntest => exact h.calm (Keeps.execWsIntest t ht)
  | wsBypass => exact h.calm (Keeps.execWsBypass t ht)
  | bypass => exact h.calm (Keeps.execBypass t ht)
  | _ => cases hc

/-- Settles O3: outside the commands that act in any mode nothing happens (O2), and of those only the resets leave the mode. -/
theorem onlyABlockResetLeavesTheHalt : Obligations.OnlyABlockResetLeavesTheHalt := by
  intro c s t hm hf ha hr ht
  have h : s.AtHalt := ⟨hm, hf, ha, hr⟩
  cases hc : Instr.actsInAnyMode c with
  | true => exact h.exec hc ht
  | false =>
    rw [commandsActOnlyInTheirModes.2.1 c s (by rw [hm]; nofun) ha hc] at ht
    obtain rfl := Host.Outcome.next.inj ht
    exact h.self

end Sys2Proof.Machine
end

section
/-! PROOFS. The boot and the security port: reads of the NOR (R501, R509) and the answers that decide lists and code images (R523, R582). -/

namespace Sys2Proof.Machine

variable {s t : State}

/-! ### The end of a boot -/

theorem State.programEpoch_is (s : State) (j : EpochJob) : ∃ x out, s.programEpoch j = { s with
    kp := { s.kp with epochJob := x }, out := s.out ++ out } := ⟨_, [_, _], by simp only [State.programEpoch, State.emit, List.append_assoc]; rfl⟩

theorem State.startEpoch_is (s : State) : ∃ x out, s.startEpoch = { s with kp := { s.kp with epochJob := x }, out := s.out ++ out } := by
  unfold State.startEpoch
  split
  · exact ⟨s.kp.epochJob, [], by simp⟩
  · dsimp only
    split
    · exact ⟨_, [_, _], by simp only [State.emit, List.append_assoc]; rfl⟩
    · exact s.programEpoch_is _

/-- The state of a boot that has ended, before its record and its epoch are written. -/
def State.ended (s : State) (mode : KpMode) (reason : Nat) : State :=
  State.useFree { s with kp := { s.kp with mode := mode, reason := reason, stage := .none, job := .none, bootUs := Config.bootUs s.free } }

theorem State.endBoot_eq (s : State) (mode : KpMode) (reason : Nat) : s.endBoot mode reason =
    ((s.ended mode reason).logObj 0x01 keeperOrigin (leAt s.kp.list 16 4)
      (leBytes 1 (modeCode mode) ++ leBytes 1 s.kp.source ++ leBytes 1 reason)).startEpoch := rfl

/-- The end of a boot: the keeper's mode and reason are set, no stage and no job is left, and beside the keeper only the registers of its
events, the free values and the messages change. -/
theorem State.endBoot_is (s : State) (mode : KpMode) (reason : Nat) : ∃ r f out us x log n o, s.endBoot mode reason = { s with
    regs := r, free := f, out := s.out ++ out,
    kp := { s.kp with mode := mode, reason := reason, stage := .none, job := .none, bootUs := us, epochJob := x, log := log, nextSeq := n,
                      overwritten := o } } := by
  obtain ⟨r, log, z, o, e, -⟩ := (s.ended mode reason).logObj_is 0x01 keeperOrigin (leAt s.kp.list 16 4)
    (leBytes 1 (modeCode mode) ++ leBytes 1 s.kp.source ++ leBytes 1 reason)
  obtain ⟨x, out, ex⟩ := ((s.ended mode reason).logObj 0x01 keeperOrigin (leAt s.kp.list 16 4)
    (leBytes 1 (modeCode mode) ++ leBytes 1 s.kp.source ++ leBytes 1 reason)).startEpoch_is
  exact ⟨r, _, out, _, x, _, _, o, by rw [State.endBoot_eq, ex, e]; rfl⟩

/-! ### Reads of the NOR -/

theorem State.nvmDone_boot (ha : s.rst.abort = false) (hm : s.kp.mode = .booting) (hf : s.kp.fatal = none) (ok : Bool) (data : Bytes) :
    s.nvmDone ok data = s.nvmRead ok data := by
  rw [State.nvmDone, if_neg (by simp [ha]), if_pos (by simp [hm, hf])]

theorem execNvmTransferComplete_boot (h : s.rst.inEffect = false) (ha : s.rst.abort = false) (hm : s.kp.mode = .booting)
    (hf : s.kp.fatal = none) (ok : Bool) (data : Bytes) :
    exec (.nvmTransferComplete ok data) s = .next { s.nvmRead ok data with pending := s.pending } := by
  rw [exec_nvmTransferComplete, execNvmTransferComplete, outOfReset_acts h, State.nvmDone_boot ha hm hf]

/-- A read that failed, or an SFDP without a parameter table, ends the boot. -/
theorem State.nvmRead_failed {ok : Bool} {data : Bytes}
    (h : (ok = false ∧ (s.kp.stage = .sfdp ∨ s.kp.stage = .directory ∨ s.kp.stage = .epochs ∨ ∃ e, s.kp.stage = .list e)) ∨
      (s.kp.stage = .sfdp ∧ bfptAt data = none)) : s.nvmRead ok data = s.norFailed := by
  unfold State.nvmRead
  rcases h with ⟨rfl, hs | hs | hs | ⟨e, hs⟩⟩ | ⟨hs, hb⟩ <;> rw [hs]
  case inr => rw [hb]; cases ok <;> rfl
  all_goals rfl

theorem State.nvmRead_sfdp {data : Bytes} {at' : Nat} (hs : s.kp.stage = .sfdp) (hb : bfptAt data = some at') : s.nvmRead true data =
    State.emit { s with kp := { s.kp with stage := .directory, nor := norOf data at' } } ((norOf data at').bulk 0 0x1000) := by
  rw [State.nvmRead, hs]
  rw [hb]

/-- Settles O11. -/
theorem norReadsDriveTheBoot : Obligations.NorReadsDriveTheBoot := by
  intro s data h ha hm hf
  refine ⟨fun at' hs hb => ?_, fun ok hbad => ?_⟩
  · rw [execNvmTransferComplete_boot h ha hm hf, State.nvmRead_sfdp hs hb]
    rfl
  · obtain ⟨r, f, out, us, x, log, n, o, e⟩ := State.endBoot_is
      { s with kp := { s.kp with epoch := if s.kp.epoch = 0 then nextEpoch 0 else s.kp.epoch } } .keeperOnly 0x01
    refine ⟨_, execNvmTransferComplete_boot h ha hm hf ok data, ?_⟩
    rw [State.nvmRead_failed hbad, State.norFailed, State.keeperOnly, e]
    exact ⟨rfl, rfl, rfl, rfl, rfl, rfl, rfl, rfl⟩

/-! ### The security port -/

theorem State.checkFailed_is (s : State) (origin : Nat) (f : CheckFail) : ∃ r g log n o, s.checkFailed origin f = { s with
    regs := r, free := g, commit := { s.commit with phase := .idle, result := f.code },
    kp := { s.kp with log := log, nextSeq := n, overwritten := o } } := by
  obtain ⟨r, log, x, o, e, -⟩ := State.logObj_is
    (({ s.setReg Reg.cfCheckInfo (BitVec.ofNat 64 (2 ^ 48 * f.sel + 2 ^ 32 * f.sel2 + 2 ^ 24 * f.code + f.off)) with
        commit := { s.commit with phase := .idle, result := f.code } } : State).evCf 1)
    0x04 origin f.off (BitVec.ofNat 8 f.code :: leBytes 4 f.off)
  exact ⟨r, _, _, _, o, e⟩

/-- The word that CF_CHECK_INFO latches of a failed CHECK (Table 15-8). -/
def checkWord (f : CheckFail) : Word := BitVec.ofNat 64 (2 ^ 48 * f.sel + 2 ^ 32 * f.sel2 + 2 ^ 24 * f.code + f.off)

theorem fld_checkWord {f : CheckFail} (hc : f.code < 256) (ho : f.off < 2 ^ 24) :
    fld (checkWord f) 31 24 = f.code ∧ fld (checkWord f) 23 0 = f.off := by
  simp only [fld, checkWord, BitVec.toNat_ofNat]
  omega

/-- A failed CHECK latches where it failed (R516). -/
theorem State.reg_checkFailed (s : State) (origin : Nat) {f : CheckFail} (hc : f.code < 256) (hc0 : f.code ≠ 0) (ho : f.off < 2 ^ 24) :
    (s.checkFailed origin f).reg Reg.cfCheckInfo = checkWord f := by
  have hne : checkWord f ≠ resetOf s.grade Reg.cfCheckInfo := by
    rw [resetOf_same (by decide) s.grade 3, show resetOf 3 Reg.cfCheckInfo = 0 by decide]
    intro h0
    have := (fld_checkWord hc ho).1
    rw [h0] at this
    exact hc0 (this.symm.trans (by decide))
  obtain ⟨r, log, x, o, e, -, hr, -⟩ := State.logObj_is
    (({ s.setReg Reg.cfCheckInfo (checkWord f) with commit := { s.commit with phase := .idle, result := f.code } } : State).evCf 1)
    0x04 origin f.off (BitVec.ofNat 8 f.code :: leBytes 4 f.off)
  have h1 : (s.checkFailed origin f).reg Reg.cfCheckInfo = rget s.grade r Reg.cfCheckInfo := congrArg (State.reg · Reg.cfCheckInfo) e
  rw [h1]
  exact (hr _ (by decide) (by decide)).trans ((State.reg_event_ne _ (by decide) (by decide)).trans (s.reg_setReg_self hne))

theorem jobLives_of (ha : s.rst.abort = false) (hf : s.kp.fatal = none) : s.jobLives = true := by simp [State.jobLives, ha, hf]

theorem execSecurityResponse_acts (h : s.rst.inEffect = false) (ha : s.rst.abort = false) (hf : s.kp.fatal = none) (a : Byte) :
    exec (.securityResponse a) s = .next { s.verdict (a == 0) with pending := s.pending } := by
  rw [exec_securityResponse, execSecurityResponse, outOfReset_acts h, if_pos (jobLives_of ha hf)]

theorem execSecurityResponse_fails (h : s.rst.inEffect = false) (ha : s.rst.abort = false) (hf : s.kp.fatal = none) :
    exec (.securityResponse 1) s = .next { s.verdict false with pending := s.pending } := execSecurityResponse_acts h ha hf 1

theorem execSecurityTimeout_acts (h : s.rst.inEffect = false) (ha : s.rst.abort = false) (hf : s.kp.fatal = none) :
    exec .securityTimeout s = .next { s.noVerdict with pending := s.pending } := by
  rw [exec_securityTimeout, execSecurityTimeout, outOfReset_acts h, if_pos (jobLives_of ha hf)]

/-- The failure that a code image without a good answer has (Table 15-8). -/
def imageFail : CheckFail := { code := 0x0A, off := Reg.cfImgCtrl, sel := 0, sel2 := 0 }

theorem State.verdict_code {apply : Bool} {origin : Nat} (hj : s.kp.job = .code apply origin) (pass : Bool) :
    s.verdict pass = s.codeVerdict apply origin pass := by rw [State.verdict, hj]

/-- The state once the security port has answered for a code image. -/
def State.answered (s : State) : State := { s with kp := { s.kp with job := .none }, commit := { s.commit with phase := .idle } }

theorem State.codeVerdict_normal (hm : s.kp.mode = .normal) (apply : Bool) (origin : Nat) (pass : Bool) : s.codeVerdict apply origin pass =
    if !pass then s.answered.checkFailed origin imageFail
    else if apply then s.answered.startCommit origin
    else { s.answered with commit := { s.answered.commit with result := 0 } } := by
  have h : s.answered.kp.mode ≠ .booting := by rw [show s.answered.kp.mode = s.kp.mode from rfl, hm]; nofun
  exact if_neg h

theorem State.codeVerdict_failed (hm : s.kp.mode = .normal) (apply : Bool) (origin : Nat) :
    s.codeVerdict apply origin false = s.answered.checkFailed origin imageFail := (State.codeVerdict_normal hm ..).trans (if_pos rfl)

theorem State.nextSlot_nil (h : s.kp.slots = []) : s.nextSlot = s.keeperOnly (if s.kp.worst = 0 then 0x02 else s.kp.worst) := by
  rw [State.nextSlot, h]

theorem State.nextSlot_cons {e : SlotEntry} {rest : List SlotEntry} (h : s.kp.slots = e :: rest) : s.nextSlot =
    State.emit { s with kp := { s.kp with slots := rest, stage := .list e } } (s.kp.nor.bulk e.offset e.length) := by
  rw [State.nextSlot, h]

/-- A list that fails its signature has come furthest of all (R507). -/
theorem worst_of_auth (w : Nat) : (if refusalRank w < refusalRank 0x03 then 0x03 else w) = 0x03 := by
  unfold refusalRank
  split_ifs <;> simp_all

/-- The state once a list has failed its signature. -/
def State.listFailed (s : State) : State := { s with kp := { s.kp with job := .none, worst := 0x03 } }

/-- A list that fails sends the keeper on, with the list's job ended (R507). -/
theorem State.verdict_list {e : SlotEntry} {list : Bytes} (hj : s.kp.job = .list) (hs : s.kp.stage = .auth e list) :
    s.verdict false = s.listFailed.nextSlot := by
  rw [State.verdict, hj]
  dsimp only
  rw [hs]
  dsimp only
  rw [if_neg (by decide), State.refuseList]
  exact congrArg (fun w => State.nextSlot { s with kp := { s.kp with job := .none, worst := w } }) (worst_of_auth _)

/-- Settles O12. -/
theorem securityAnswersDecideTheJob : Obligations.SecurityAnswersDecideTheJob := by
  refine ⟨fun s h ha hf => ⟨fun origin hj hm => ?_, fun origin hj hm => ?_, fun apply origin hj hm => ?_, fun e list hj hs hl => ?_,
    fun e e' list rest hj hs hl => ?_⟩, fun s h ha hf => ⟨fun hj hm => ?_, fun apply origin hj hm => ?_⟩⟩
  · rw [execSecurityResponse_acts h ha hf, State.verdict_code hj, State.codeVerdict_normal hm]
    rfl
  · rw [execSecurityResponse_acts h ha hf, State.verdict_code hj, State.codeVerdict_normal hm]
    rfl
  · refine ⟨_, execSecurityResponse_fails h ha hf, ?_⟩
    obtain ⟨r, g, log, n, o, e⟩ := s.answered.checkFailed_is origin imageFail
    have hw := s.answered.reg_checkFailed origin (f := imageFail) (by decide) (by decide) (by decide)
    rw [e] at hw
    rw [State.verdict_code hj, State.codeVerdict_failed hm, e]
    exact ⟨rfl, rfl, rfl, (congrArg (fld · 31 24) hw).trans (by decide)⟩
  · obtain ⟨r, f, out, us, x, log, n, o, e⟩ := s.listFailed.endBoot_is .keeperOnly 0x03
    refine ⟨_, execSecurityResponse_fails h ha hf, ?_⟩
    rw [State.verdict_list hj hs, State.nextSlot_nil (s := s.listFailed) hl, if_neg (by exact nofun : s.listFailed.kp.worst ≠ 0),
      State.keeperOnly, show s.listFailed.kp.worst = 0x03 from rfl, e]
    exact ⟨rfl, rfl, rfl⟩
  · refine ⟨_, execSecurityResponse_fails h ha hf, ?_⟩
    rw [State.verdict_list hj hs, State.nextSlot_cons (s := s.listFailed) hl]
    exact ⟨rfl, rfl, rfl, rfl, rfl⟩
  · obtain ⟨r, f, out, us, x, log, n, o, e⟩ := State.endBoot_is { s with commit := { s.commit with phase := .idle } } .keeperOnly 0x07
    refine ⟨_, execSecurityTimeout_acts h ha hf, ?_⟩
    rw [State.noVerdict, if_neg hj, if_pos hm, State.keeperOnly, e]
    exact ⟨rfl, rfl, rfl, rfl, rfl⟩
  · refine ⟨_, execSecurityTimeout_acts h ha hf, ?_⟩
    obtain ⟨r, g, log, n, o, e⟩ := s.answered.checkFailed_is origin imageFail
    rw [State.noVerdict, if_neg (by rw [hj]; nofun), if_neg (by rw [hm]; nofun), State.verdict_code hj,
      State.codeVerdict_failed hm, e]
    exact ⟨rfl, rfl, rfl⟩

end Sys2Proof.Machine
end

section
/-! PROOFS. Register writes (R512, R513, R517, R598, R599, R603): the fields that a write covers, the refusals, the windows and the modes, the
words of images (R521) and the parameters of a queue (R121). -/

namespace Sys2Proof.Machine

variable {s t : State}

/-! ### Refused writes -/

/-- The word that CF_REFUSE_INFO latches of a refused write (R512). -/
def refuseWord (origin reason off : Nat) : Word := BitVec.ofNat 64 (2 ^ 32 * origin + 2 ^ 24 * reason + off)

theorem fld_refuseWord {origin reason off : Nat} (hr : reason < 256) (ho : off < 2 ^ 24) : fld (refuseWord origin reason off) 31 24 = reason := by
  simp only [fld, refuseWord, BitVec.toNat_ofNat]
  omega

theorem refuseWord_ne_zero {origin reason off : Nat} (h0 : reason ≠ 0) (hr : reason < 256) (ho : off < 2 ^ 24) : refuseWord origin reason off ≠ 0 := by
  intro h
  have := fld_refuseWord (origin := origin) hr ho
  rw [h] at this
  exact h0 (this.symm.trans (by decide))

/-- A refused write latches its word, sets CF_EVENT.WRITE_REFUSED and leaves a REFUSED record; of the registers those of the keeper's and the
configuration's events change as well, and nothing else but a free value is taken. -/
theorem State.refuseWrite_is (s : State) {origin reason off : Nat} (h0 : reason ≠ 0) (hr : reason < 256) (ho : off < 2 ^ 24) :
    ∃ r g log x n o, s.refuseWrite origin reason off = { s with
        regs := r, free := g, kp := { s.kp with log := log ++ [x], nextSeq := n, overwritten := o } } ∧
      x.kind = 0x07 ∧ x.origin = origin ∧ x.object = off ∧
      rget s.grade r Reg.cfRefuseInfo = refuseWord origin reason off ∧ bit (rget s.grade r Reg.cfEvent) 2 = true ∧
      (∀ j, j ∉ [Reg.cfRefuseInfo, Reg.cfEvent, Reg.cfEventCnt, Reg.kpEvent, Reg.kpEventCnt] → rget s.grade r j = s.reg j) := by
  obtain ⟨r, log, x, o, e, hx, hreg, -⟩ := ((s.setReg Reg.cfRefuseInfo (refuseWord origin reason off)).evCf 2).logObj_is 0x07 origin off
    [BitVec.ofNat 8 reason]
  have hw : (s.setReg Reg.cfRefuseInfo (refuseWord origin reason off)).reg Reg.cfRefuseInfo = refuseWord origin reason off :=
    s.reg_setReg_self (by rw [resetOf_same (by decide) s.grade 3]; exact refuseWord_ne_zero h0 hr ho)
  refine ⟨r, _, log, x, _, o, e, by rw [hx], by rw [hx], by rw [hx], ?_, ?_, fun j hj => ?_⟩
  · exact (hreg _ (by decide) (by decide)).trans ((State.reg_event_ne _ (by decide) (by decide)).trans hw)
  · have hb : bit (((s.setReg Reg.cfRefuseInfo (refuseWord origin reason off)).evCf 2).reg Reg.cfEvent) 2 = true :=
      (State.bit_event _ (by decide) (resetOf_events (by decide) _) (by decide) (by decide)).trans (by simp)
    exact (congrArg (bit · 2) (hreg _ (by decide) (by decide))).trans hb
  · simp only [List.mem_cons, List.not_mem_nil, or_false, not_or] at hj
    obtain ⟨h1, h2, h3, h4, h5⟩ := hj
    exact (hreg j h4 h5).trans ((State.reg_event_ne _ h2 h3).trans (s.reg_setReg_ne _ h1))

/-! ### The fields of a write -/

theorem merge_zero (a b : Word) : merge a b 0 = a := word_ext fun i hi => by rw [bit_merge hi]; simp [bit]

/-- What the RW and W1C fields of a register hold after a write (R598, R607). -/
def plainWrite (r : RegRow) (old m v : Word) : Word := merge old v (r.rw &&& m) &&& ~~~(v &&& m &&& r.w1c)

theorem State.writePlain_eq (s : State) (k : Nat) (r : RegRow) (m v : Word) : s.writePlain k r m v = s.setReg k (plainWrite r (s.reg k) m v) := rfl

theorem State.reg_writePlain (h : tsorted s.regs = true) (k j : Nat) (r : RegRow) (m v : Word) :
    (s.writePlain k r m v).reg j = if j = k then plainWrite r (s.reg k) m v else s.reg j := State.reg_setReg h ..

theorem State.tsorted_writePlain (h : tsorted s.regs = true) (k : Nat) (r : RegRow) (m v : Word) :
    tsorted (s.writePlain k r m v).regs = true := State.tsorted_setReg h ..

theorem State.writeFields_eq {p : Port} {off k : Nat} {r : RegRow} (hn : normOff off = off) (hr : regRow off = some r)
    (ha : s.absentReg off = false) (hk : s.keyOf p off = some k) (part : Part) (v : Word) : s.writeFields p off part v =
    (s.writePlain k r (partMask part) (partVal part v)).writeStaged p off k r (partMask part) (partVal part v) := by
  rw [State.writeFields, hn]
  dsimp only
  rw [hr]
  dsimp only
  rw [if_neg (by simp [ha]), hk]

/-- The staged fields of a write that no lock and no commit refuses. -/
theorem State.writeStaged_open {p : Port} {off k : Nat} {r : RegRow} (hl : s.lockedReg off = false) (hp : s.commit.phase = .idle) (m v : Word) :
    (s.writeStaged p off k r m v = s ∧ r.st &&& m = 0) ∨
      s.writeStaged p off k r m v = s.setShadow k (merge (s.shadow k) v (r.st &&& m)) := by
  unfold State.writeStaged
  split
  next h => exact .inl ⟨rfl, h⟩
  next => exact .inr (by rw [if_neg (by simp [hl]), if_neg (by simp [hp])])

theorem State.shadow_setShadow {s : State} (h : tsorted s.cfg.shadow = true) (k j : Nat) (v : Word) :
    (s.setShadow k v).shadow j = if j = k then v else s.shadow j := rget_rput h ..

theorem State.writeStaged_refused {p : Port} {off k reason : Nat} {r : RegRow} {m : Word} (hst : r.st &&& m ≠ 0)
    (h : (s.lockedReg off = true ∧ reason = 1) ∨ (s.lockedReg off = false ∧ s.commit.phase ≠ .idle ∧ reason = 3)) (v : Word) :
    s.writeStaged p off k r m v = s.refuseWrite (originOf p) reason off := by
  rw [State.writeStaged, if_neg hst]
  rcases h with ⟨hl, rfl⟩ | ⟨hl, hp, rfl⟩
  · rw [if_pos hl]
  · rw [if_neg (by simp [hl]), if_pos hp]

/-- A write that acts on nothing, where no lock and no commit stands in its way (O13, first part). -/
theorem writeFields_open {p : Port} {off k : Nat} {r : RegRow} (part : Part) (v : Word) (hn : normOff off = off) (hr : regRow off = some r)
    (ha : s.absentReg off = false) (hk : s.keyOf p off = some k) (hs : tsorted s.regs = true) (hc : tsorted s.cfg.shadow = true)
    (hl : s.lockedReg off = false) (hp : s.commit.phase = .idle) :
    let t := s.writeFields p off part v
    t = { s with regs := t.regs, cfg := { s.cfg with shadow := t.cfg.shadow } } ∧
    t.reg k = plainWrite r (s.reg k) (partMask part) (partVal part v) ∧
    t.shadow k = merge (s.shadow k) (partVal part v) (r.st &&& partMask part) ∧
    (∀ k', k' ≠ k → t.reg k' = s.reg k' ∧ t.shadow k' = s.shadow k') ∧ tsorted t.regs = true ∧ tsorted t.cfg.shadow = true := by
  have hreg := fun j => State.reg_writePlain hs k j r (partMask part) (partVal part v)
  have hs' := State.tsorted_writePlain hs k r (partMask part) (partVal part v)
  dsimp only
  rw [State.writeFields_eq hn hr ha hk]
  rcases State.writeStaged_open (s := s.writePlain k r (partMask part) (partVal part v)) (p := p) (r := r) (k := k) hl hp
    (partMask part) (partVal part v) with ⟨e, h0⟩ | e <;> rw [e]
  · exact ⟨rfl, (hreg k).trans (if_pos rfl), by rw [h0, merge_zero]; rfl, fun j hj => ⟨(hreg j).trans (if_neg hj), rfl⟩, hs', hc⟩
  · have hsh := fun j => State.shadow_setShadow (s := s.writePlain k r (partMask part) (partVal part v)) hc k j
      (merge (s.shadow k) (partVal part v) (r.st &&& partMask part))
    exact ⟨rfl, (hreg k).trans (if_pos rfl), (hsh k).trans (if_pos rfl),
      fun j hj => ⟨(hreg j).trans (if_neg hj), (hsh j).trans (if_neg hj)⟩, hs', tsorted_rput hc ..⟩

/-- Settles O13: a write that nothing stands in the way of, and one whose staged fields are refused. -/
theorem registerWritesChangeOnlyCoveredFields : Obligations.RegisterWritesChangeOnlyCoveredFields := by
  refine ⟨fun s p off k r part v hn hr ha hk hs hc hl hp => writeFields_open part v hn hr ha hk hs hc hl hp,
    fun s p off k r part v hn hr ha hk hst ho hp reason hreason => ?_⟩
  have h0 : reason ≠ 0 ∧ reason < 256 := by rcases hreason with ⟨-, rfl⟩ | ⟨-, -, rfl⟩ <;> decide
  obtain ⟨g, f, log, x, n, o, e, hk7, hor, hob, hinfo, hev, hreg⟩ :=
    (s.writePlain k r (partMask part) (partVal part v)).refuseWrite_is (origin := originOf p) (off := off) h0.1 h0.2 ho
  dsimp only
  rw [State.writeFields_eq hn hr ha hk,
    State.writeStaged_refused (s := s.writePlain k r (partMask part) (partVal part v)) hst hreason, e]
  exact ⟨rfl, rfl, hinfo, hev, ⟨x, by simp, hk7, hor, hob⟩,
    fun hne hs => (hreg k hne).trans ((State.reg_writePlain hs ..).trans (if_pos rfl))⟩

/-! ### Windows and modes -/

theorem isInst_bounds {off base stride count : Nat} (h : isInst off base stride count = true) :
    base ≤ off ∧ (off - base) / stride < count := by
  simp only [isInst, Bool.and_eq_true, decide_eq_true_eq] at h
  exact ⟨h.1.1, h.2⟩

/-- A register that does nothing of its own takes its fields alone. -/
theorem State.writeActing_plain {p : Port} {off : Nat} (h : actingOff off = false) (part : Part) (v : Word) :
    s.writeActing p off part v = s.writeFields p off part v := by
  simp only [actingOff, Bool.or_eq_false_iff, List.contains_eq_mem, decide_eq_false_iff_not, List.mem_cons, List.not_mem_nil, or_false,
    not_or, Bool.and_eq_false_iff] at h
  obtain ⟨⟨⟨⟨⟨h1, h2, h3, h4, h5, h6, h7, h8, h9, h10, h11, h12⟩, hq⟩, htp⟩, hfb⟩, hpr⟩ := h
  have htp' : ¬(0x70000 ≤ off ∧ off < 0x80000) := by omega
  have hlock : off ≠ Reg.tpLock := fun e => htp' (by rw [e]; decide)
  have hinj : off ≠ Reg.tpInj := fun e => htp' (by rw [e]; decide)
  have htg : isInst off (Reg.tpTgCtrl 0) 0x20 64 = false := by
    by_contra hc
    have hb := isInst_bounds (eq_true_of_ne_false hc)
    rw [show Reg.tpTgCtrl 0 = 0x71000 by rfl] at hb
    omega
  have htp3 : ¬(0x70000 ≤ off ∧ off < 0x80000 ∧ (regRow off).isSome = true) := fun hc => htp' ⟨hc.1, hc.2.1⟩
  simp only [State.writeActing, h1, h2, h3, h4, h5, h6, h7, h8, h9, h10, h11, h12, hq, hlock, hinj, htg, htp3, hfb, hpr, if_false,
    Bool.false_eq_true]

theorem State.writeAny_kp {p : Port} {off : Nat} (hn : normOff off = off) (hp : fromCompute p = false)
    (hk : 0x20000 ≤ off ∧ off < 0x30000) (hne : off ≠ Reg.kpReset) (part : Part) (v : Word) :
    s.writeAny p off part v = s.writeFields p off part v := by
  rw [State.writeAny, hn]
  rw [if_pos hk, if_neg (by simp [hp]), if_neg hne]

theorem State.writeAny_normal {p : Port} {off : Nat} (hn : normOff off = off) (hp : fromCompute p = false)
    (hk : ¬(0x20000 ≤ off ∧ off < 0x30000)) (hs : s.normal = true) (part : Part) (v : Word) :
    s.writeAny p off part v = s.writeActing p off part v := by
  rw [State.writeAny, hn]
  rw [if_neg hk, if_pos hs, State.writeNormal, if_neg (by simp [hp])]

theorem State.writeAny_inert {p : Port} {off : Nat} (hn : normOff off = off) (hk : ¬(0x20000 ≤ off ∧ off < 0x30000))
    (hs : s.normal = false) (part : Part) (v : Word) : s.writeAny p off part v = s := by
  rw [State.writeAny, hn]
  rw [if_neg hk, if_neg (by simp [hs])]

/-- A meaning behind mode NORMAL that does nothing leaves the state as it is. -/
theorem whenNormal_self {f : State → State} (h : f s = s) : whenNormal f s = .next s := by
  rw [whenNormal, h, ite_self, answer_self]

/-- An action on both halves of a register does nothing on a 32-bit write (R599). -/
theorem halfWrites_inert {p : Port} {part : Part} (h : part ≠ .whole) (v : Word) :
    exec (.bySet p part v) s = .next s ∧ exec (.byArm p part v) s = .next s ∧ exec (.bySignal p part v) s = .next s ∧
    exec (.atInv p part v) s = .next s ∧ exec (.atTableWrite p part v) s = .next s ∧
    (fromCompute p = false → exec (.cfImgDataWrite p part v) s = .next s) := by
  refine ⟨whenNormal_self (f := fun s => s.bySet p part v) ?_, whenNormal_self (f := fun s => s.byArm p part v) ?_,
    whenNormal_self (f := fun s => s.bySignal p part v) ?_, whenNormal_self (f := fun s => if fromCompute p then s else s.atInv part v) ?_,
    whenNormal_self (f := fun s => if fromCompute p then s else s.atTable p part v) ?_,
    fun hp => whenNormal_self (f := fun s => s.imgData p part v) ?_⟩
  · cases p with
    | compute g => rfl
    | host | debug => exact if_pos h
  · exact if_pos h
  · exact if_pos h
  · rw [State.atInv, if_pos h, ite_self]
  · rw [State.atTable, if_pos h, ite_self]
  · cases p with
    | compute g => cases hp
    | host | debug => exact if_pos (.inl h)

/-- Settles O14. -/
theorem registerWritesLandByModeAndWindow : Obligations.RegisterWritesLandByModeAndWindow := by
  refine ⟨fun s p off part v hr hp hn => ⟨fun h => ?_, fun hk hm => ?_⟩, fun s p part v h => halfWrites_inert h v⟩ <;>
    rw [exec_registerWrite, execRegisterWrite, outOfReset_acts hr]
  · rcases h with ⟨h1, h2, h3⟩ | ⟨hk, hm, ha⟩
    · rw [State.writeAny_kp hn hp ⟨h1, h2⟩ h3]
    · rw [State.writeAny_normal hn hp hk (by simp [State.normal, hr, hm]), State.writeActing_plain ha]
  · rw [State.writeAny_inert hn hk (normal_of_mode_ne hm)]

/-! ### Words of images -/

theorem State.image_putImage (mem bank i : Nat) (v : Word) : (s.putImage mem bank i v).image mem = { s.image mem with
    words := if v = 0 then tdel (s.image mem).words (2 ^ 20 * bank + i) else tput (s.image mem).words (2 ^ 20 * bank + i) v,
    damaged := (s.image mem).damaged.filter (· != 2 ^ 20 * bank + i) } := by
  rw [State.image, State.putImage, tget_tput_self]
  rfl

theorem State.image_putImage_ne {m mem : Nat} (h : m ≠ mem) (bank i : Nat) (v : Word) : (s.putImage mem bank i v).image m = s.image m := by
  rw [State.image, State.putImage, tget_tput_ne h]
  rfl

/-- A word that is written reads so, and every other word of the memory reads as before. -/
theorem State.tget_putImage {mem : Nat} (h : tsorted (s.image mem).words = true) (bank i : Nat) (v : Word) :
    (tget ((s.putImage mem bank i v).image mem).words (2 ^ 20 * bank + i)).getD 0 = v ∧
    (∀ j, j ≠ 2 ^ 20 * bank + i → tget ((s.putImage mem bank i v).image mem).words j = tget (s.image mem).words j) := by
  rw [State.image_putImage]
  by_cases hv : v = 0
  · simp only [hv, if_true]
    exact ⟨by rw [tget_tdel_self h]; rfl, fun j hj => tget_tdel_ne hj⟩
  · simp only [hv, if_false]
    exact ⟨by rw [tget_tput_self]; rfl, fun j hj => tget_tput_ne hj⟩

theorem execCfImgDataWrite_acts (h : s.normal = true) {p : Port} (hp : fromCompute p = false)
    (hm : s.isImage (s.regFld Reg.cfImgSel 7 0) = true) (v : Word) :
    exec (.cfImgDataWrite p .whole v) s = .next { (
      if s.commit.phase ≠ .idle then s.refuseWrite (originOf p) 3 Reg.cfImgData
      else if s.regFld Reg.cfImgSel 8 8 = (s.image (s.regFld Reg.cfImgSel 7 0)).active then s.refuseWrite (originOf p) 2 Reg.cfImgData
      else (s.putImage (s.regFld Reg.cfImgSel 7 0) (s.regFld Reg.cfImgSel 8 8)
          (s.regFld Reg.cfImgAddr 18 3 % (imageBytes (s.regFld Reg.cfImgSel 7 0) / 8)) v).setFld Reg.cfImgAddr 18 3
        ((s.regFld Reg.cfImgAddr 18 3 % (imageBytes (s.regFld Reg.cfImgSel 7 0) / 8) + 1) %
          (imageBytes (s.regFld Reg.cfImgSel 7 0) / 8))) with pending := s.pending } := by
  rw [exec_cfImgDataWrite, execCfImgDataWrite, whenNormal_acts h]
  cases p with
  | compute g => cases hp
  | host | debug =>
    unfold State.imgData
    dsimp only
    rw [if_neg (by simp [hm])]

/-- Settles O15. -/
theorem imageWordsGoToTheInactiveBank : Obligations.ImageWordsGoToTheInactiveBank := by
  intro s p v h hp hm
  refine ⟨fun hi hb hs => ?_, fun reason hr => ?_⟩
  · have hact := fun i => congrArg Image.active (s.image_putImage (s.regFld Reg.cfImgSel 7 0) (s.regFld Reg.cfImgSel 8 8) i v)
    obtain ⟨h1, h2⟩ := State.tget_putImage hs (s.regFld Reg.cfImgSel 8 8)
      (s.regFld Reg.cfImgAddr 18 3 % (imageBytes (s.regFld Reg.cfImgSel 7 0) / 8)) v
    refine ⟨_, execCfImgDataWrite_acts h hp hm v, ?_⟩
    rw [if_neg (by simp [hi]), if_neg hb]
    exact ⟨rfl, h1, hact _, h2, fun m hm => State.image_putImage_ne hm ..⟩
  · obtain ⟨r, g, log, x, n, o, e, -, -, -, hinfo, -⟩ := s.refuseWrite_is (origin := originOf p) (reason := reason) (off := Reg.cfImgData)
      (by rcases hr with ⟨-, rfl⟩ | ⟨-, -, rfl⟩ <;> decide) (by rcases hr with ⟨-, rfl⟩ | ⟨-, -, rfl⟩ <;> decide) (by decide)
    refine ⟨_, execCfImgDataWrite_acts h hp hm v, ?_⟩
    rcases hr with ⟨hc, rfl⟩ | ⟨hc, hb, rfl⟩
    · rw [if_pos hc, e]
      exact ⟨rfl, rfl, hinfo⟩
    · rw [if_neg (by simp [hc]), if_pos hb, e]
      exact ⟨rfl, rfl, hinfo⟩

/-! ### Parameters -/

/-- An event whose count stands in its own register sets its bit. -/
theorem State.bit_event_self {k hi lo : Nat} (hr : resetOf s.grade k = 0) (hlo : 0 < lo) : bit ((s.event k 0 k hi lo).reg k) 0 = true := by
  have hne : ∀ w : Word, bit w 0 = true → w ≠ resetOf s.grade k := by
    intro w hw h0
    rw [h0, hr] at hw
    exact absurd hw (by decide)
  have h1 : (s.setReg k (putBit (s.reg k) 0 true)).reg k = putBit (s.reg k) 0 true :=
    s.reg_setReg_self (hne _ (by rw [bit_putBit (by decide)]; rfl))
  have h2 : ∀ n, bit (putFld (putBit (s.reg k) 0 true) hi lo n) 0 = true := fun n => by
    rw [bit_putFld_ne (by decide) (.inl hlo), bit_putBit (by decide)]; rfl
  have he : s.event k 0 k hi lo = (s.setReg k (putBit (s.reg k) 0 true)).setReg k
      (putFld ((s.setReg k (putBit (s.reg k) 0 true)).reg k) hi lo ((s.setReg k (putBit (s.reg k) 0 true)).regFld k hi lo + 1)) := rfl
  rw [he, State.reg_setReg_self, h1]
  · exact h2 _
  · rw [h1]
    exact hne _ (h2 _)

/-- Settles O16: by the state of the queue. -/
theorem parameterWritesNeedAStoppedQueue : Obligations.ParameterWritesNeedAStoppedQueue := by
  intro s p i part v h hi hq
  have hacts : exec (.prParamWrite p i part v) s = .next { s.prParam p i part v with pending := s.pending } := by
    rw [exec_prParamWrite, execPrParamWrite, whenNormal_acts h]
  refine ⟨fun hp hst x hx => ?_, fun hp hst => ?_, fun hp => ?_⟩
  · rw [hacts, State.prParam, if_neg (by simp [hp, hi, hq])]
    rcases hst with e | e <;> rw [e, State.onQueue, tmod, hx]
  · refine ⟨_, hacts, ?_⟩
    rw [State.prParam, if_neg (by simp [hp, hi, hq])]
    rcases hst with e | e <;> rw [e] <;> exact ⟨rfl, State.bit_event_self ((resetOf_same (by decide) s.grade 3).trans (by decide)) (by decide)⟩
  · rw [hacts, State.prParam, if_pos (by simp [hp])]

end Sys2Proof.Machine
end

section
/-! PROOFS. CHECK, APPLY and DISCARD of the staged configuration (R516, R517, R605), and the fatal dump (R554, R555; Table 16-5). -/

namespace Sys2Proof.Machine

variable {s t : State}

/-! ### CF_CTRL -/

theorem fld_refuseWord_off {origin reason off : Nat} (ho : off < 2 ^ 24) : fld (refuseWord origin reason off) 23 0 = off := by
  simp only [fld, refuseWord, BitVec.toNat_ofNat]
  omega

theorem State.cfCtrlGate_open {p : Port} (hm : s.kp.mode = .normal) (hp : fromCompute p = false) (hi : s.commit.phase = .idle)
    (f : State → State) : s.cfCtrlGate p f = f s := by
  refine (if_neg (by simp [hm])).trans ?_
  cases p with
  | compute g => cases hp
  | host | debug => exact if_neg (by simp [hi])

theorem State.cfCtrlGate_refused {p : Port} {reason : Nat} (hm : s.kp.mode = .normal)
    (h : (fromCompute p = false ∧ s.commit.phase ≠ .idle ∧ reason = 3) ∨ (fromCompute p = true ∧ reason = 4)) (f : State → State) :
    s.cfCtrlGate p f = s.refuseWrite (originOf p) reason Reg.cfCtrl := by
  refine (if_neg (by simp [hm])).trans ?_
  cases p with
  | compute g =>
    obtain ⟨h, -⟩ | ⟨-, rfl⟩ := h
    · cases h
    · rfl
  | host | debug =>
    obtain ⟨-, hi, rfl⟩ | ⟨h, -⟩ := h
    · exact if_pos hi
    · cases h

theorem mode_of_normal (h : s.normal = true) : s.kp.mode = .normal := by
  simp only [State.normal, Bool.and_eq_true, beq_iff_eq] at h
  exact h.2

theorem State.checkOp_failed {f : CheckFail} (h : runCheck s = some f) (origin : Nat) (apply : Bool) :
    s.checkOp origin apply = s.checkFailed origin f := by rw [State.checkOp, h]

theorem State.checkOp_code {m : Nat} {v : Word} (h : runCheck s = none) (hc : s.swaps.find? (fun x => x.1 == 0) = some (m, v)) (origin : Nat)
    (apply : Bool) : s.checkOp origin apply = s.askCode apply origin v := by
  unfold State.checkOp
  rw [h]
  dsimp only
  rw [hc]

theorem State.checkOp_passed (h : runCheck s = none) (hc : s.swaps.find? (fun x => x.1 == 0) = none) (origin : Nat) (apply : Bool) :
    s.checkOp origin apply = if apply then s.startCommit origin else { s with commit := { s.commit with result := 0 } } := by
  unfold State.checkOp
  rw [h]
  dsimp only
  rw [hc]

theorem State.bit_checkFailed (s : State) (origin : Nat) (f : CheckFail) : bit ((s.checkFailed origin f).reg Reg.cfEvent) 1 = true := by
  obtain ⟨r, log, x, o, e, -, hr, -⟩ := State.logObj_is
    (({ s.setReg Reg.cfCheckInfo (checkWord f) with commit := { s.commit with phase := .idle, result := f.code } } : State).evCf 1)
    0x04 origin f.off (BitVec.ofNat 8 f.code :: leBytes 4 f.off)
  have h1 : (s.checkFailed origin f).reg Reg.cfEvent = rget s.grade r Reg.cfEvent := congrArg (State.reg · Reg.cfEvent) e
  rw [h1]
  exact (congrArg (bit · 1) (hr _ (by decide) (by decide))).trans
    ((State.bit_event _ (by decide) (resetOf_events (by decide) _) (by decide) (by decide)).trans (by simp))

/-- The three operations of CF_CTRL behind their gate. -/
theorem exec_cfCtrl (h : s.normal = true) (p : Port) :
    exec (.check p) s = .next { s.cfCtrlGate p (fun s => s.checkOp (originOf p) false) with pending := s.pending } ∧
    exec (.apply p) s = .next { s.cfCtrlGate p (fun s => s.checkOp (originOf p) true) with pending := s.pending } ∧
    exec (.discard p) s = .next { s.cfCtrlGate p State.discardShadow with pending := s.pending } := by
  rw [exec_check, exec_apply, exec_discard, execCheck, execApply, execDiscard, whenNormal_acts h, whenNormal_acts h, whenNormal_acts h]
  exact ⟨rfl, rfl, rfl⟩

/-- A CHECK that fails latches where, starts no commit and leaves the configuration (R516). -/
theorem checkFailed_latches (h : s.normal = true) {p : Port} (hp : fromCompute p = false) (hi : s.commit.phase = .idle) {f : CheckFail}
    (hf : runCheck s = some f) (ho : f.off < 2 ^ 24) (h0 : 0 < f.code) (hc : f.code < 2 ^ 8) {c : Instr} (hcmd : c = .check p ∨ c = .apply p) :
    ∃ t, exec c s = .next t ∧ t.commit = { s.commit with phase := .idle, result := f.code } ∧
      t.cfg = s.cfg ∧ t.images = s.images ∧ fld (t.reg Reg.cfCheckInfo) 31 24 = f.code ∧ fld (t.reg Reg.cfCheckInfo) 23 0 = f.off ∧
      bit (t.reg Reg.cfEvent) 1 = true := by
  have he : exec c s = .next { s.checkFailed (originOf p) f with pending := s.pending } := by
    obtain ⟨e1, e2, -⟩ := exec_cfCtrl h p
    rcases hcmd with rfl | rfl
    · rw [e1, State.cfCtrlGate_open (mode_of_normal h) hp hi, State.checkOp_failed hf]
    · rw [e2, State.cfCtrlGate_open (mode_of_normal h) hp hi, State.checkOp_failed hf]
  have hw := s.reg_checkFailed (originOf p) (f := f) hc (by omega) ho
  have hb := s.bit_checkFailed (originOf p) f
  obtain ⟨hcode, hoff⟩ := fld_checkWord hc ho
  obtain ⟨r, g, log, n, o, e⟩ := s.checkFailed_is (originOf p) f
  rw [e] at he hw hb
  exact ⟨_, he, rfl, rfl, rfl, (congrArg (fld · 31 24) hw).trans hcode, (congrArg (fld · 23 0) hw).trans hoff, hb⟩

/-- Settles O17: the operations in IDLE by what CHECK answers, and their refusals. -/
theorem checkApplyAndDiscard : Obligations.CheckApplyAndDiscard := by
  refine ⟨fun s p h hp hi => ⟨fun hf hs => ?_, fun m v hf hs => ?_, fun f hf ho h0 hc _ _ c hcmd => checkFailed_latches h hp hi hf ho h0 hc hcmd,
    ?_⟩, fun s p c reason h hcmd hr => ?_⟩
  · obtain ⟨e1, e2, -⟩ := exec_cfCtrl h p
    rw [e1, e2, State.cfCtrlGate_open (mode_of_normal h) hp hi, State.cfCtrlGate_open (mode_of_normal h) hp hi,
      State.checkOp_passed hf hs, State.checkOp_passed hf hs]
    exact ⟨rfl, rfl⟩
  · rw [(exec_cfCtrl h p).2.1, State.cfCtrlGate_open (mode_of_normal h) hp hi, State.checkOp_code hf hs]
    rfl
  · refine ⟨_, (exec_cfCtrl h p).2.2, ?_⟩
    rw [State.cfCtrlGate_open (mode_of_normal h) hp hi]
    exact ⟨rfl, fun k => rfl⟩
  · have he : exec c s = .next { s.refuseWrite (originOf p) reason Reg.cfCtrl with pending := s.pending } := by
      obtain ⟨e1, e2, e3⟩ := exec_cfCtrl h p
      rcases hcmd with rfl | rfl | rfl
      · rw [e1, State.cfCtrlGate_refused (mode_of_normal h) hr]
      · rw [e2, State.cfCtrlGate_refused (mode_of_normal h) hr]
      · rw [e3, State.cfCtrlGate_refused (mode_of_normal h) hr]
    have h0 : reason ≠ 0 ∧ reason < 256 := by rcases hr with ⟨-, -, rfl⟩ | ⟨-, rfl⟩ <;> decide
    obtain ⟨r, g, log, x, n, o, e, -, -, -, hinfo, hev, -⟩ :=
      s.refuseWrite_is (origin := originOf p) (reason := reason) (off := Reg.cfCtrl) h0.1 h0.2 (by decide)
    refine ⟨_, he, ?_⟩
    rw [e]
    exact ⟨rfl, rfl, rfl, rfl, (congrArg (fld · 31 24) hinfo).trans (fld_refuseWord h0.2 (by decide)),
      (congrArg (fld · 23 0) hinfo).trans (fld_refuseWord_off (by decide)), hev⟩

/-! ### Fatal events -/

theorem State.raiseFatal_first (h : s.kp.fatal = none) (hm : s.kp.mode ≠ .halted) (reason obj : Nat) :
    s.raiseFatal reason obj = { s with kp := { s.kp with fatal := some (reason, obj) } } := by
  rw [State.raiseFatal, if_neg (by simp [h, hm])]

theorem State.raiseFatal_later {f : Nat × Nat} (h : s.kp.fatal = some f) (reason obj : Nat) : s.raiseFatal reason obj = s := by
  rw [State.raiseFatal, if_pos (by simp [h])]

theorem execKeeperWatchdog_acts (h : s.rst.inEffect = false) :
    exec .keeperWatchdog s = .next { s.raiseFatal 0x12 0 with pending := s.pending } := by
  rw [exec_keeperWatchdog, execKeeperWatchdog, outOfReset_acts h]

/-- The state once the dump of a fatal event is written, before its record. -/
def State.dumped (s : State) (reason obj : Nat) (trap : Bytes) : State := State.useFree { s with kp := { s.kp with
  dump := s.dumpOf reason obj trap, dumpValid := true, dumpReason := reason, dumpEpoch := s.kp.epoch, dumps := (s.kp.dumps + 1) % 2 ^ 16 } }

/-- The state in HALTED. -/
def State.halted (s : State) : State := { s with kp := { s.kp with mode := .halted } }

/-- The dump is written: the keeper holds it, and its FATAL record is the newest. -/
theorem State.fatalDone_is {reason obj : Nat} (h : s.kp.fatal = some (reason, obj)) (hm : s.kp.mode ≠ .halted) (trap : Bytes) :
    ∃ r g log x n o, s.fatalDone trap = { s with regs := r, free := g, kp := { s.kp with
      mode := .halted, dump := s.dumpOf reason obj trap, dumpValid := true, dumpReason := reason, dumpEpoch := s.kp.epoch,
      dumps := (s.kp.dumps + 1) % 2 ^ 16, log := log ++ [x], nextSeq := n, overwritten := o } } ∧ x.kind = 0x0C := by
  obtain ⟨r, log, x, o, e, hx, -⟩ := (s.dumped reason obj trap).logObj_is 0x0C keeperOrigin
    (Config.openValue 7 (s.dumped reason obj trap).free % 2 ^ 32) (leBytes 20 (Config.openValue 6 (s.dumped reason obj trap).free))
  have hd : s.fatalDone trap = State.halted ((s.dumped reason obj trap).logObj 0x0C keeperOrigin
      (Config.openValue 7 (s.dumped reason obj trap).free % 2 ^ 32) (leBytes 20 (Config.openValue 6 (s.dumped reason obj trap).free))) := by
    unfold State.fatalDone
    rw [h]
    exact if_neg hm
  exact ⟨r, _, log, x, _, o, hd.trans (congrArg State.halted e), by rw [hx]⟩

/-- Settles O19. -/
theorem fatalEventsHaltTheBlock : Obligations.FatalEventsHaltTheBlock := by
  intro s h hm
  refine ⟨fun hf => ?_, fun hf hn hp => ?_, fun f hf => ⟨?_, ?_⟩, fun reason obj trap hf => ?_⟩
  · rw [execKeeperWatchdog_acts h, State.raiseFatal_first hf hm]
  · rw [exec_commitStall, execCommitStall, whenNormal_acts (by simp [State.normal, h, hn]), if_pos hp, State.raiseFatal_first hf hm]
  · rw [execKeeperWatchdog_acts h, State.raiseFatal_later hf]
  · exact whenNormal_self (f := fun s => if s.commit.phase = .prepare ∨ s.commit.phase = .switch then s.raiseFatal 0x13 0 else s)
      (by rw [State.raiseFatal_later hf, ite_self])
  · obtain ⟨r, g, log, x, n, o, e, hx⟩ := State.fatalDone_is hf hm trap
    refine ⟨{ s.fatalDone trap with pending := s.pending }, ?_, ?_⟩
    · rw [exec_fatalDumpWritten, execFatalDumpWritten, outOfReset_acts h]
    · rw [e]
      exact ⟨rfl, rfl, rfl, rfl, rfl, rfl, by simp [hx], rfl, rfl, rfl, rfl, rfl, rfl⟩

end Sys2Proof.Machine
end

section
/-! PROOFS. A command that acts in mode NORMAL, and the event registers one by one. -/

namespace Sys2Proof.Machine

variable {s t : State}

/-- A command that acts in mode NORMAL and leaves the state `t`. -/
theorem whenNormal_next {f : State → State} (h : s.normal = true) (hf : f s = t) (hp : t.pending = s.pending) : whenNormal f s = .next t := by
  subst hf
  rw [whenNormal_acts h, ← hp]

/-- An event sets its own bit. -/
theorem State.bit_event_own {ev b cnt hi lo : Nat}
    (hk : ev ∈ [Reg.cfEvent, Reg.kpEvent, Reg.qmEvent, Reg.byEvent, Reg.atEvent, Reg.wbEvent, Reg.fbEvent, Reg.hmEvent])
    (hne : ev ≠ cnt) (hb : b < 64) : bit ((s.event ev b cnt hi lo).reg ev) b = true := by
  rw [State.bit_event s hne (resetOf_events hk s.grade) hb hb]
  simp

theorem State.bit_evBy {b : Nat} (hb : b < 64) : bit ((s.evBy b).reg Reg.byEvent) b = true :=
  State.bit_event_own (by decide) (by split <;> decide) hb

theorem State.bit_evAt {b : Nat} (hb : b < 64) : bit ((s.evAt b).reg Reg.atEvent) b = true :=
  State.bit_event_own (by decide) (by decide) hb

theorem State.bit_evWb {b : Nat} (hb : b < 64) : bit ((s.evWb b).reg Reg.wbEvent) b = true :=
  State.bit_event_own (by decide) (by decide) hb

theorem State.bit_evQm {b : Nat} (hb : b < 64) : bit ((s.evQm b).reg Reg.qmEvent) b = true :=
  State.bit_event_own (by decide) (by decide) hb

theorem State.bit_evFb {b : Nat} (hb : b < 64) : bit ((s.evFb b).reg Reg.fbEvent) b = true :=
  State.bit_event_own (by decide) (by decide) hb

theorem State.bit_evHm {b : Nat} (hb : b < 64) : bit ((s.evHm b).reg Reg.hmEvent) b = true :=
  State.bit_event_own (by decide) (by decide) hb

theorem State.reg_evBy_ne {j : Nat} (b : Nat) (h1 : j ≠ Reg.byEvent) (h2 : j ≠ Reg.byEventCnt) (h3 : j ≠ Reg.byEventCnt2) :
    (s.evBy b).reg j = s.reg j := State.reg_event_ne s h1 (by split <;> assumption)

theorem State.reg_evHm_ne {j : Nat} (b : Nat) (h1 : j ≠ Reg.hmEvent) (h2 : j ≠ Reg.hmEventCnt) : (s.evHm b).reg j = s.reg j :=
  State.reg_event_ne s h1 h2

theorem State.reg_evWb_ne {j : Nat} (b : Nat) (h1 : j ≠ Reg.wbEvent) (h2 : j ≠ Reg.wbEventCnt) : (s.evWb b).reg j = s.reg j :=
  State.reg_event_ne s h1 h2

theorem State.reg_evFb_ne {j : Nat} (b : Nat) (h1 : j ≠ Reg.fbEvent) (h2 : j ≠ Reg.fbEventCnt) : (s.evFb b).reg j = s.reg j :=
  State.reg_event_ne s h1 h2

theorem State.reg_evAt_ne {j : Nat} (b : Nat) (h1 : j ≠ Reg.atEvent) (h2 : j ≠ Reg.atEventCnt) : (s.evAt b).reg j = s.reg j :=
  State.reg_event_ne s h1 h2

end Sys2Proof.Machine
end

section
/-! PROOFS. Operations on buoys that nothing watches: signals of ports (R377, R381, R382, R387) and settings by hand (R384, R388, R389). -/

namespace Sys2Proof.Machine

variable {s t : State}

/-! ### Buoys -/

theorem State.buoy_setBuoy_ne {b c : Nat} (h : c ≠ b) (x : Buoy) : (s.setBuoy b x).buoy c = s.buoy c := by
  unfold State.setBuoy State.buoy
  dsimp only
  split
  · rw [tget_tdel_ne h]
  · rw [tget_tput_ne h]

/-- A buoy that is set reads so; the default value needs the table in its order. -/
theorem State.buoy_setBuoy_self {b : Nat} {x : Buoy} (h : x ≠ { value := 0, sat := false, poison := false } ∨ tsorted s.sync.buoys = true) :
    (s.setBuoy b x).buoy b = x := by
  unfold State.setBuoy State.buoy
  dsimp only
  split
  next hx => rw [tget_tdel_self (h.resolve_left (not_not.mpr hx)), hx]; rfl
  next => rw [tget_tput_self]; rfl

theorem State.buoy_of_sync (h : t.sync.buoys = s.sync.buoys) (b : Nat) : t.buoy b = s.buoy b := by rw [State.buoy, h]; rfl

/-! ### An operation that nothing watches -/

/-- No injection is armed, no descriptor waits, no watch is armed and no claimant stands at a buoy. -/
structure State.Unwatched (s : State) : Prop where
  inj : bit (s.reg Reg.tpInj) 63 = false
  waits : ∀ d ∈ s.descs, d.waits = []
  watches : s.sync.watches = []
  claimants : s.sync.claimants = []

theorem State.unwatched_of_quietSync (h : s.quietSync = true) : s.Unwatched := by
  simp only [State.quietSync, Bool.and_eq_true, Bool.not_eq_true', List.isEmpty_iff] at h
  obtain ⟨⟨⟨hi, hd⟩, hw⟩, hc⟩ := h
  exact ⟨hi, by simp [hd], hw, hc⟩

theorem State.Unwatched.setBuoy (h : s.Unwatched) (b : Nat) (x : Buoy) : (s.setBuoy b x).Unwatched :=
  ⟨h.inj, h.waits, h.watches, h.claimants⟩

theorem State.inject_disarmed (h : bit (s.reg Reg.tpInj) 63 = false) (store unit : Nat) (ctx : Option Nat) :
    s.inject store unit ctx = (s, .clean) := by simp [State.inject, h]

theorem State.metNow_nil (h : ∀ d ∈ s.descs, d.waits = []) (b v : Nat) : s.metNow b v = [] := by
  rw [State.metNow, List.flatMap_eq_nil_iff]
  intro d hd
  split
  · rfl
  · simp [h d hd]

theorem State.prewake_self (h : ∀ d ∈ s.descs, d.waits = []) (b v : Nat) : s.prewake b v = s := by
  have hany : ∀ f : Desc → Bool, ∀ x : WaitSt → Bool, s.descs.any (fun d => f d && d.waits.any x) = false := fun f x => by
    rw [List.any_eq_false]
    intro d hd
    simp [h d hd]
  have key : ∀ l : List Nat, l.foldl (fun s g =>
      let margin := s.actFld (Reg.byLendCfg g) 47 32
      if bit (s.reg Reg.byLendStat) g && s.descs.any (fun d =>
          d.phase == .waiting && s.groupOf d.queue == g &&
          d.waits.any (fun x => !x.met && x.phys == b && (x.cond == 0 || x.cond == 4) && x.value - v ≤ margin))
      then s.wakeGroup g else s) s = s := by
    intro l
    induction l with
    | nil => rfl
    | cons g l ih =>
      rw [List.foldl_cons]
      dsimp only
      rw [hany, Bool.and_false]
      exact ih
  exact key _

theorem State.observe_unwatched (h : s.Unwatched) (b v : Nat) (fired : List Nat) : s.observe b v fired = (s, fired) := by
  have hf : s.firing b v fired = [] := by simp [State.firing, h.watches]
  rw [State.observe, State.metNow_nil h.waits]
  dsimp only [List.foldl_nil]
  rw [hf]
  simp [State.prewake_self h.waits]

theorem State.claimLoop_unclaimed (h : s.sync.claimants = []) (b n : Nat) (fired : List Nat) : State.claimLoop b n s fired = s := by
  cases n with
  | zero => rfl
  | succ n =>
    unfold State.claimLoop
    rw [State.claimants, h]
    rfl

theorem State.settled_unclaimed (h : t.sync.claimants = []) (s : State) : s.settled t = t := by
  have hg : s.grown t = [] := by simp [State.grown, h]
  rw [State.settled, hg]
  cases t.settleFuel <;> rfl

/-- The value that an operation leaves, and whether an add has saturated. -/
def BuoyOp.result (op : BuoyOp) (value amt : Nat) : Nat :=
  match op with
  | .add => if op = .add ∧ 0xFFFFFFFF < value + amt then 0xFFFFFFFF else value + amt
  | .sub => value - amt
  | .set => amt

/-- The state that an operation on a buoy leaves where nothing watches. -/
def State.operated (s : State) (b : Nat) (op : BuoyOp) (amt : Nat) : State :=
  let u := s.setBuoy b { s.buoy b with value := op.result (s.buoy b).value amt,
                                       sat := (s.buoy b).sat || decide (op = .add ∧ 0xFFFFFFFF < (s.buoy b).value + amt) }
  if op = .add ∧ 0xFFFFFFFF < (s.buoy b).value + amt then u.evBy 1 else u

theorem State.Unwatched.operated (h : s.Unwatched) (b : Nat) (op : BuoyOp) (amt : Nat) : (s.operated b op amt).Unwatched := by
  unfold State.operated
  dsimp only
  split
  · exact ⟨(congrArg (bit · 63) (State.reg_evBy_ne 1 (by decide) (by decide) (by decide))).trans h.inj, h.waits, h.watches, h.claimants⟩
  · exact h.setBuoy ..

/-- An operation without an injected error, step by step (R377). -/
theorem State.buoyOp_clean (h : bit (s.reg Reg.tpInj) 63 = false) (b : Nat) (op : BuoyOp) (amt : Nat) : s.buoyOp b op amt =
    if (s.buoy b).poison = true ∧ op ≠ .set then (s, .poisoned)
    else if op = .sub ∧ (s.buoy b).value < amt then (s, .underflow)
    else
      let o := (s.operated b op amt).observe b (op.result (s.buoy b).value amt) []
      ((s.operated b op amt).settled (State.claimLoop b (o.1.claimFuel b) o.1 o.2), .ok) := by
  unfold State.buoyOp
  rw [State.inject_disarmed h]
  dsimp only
  rw [if_pos rfl, if_neg (show ¬(Ecc.clean = Ecc.uncorrectable ∧ (s.buoy b).poison = false) from fun c => by cases c.1)]
  rfl

/-- An operation on a buoy that nothing watches changes that buoy alone, and the event of a saturation. -/
theorem State.buoyOp_unwatched (h : s.Unwatched) {b : Nat} {op : BuoyOp} (hp : (s.buoy b).poison = false) {amt : Nat}
    (hu : ¬(op = .sub ∧ (s.buoy b).value < amt)) : s.buoyOp b op amt = (s.operated b op amt, .ok) := by
  have ho := h.operated b op amt
  rw [State.buoyOp_clean h.inj, if_neg (fun c => by rw [hp] at c; cases c.1), if_neg hu, State.observe_unwatched ho]
  dsimp only
  rw [State.claimLoop_unclaimed ho.claimants, State.settled_unclaimed ho.claimants]

theorem State.operated_add {b amt : Nat} (hv : (s.buoy b).value + amt ≤ 0xFFFFFFFF) :
    s.operated b .add amt = s.setBuoy b { s.buoy b with value := (s.buoy b).value + amt } := by
  have hn : ¬(0xFFFFFFFF < (s.buoy b).value + amt) := by omega
  simp [State.operated, BuoyOp.result, hn]

theorem State.operated_full {b amt : Nat} (hv : 0xFFFFFFFF < (s.buoy b).value + amt) :
    s.operated b .add amt = (s.setBuoy b { s.buoy b with value := 0xFFFFFFFF, sat := true }).evBy 1 := by
  simp [State.operated, BuoyOp.result, hv]

theorem State.operated_sub (b amt : Nat) : s.operated b .sub amt = s.setBuoy b { s.buoy b with value := (s.buoy b).value - amt } := by
  simp [State.operated, BuoyOp.result]

theorem State.operated_set (b amt : Nat) : s.operated b .set amt = s.setBuoy b { s.buoy b with value := amt } := by
  simp [State.operated, BuoyOp.result]

/-! ### Signals of a port -/

/-- The signal of a word on a buoy that the port may reach. -/
structure SignalOk (s : State) (p : Port) (w : Word) (b : Nat) : Prop where
  phys : s.physOf (fld w 9 0) (fld w 27 16) = some b
  may : s.mayAct p (fld w 9 0) = true
  poison : (s.buoy b).poison = false

theorem State.portSignal_eq {p : Port} {w : Word} {b : Nat} (h : SignalOk s p w b) (ho : fld w 14 12 ≤ 1) : s.portSignal p w =
    (let r := s.signalOp (fld w 9 0) (fld w 27 16) b (fld w 14 12 == 1) (fld w 63 32)
     if r.2 = .poisoned then r.1.evBy 2 else r.1) := by
  unfold State.portSignal
  dsimp only
  rw [h.phys]
  dsimp only
  rw [if_neg (by simp [h.may, h.poison]; omega)]

theorem State.portSignal_add (hq : s.Unwatched) {p : Port} {w : Word} {b : Nat} (h : SignalOk s p w b) (ho : fld w 14 12 = 0) :
    s.portSignal p w = s.operated b .add (fld w 63 32) := by
  have hop : s.buoyOp b (if (0 == 1) = true then .sub else .add) (fld w 63 32) = (s.operated b .add (fld w 63 32), .ok) :=
    State.buoyOp_unwatched hq h.poison (by simp)
  rw [State.portSignal_eq h (by omega), State.signalOp, ho, hop]
  rfl

theorem State.portSignal_sub (hq : s.Unwatched) {p : Port} {w : Word} {b : Nat} (h : SignalOk s p w b) (ho : fld w 14 12 = 1)
    (hv : fld w 63 32 ≤ (s.buoy b).value) : s.portSignal p w = s.operated b .sub (fld w 63 32) := by
  have hop : s.buoyOp b (if (1 == 1) = true then .sub else .add) (fld w 63 32) = (s.operated b .sub (fld w 63 32), .ok) :=
    State.buoyOp_unwatched hq h.poison (fun c => absurd c.2 (by omega))
  rw [State.portSignal_eq h (by omega), State.signalOp, ho, hop]
  rfl

theorem State.portSignal_underflow (hq : s.Unwatched) {p : Port} {w : Word} {b : Nat} (h : SignalOk s p w b) (ho : fld w 14 12 = 1)
    (hv : (s.buoy b).value < fld w 63 32) : s.portSignal p w = s.latchUnderflow (fld w 9 0) (fld w 27 16) b := by
  have hop : s.buoyOp b (if (1 == 1) = true then .sub else .add) (fld w 63 32) = (s, .underflow) := by
    rw [State.buoyOp_clean hq.inj, if_neg (fun c => by rw [h.poison] at c; cases c.1)]
    exact if_pos ⟨rfl, hv⟩
  rw [State.portSignal_eq h (by omega), State.signalOp, ho, hop]
  rfl

/-- A signal that no buoy takes counts as a refusal (R387). -/
theorem State.portSignal_refused {p : Port} {w : Word} (h : s.physOf (fld w 9 0) (fld w 27 16) = none ∨
    (∃ b, s.physOf (fld w 9 0) (fld w 27 16) = some b ∧ (s.mayAct p (fld w 9 0) = false ∨ 1 < fld w 14 12 ∨ (s.buoy b).poison = true))) :
    s.portSignal p w = s.evBy 2 := by
  unfold State.portSignal
  dsimp only
  rcases h with h | ⟨b, h, hr⟩
  · rw [h]
  · rw [h]
    dsimp only
    rw [if_pos (by rcases hr with hr | hr | hr <;> simp [hr])]

/-- A state that differs in the operations that its ports hold. -/
def State.withHeld (s : State) (l : Tab (List HeldSignal)) : State := { s with sync := { s.sync with held := l } }

theorem State.Unwatched.withHeld (h : s.Unwatched) (l : Tab (List HeldSignal)) : (s.withHeld l).Unwatched :=
  ⟨h.inj, h.waits, h.watches, h.claimants⟩

theorem State.setHeld_one {p : Port} {w : Word} (h : s.sync.held = []) :
    s.setHeld p [{ word := w, accepted := false, waits := [] }] =
      s.withHeld [(copyOf p, [{ word := w, accepted := true, waits := s.portWrites p }])] := by
  simp [State.setHeld, State.withHeld, h, tput]

theorem State.setHeld_none {p : Port} {l : List HeldSignal} (h : s.sync.held = [(copyOf p, l)]) : s.setHeld p [] = s.withHeld [] := by
  simp [State.setHeld, State.withHeld, h, tdel]

theorem State.heldOf_one {p : Port} {l : List HeldSignal} (h : s.sync.held = [(copyOf p, l)]) : s.heldOf p = l := by
  simp [State.heldOf, h, tget]

/-- An operation that may not be performed yet keeps the ones behind it. -/
theorem State.drainHeld_stuck {p : Port} {h : HeldSignal} {l : List HeldSignal} (hh : s.heldOf p = h :: l) {release : Bool}
    (hr : (s.signalReady h && (release || !bit h.word 28)) = false) {n : Nat} : State.drainHeld p n release s = s := by
  cases n with
  | zero => rfl
  | succ n =>
    unfold State.drainHeld
    rw [hh]
    exact if_neg (by simp [hr])

/-- The one operation that a port holds is performed and gone. -/
theorem State.drainHeld_one {p : Port} {h : HeldSignal} (hh : s.sync.held = [(copyOf p, [h])]) {release : Bool}
    (hr : (s.signalReady h && (release || !bit h.word 28)) = true) (hs : (s.portSignal p h.word).sync.held = s.sync.held) :
    State.drainHeld p 1 release s = (s.portSignal p h.word).withHeld [] := by
  unfold State.drainHeld
  rw [State.heldOf_one hh]
  dsimp only
  rw [if_pos hr, State.setHeld_none (hs.trans hh)]
  rfl

theorem State.withHeld_self {l : Tab (List HeldSignal)} (h : s.sync.held = l) : s.withHeld l = s := by subst h; rfl

/-- BY_SIGNAL at a port that holds nothing is performed at once. -/
theorem State.bySignal_now {p : Port} {v : Word} (hh : s.sync.held = []) (hv : bit v 28 = false) (ht : t.sync.held = [])
    (hs : ∀ l, (s.withHeld l).portSignal p v = t.withHeld l) : s.bySignal p .whole v = t := by
  have hho : s.heldOf p = [] := by simp [State.heldOf, hh]
  unfold State.bySignal
  rw [if_neg (by simp)]
  dsimp only
  rw [hho, List.nil_append, State.setHeld_one hh, State.heldOf_one (s := s.withHeld _) rfl]
  refine (State.drainHeld_one (s := s.withHeld _) (h := { word := v, accepted := true, waits := s.portWrites p }) rfl
    (by simp [State.signalReady, hv]) (congrArg (fun u => u.sync.held) (hs _))).trans ?_
  dsimp only
  rw [hs]
  exact State.withHeld_self ht

theorem State.operated_withHeld (l : Tab (List HeldSignal)) (b : Nat) (op : BuoyOp) (amt : Nat) :
    (s.withHeld l).operated b op amt = (s.operated b op amt).withHeld l := by
  unfold State.operated
  dsimp only
  split
  next h => rw [if_pos (show op = .add ∧ 0xFFFFFFFF < (s.buoy b).value + amt from h)]; rfl
  next h => rw [if_neg (show ¬(op = .add ∧ 0xFFFFFFFF < (s.buoy b).value + amt) from h)]; rfl

theorem State.operated_held (b : Nat) (op : BuoyOp) (amt : Nat) : (s.operated b op amt).sync.held = s.sync.held := by
  unfold State.operated
  dsimp only
  split <;> rfl

theorem SignalOk.withHeld {p : Port} {w : Word} {b : Nat} (h : SignalOk s p w b) (l : Tab (List HeldSignal)) : SignalOk (s.withHeld l) p w b :=
  ⟨h.phys, h.may, h.poison⟩

theorem exec_bySignal_now {p : Port} {v : Word} (hn : s.normal = true) (hh : s.sync.held = []) (hv : bit v 28 = false) (ht : t.sync.held = [])
    (hp : t.pending = s.pending) (hs : ∀ l, (s.withHeld l).portSignal p v = t.withHeld l) : exec (.bySignal p .whole v) s = .next t :=
  whenNormal_next (f := fun s => s.bySignal p .whole v) hn (State.bySignal_now hh hv ht hs) hp

/-- Settles O20, by the one operation that the port holds: it goes through `buoyOp`, where nothing watches. -/
theorem portSignalsActOnTheNamedBuoy : Obligations.PortSignalsActOnTheNamedBuoy := by
  unfold Obligations.PortSignalsActOnTheNamedBuoy
  refine ⟨fun s p v hn hq hh hv hs => ⟨fun b hb hm hp => ?_, fun hr => ?_⟩, fun s p h hn hh ha hw => ⟨fun hwait => ?_, fun hdone hq b hb hm hp ho hv => ?_⟩⟩
  · have hU := State.unwatched_of_quietSync hq
    have hok : SignalOk s p v b := ⟨hb, hm, hp⟩
    refine ⟨fun ho hle => ?_, fun ho hlt => ?_, fun ho hle => ?_, fun ho hlt => ?_⟩
    · refine exec_bySignal_now hn hh hv hh rfl fun l => ?_
      rw [State.portSignal_add (hU.withHeld l) (hok.withHeld l) ho, State.operated_withHeld, State.operated_add hle]
    · have he := State.operated_full hlt
      refine ⟨s.operated b .add (fld v 63 32), exec_bySignal_now hn hh hv ((State.operated_held ..).trans hh) (by rw [he]; rfl) fun l => ?_, ?_⟩
      · rw [State.portSignal_add (hU.withHeld l) (hok.withHeld l) ho, State.operated_withHeld]
      · rw [he]
        exact ⟨rfl, State.buoy_setBuoy_self (.inl (by simp)), fun b' hne => State.buoy_setBuoy_ne hne _,
          State.bit_evBy (by decide)⟩
    · refine exec_bySignal_now hn hh hv hh rfl fun l => ?_
      rw [State.portSignal_sub (hU.withHeld l) (hok.withHeld l) ho hle, State.operated_withHeld, State.operated_sub]
    · refine ⟨s.latchUnderflow (fld v 9 0) (fld v 27 16) b, exec_bySignal_now hn hh hv hh rfl fun l => ?_, rfl, ?_, ?_⟩
      · rw [State.portSignal_underflow (hU.withHeld l) (hok.withHeld l) ho hlt]
        rfl
      · refine (State.reg_evBy_ne 0 (by decide) (by decide) (by decide)).trans ?_
        rw [State.reg_setReg hs, if_pos rfl]
      · exact State.bit_evBy (by decide)
  · exact exec_bySignal_now hn hh hv hh rfl fun l => State.portSignal_refused hr
  · refine whenNormal_self (f := fun s => State.drainHeld p (s.heldOf p).length true s) ?_
    rw [State.heldOf_one hh]
    obtain ⟨i, hi, hany⟩ := hwait
    refine State.drainHeld_stuck (State.heldOf_one hh) ?_
    have hall : h.waits.all (fun i => !s.reqs.any (fun r => r.id == i)) = false :=
      List.all_eq_false.mpr ⟨i, hi, by simp [hany]⟩
    simp [State.signalReady, hw, hall]
  · have hall : h.waits.all (fun i => !s.reqs.any (fun r => r.id == i)) = true :=
      List.all_eq_true.mpr fun i hi => by simp [hdone i hi]
    have hps : s.portSignal p h.word = s.setBuoy b { s.buoy b with value := (s.buoy b).value + fld h.word 63 32 } := by
      rw [State.portSignal_add (State.unwatched_of_quietSync hq) ⟨hb, hm, hp⟩ ho, State.operated_add hv]
    refine whenNormal_next (f := fun s => State.drainHeld p (s.heldOf p).length true s) hn ?_ rfl
    rw [State.heldOf_one hh]
    refine (State.drainHeld_one hh (by simp [State.signalReady, ha, hall]) (by rw [hps]; rfl)).trans ?_
    rw [hps]
    rfl

/-! ### Settings by hand -/

theorem State.bySet_compute {p : Port} (h : fromCompute p = true) (part : Part) (v : Word) : s.bySet p part v = s := by
  cases p with
  | compute g => rfl
  | _ => cases h

/-- BY_SET through the host or debug port (R388). -/
theorem State.bySet_eq {p : Port} (h : fromCompute p = false) (v : Word) : s.bySet p .whole v =
    match s.selBuoy 0 with
    | none => s.evBy 2
    | some b =>
      (((s.setBuoy b { s.buoy b with poison := false, sat := (s.buoy b).sat && !bit v 32 }).buoyOp b .set (fld v 31 0)).1.evBy 3).logRec 0x06
        (originOf p) (if bit (s.reg (rkey Reg.bySel 0)) 63 then 0xFFFF else fld (s.reg (rkey Reg.bySel 0)) 9 0) b
        (word (s.buoy b).value) (word (fld v 31 0))
        (leBytes 2 (b2n (bit v 32)) ++ leBytes 2 (if bit (s.reg (rkey Reg.bySel 0)) 63 then 0 else fld (s.reg (rkey Reg.bySel 0)) 27 16)) := by
  cases p with
  | compute g => cases h
  | _ =>
    unfold State.bySet
    refine (if_neg (by simp)).trans ?_
    cases s.selBuoy 0 <;> rfl

theorem State.setBuoy_sorted (h : tsorted s.sync.buoys = true) (b : Nat) (x : Buoy) : tsorted (s.setBuoy b x).sync.buoys = true := by
  unfold State.setBuoy
  dsimp only
  split
  · exact tsorted_tdel h b
  · exact tsorted_tput h b x

/-- A buoy set by hand: its flags, then its value, and the event. -/
def State.setByHand (s : State) (b : Nat) (x : Buoy) (v : Nat) : State :=
  ((s.setBuoy b x).setBuoy b { x with value := v }).evBy 3

theorem State.setByHand_is (s : State) (b : Nat) (x : Buoy) (v : Nat) (hs : tsorted s.sync.buoys = true) :
    ∃ r y, s.setByHand b x v = { s with regs := r, sync := y } ∧
      (s.setByHand b x v).buoy b = { x with value := v } ∧ (∀ c, c ≠ b → (s.setByHand b x v).buoy c = s.buoy c) ∧
      bit ((s.setByHand b x v).reg Reg.byEvent) 3 = true :=
  ⟨_, _, rfl, State.buoy_setBuoy_self (s := s.setBuoy b x) (.inr (State.setBuoy_sorted hs b x)),
    fun _ hne => (State.buoy_setBuoy_ne (s := s.setBuoy b x) hne _).trans (State.buoy_setBuoy_ne hne x), State.bit_evBy (by decide)⟩

theorem State.handSet (hq : s.quietSync = true) (hs : tsorted s.sync.buoys = true) {b : Nat} {x : Buoy} (hp : x.poison = false) (v : Nat) :
    ((s.setBuoy b x).buoyOp b .set v).1.evBy 3 = s.setByHand b x v := by
  have hx : (s.setBuoy b x).buoy b = x := State.buoy_setBuoy_self (.inr hs)
  rw [State.buoyOp_unwatched ((State.unwatched_of_quietSync hq).setBuoy b x) ((congrArg Buoy.poison hx).trans hp) (fun c => by cases c.1),
    State.operated_set, hx]
  rfl

/-- Settles O21, by the operation `set` on the buoy whose poison is cleared. -/
theorem handSettingsSetTheSelectedBuoy : Obligations.HandSettingsSetTheSelectedBuoy := by
  unfold Obligations.HandSettingsSetTheSelectedBuoy
  intro s p v hn
  refine ⟨fun hc => whenNormal_self (f := fun s => s.bySet p .whole v) (State.bySet_compute hc ..), fun hc hb => ?_, fun b hc hb hq hs => ?_⟩
  · refine whenNormal_next (f := fun s => s.bySet p .whole v) hn ?_ rfl
    rw [State.bySet_eq hc, hb]
  · obtain ⟨old, hold⟩ : ∃ x, s.buoy b = x := ⟨_, rfl⟩
    let x : Buoy := { old with poison := false, sat := old.sat && !bit v 32 }
    have hset := State.bySet_eq (s := s) hc v
    rw [hb] at hset
    dsimp only at hset
    rw [hold] at hset
    rw [State.handSet hq hs rfl] at hset
    obtain ⟨ru, yu, hu, hself, hother, hev⟩ := s.setByHand_is b x (fld v 31 0) hs
    rw [hu] at hset hself hother hev
    obtain ⟨r, log, rec, o, he, hrec, hr, -⟩ := ({ s with regs := ru, sync := yu } : State).logRec_is 0x06 (originOf p)
      (if bit (s.reg (rkey Reg.bySel 0)) 63 then 0xFFFF else fld (s.reg (rkey Reg.bySel 0)) 9 0) b (word old.value) (word (fld v 31 0))
      (leBytes 2 (b2n (bit v 32)) ++ leBytes 2 (if bit (s.reg (rkey Reg.bySel 0)) 63 then 0 else fld (s.reg (rkey Reg.bySel 0)) 27 16))
    refine ⟨_, whenNormal_next (f := fun s => s.bySet p .whole v) hn (hset.trans he) rfl, rfl, ?_, fun b' hne => ?_, ?_, rec, ?_, ?_⟩
    · rw [hold]
      exact hself
    · exact hother b' hne
    · exact (congrArg (bit · 3) (hr Reg.byEvent (by decide) (by decide))).trans hev
    · exact List.getLast?_concat
    · subst hrec
      rw [hold]
      exact ⟨rfl, rfl, rfl, rfl⟩

end Sys2Proof.Machine
end

section
/-! PROOFS. Flash queues (R402 to R406), long waits (R412), watches (R392, R395 to R398). -/

namespace Sys2Proof.Machine

variable {s t : State}

/-! ### Flash queues -/

theorem State.fq_setFq_self (f : Nat) (x : FlashQ) : (s.setFq f x).fq f = x := by simp [State.fq, State.setFq]

theorem State.fqReach_host {p : Port} (h : fromCompute p = false) (f : Nat) : s.fqReach p f = true := by
  cases p with
  | compute g => cases h
  | _ => rfl

theorem State.emptyAhead_host {p : Port} (h : fromCompute p = false) : s.emptyAhead p = s := by
  cases p with
  | compute g => cases h
  | _ => rfl

theorem State.fqCtrl_reached {p : Port} {f op : Nat} (hf : f < 256) (hr : s.fqReach p f = true) (ho : 1 ≤ op ∧ op ≤ 4) :
    s.fqCtrl p f op = s.setFq f (fqDo op (s.fq f)) := by
  rw [State.fqCtrl, if_neg (by omega), if_pos hr, if_pos ho]

theorem State.fqCtrl_refused {p : Port} {f op : Nat} (hf : f < 256) (hr : s.fqReach p f = false) : s.fqCtrl p f op = s.evBy 2 := by
  rw [State.fqCtrl, if_neg (by omega), if_neg (by simp [hr])]

/-- The next cell of an enabled flash queue without an injected error goes to the latch and is closed. -/
theorem State.fqTake_cell {f : Nat} {c : List Flash} (hc : (s.fq f).cells[(s.fq f).rd]? = some c)
    (he : bit (s.act (rkey Reg.fqCfg f)) 63 = true) (hi : bit (s.reg Reg.tpInj) 63 = false) :
    s.fqTake f = s.setFq f { s.fq f with
      rd := (s.fq f).rd + 1, latch := cellBytes c, latchTag := 16 * c.length,
      tailOpen := (s.fq f).tailOpen && (s.fq f).rd + 1 != (s.fq f).cells.length } := by
  have hecc : s.fqEcc f (s.fq f).rd (s.fq f).cells = (s, (s.fq f).cells, false) := by
    unfold State.fqEcc
    rw [State.inject_disarmed hi]
  have hget : (s.fq f).cells.getD (s.fq f).rd c = c := by rw [List.getD_eq_getElem?_getD, hc]; rfl
  have hopen : ∀ a b : Bool, (a && !(false || (a && b))) = (a && !b) := by decide
  unfold State.fqTake
  dsimp only
  rw [hc]
  dsimp only
  rw [if_pos he, hecc]
  dsimp only
  rw [hget, hopen]
  rfl

theorem State.fqTake_idle {f : Nat} (hc : (s.fq f).cells[(s.fq f).rd]? = none) :
    s.fqTake f = s.setFq f { s.fq f with latch := s.idleWord f, latchTag := 16 } := by
  unfold State.fqTake
  dsimp only
  rw [hc]

/-- A read of FQ_DATA through the host or debug port returns the latch that it leaves. -/
theorem State.fqRead_host {p : Port} {f : Nat} (hf : f < 256) (hp : fromCompute p = false) {x : FlashQ} (ht : s.fqTake f = s.setFq f x) :
    s.fqRead p f = (s.setFq f x).emit (.regRsp p x.latch x.latchTag) := by
  unfold State.fqRead
  rw [if_neg (by omega), State.emptyAhead_host hp]
  dsimp only
  rw [if_pos (State.fqReach_host hp f), ht, State.fq_setFq_self]

theorem State.fqRead_refused {g f : Nat} (hf : f < 256) (hr : s.fqReach (.compute g) f = false) :
    s.fqRead (.compute g) f = ((s.emptyAhead (.compute g)).evBy 2).emit (.regRsp (.compute g) (zeros 64) 0) := by
  unfold State.fqRead
  rw [if_neg (by omega)]
  exact if_neg (fun h => absurd (hr.symm.trans h) (by decide))

/-- Settles O23, by what each command does to its flash queue. -/
theorem flashQueueCommandsAndReads : Obligations.FlashQueueCommandsAndReads := by
  unfold Obligations.FlashQueueCommandsAndReads
  refine ⟨fun s p f hn hf => ⟨fun hr => ?_, fun hr c hc => ?_⟩, fun s p f hn hf hp => ⟨fun c hc he hi => ?_, fun hc => ?_, fun g hr => ?_⟩⟩
  · have key : ∀ op, 1 ≤ op ∧ op ≤ 4 → whenNormal (fun s => s.fqCtrl p f op) s = .next (s.setFq f (fqDo op (s.fq f))) := fun op ho =>
      whenNormal_next hn (State.fqCtrl_reached hf hr ho) rfl
    have h4 : ∀ x : FlashQ, fqDo 4 x = { x with cells := x.cells.drop x.rd, rd := 0, mark := 0 } := fun x => by simp [fqDo]
    exact ⟨key 1 (by decide), key 2 (by decide), key 3 (by decide), (key 4 (by decide)).trans (by rw [h4])⟩
  · have key : ∀ op, whenNormal (fun s => s.fqCtrl p f op) s = .next (s.evBy 2) := fun op =>
      whenNormal_next hn (State.fqCtrl_refused hf hr) rfl
    simp only [List.mem_cons, List.not_mem_nil, or_false] at hc
    rcases hc with rfl | rfl | rfl | rfl
    · exact key 1
    · exact key 2
    · exact key 3
    · exact key 4
  · exact whenNormal_next (f := fun s => s.fqRead p f) hn (State.fqRead_host hf hp (State.fqTake_cell hc he hi)) rfl
  · exact whenNormal_next (f := fun s => s.fqRead p f) hn (State.fqRead_host hf hp (State.fqTake_idle hc)) rfl
  · exact ⟨_, whenNormal_next (f := fun s => s.fqRead (.compute g) f) hn (State.fqRead_refused hf hr) rfl, rfl, rfl,
      State.bit_evBy (s := s.emptyAhead (.compute g)) (by decide)⟩

/-! ### Long waits -/

theorem State.bit_setReg {k b : Nat} {v : Word} (hr : resetOf s.grade k = 0) (hv : bit v b = true) : bit ((s.setReg k v).reg k) b = true := by
  rw [State.reg_setReg_self, hv]
  rintro rfl
  rw [hr] at hv
  simp [bit] at hv

/-- The offer of a list of bank pairs. -/
def State.offer (s : State) (l : List Nat) : State := l.foldl (fun s p => s.setPair p { s.pair p with offered := true }) s

theorem State.pair_setPair (p q : Nat) (x : Pair) : (s.setPair p x).pair q = if q = p then x else s.pair q := by
  unfold State.pair State.setPair
  rw [tget_tput]
  split <;> rfl

theorem State.offer_is (l : List Nat) : ∃ p, s.offer l = { s with win := { s.win with pairs := p } } := by
  induction l generalizing s with
  | nil => exact ⟨_, rfl⟩
  | cons q l ih =>
    obtain ⟨p, e⟩ := ih (s := s.setPair q { s.pair q with offered := true })
    exact ⟨p, e⟩

theorem State.pair_offer_of_mem {l : List Nat} {p : Nat} (h : p ∈ l ∨ (s.pair p).offered = true) :
    (s.offer l).pair p = { s.pair p with offered := true } := by
  induction l generalizing s with
  | nil =>
    obtain h | h := h
    · cases h
    · show s.pair p = _
      rw [← h]
  | cons q l ih =>
    by_cases e : p = q
    · subst e
      refine (ih (.inr ?_)).trans ?_ <;> simp [State.pair_setPair]
    · refine (ih (s := s.setPair q { s.pair q with offered := true }) ?_).trans ?_
      · rw [State.pair_setPair, if_neg e]
        exact h.imp_left fun h => (List.mem_cons.mp h).resolve_left e
      · rw [State.pair_setPair, if_neg e]

theorem State.pair_offer_of_not_mem {l : List Nat} {p : Nat} (h : p ∉ l) : (s.offer l).pair p = s.pair p := by
  induction l generalizing s with
  | nil => rfl
  | cons q l ih =>
    rw [List.mem_cons, not_or] at h
    exact (ih h.2).trans (by rw [State.pair_setPair, if_neg h.1])

/-- The pairs that the report of a group offers (R412): none while LC_RETAIN holds them for a latency-critical queue. -/
def State.offered (s : State) (g : Nat) : List Nat :=
  if bit (s.act (Reg.byLendCfg g)) 48 && s.queues.any (fun q => q.2.state != .absent && q.1 != 0 && q.2.group == g && !q.2.bulk) then []
  else s.lendPairs g

/-- The bit and the count of a report. -/
def State.reported (s : State) (g : Nat) : State :=
  (s.setReg Reg.byLendStat (putBit (s.reg Reg.byLendStat) g true)).bump Reg.byLendStat 63 32

theorem State.bit_reported {g : Nat} (hg : g < 12) : bit ((s.reported g).reg Reg.byLendStat) g = true := by
  have hr : resetOf s.grade Reg.byLendStat = 0 := (resetOf_same (by decide) s.grade 3).trans (by decide)
  refine State.bit_setReg (s := s.setReg Reg.byLendStat _) hr ?_
  rw [bit_putFld_ne (by omega) (.inl (by omega))]
  exact State.bit_setReg hr (by rw [bit_putBit (by omega), if_pos rfl])

theorem State.waitReport_eq (s : State) (g : Nat) : s.waitReport g =
    if (12 ≤ g || !bit (s.act (Reg.byLendCfg g)) 63 || !(s.inGroup g).any (fun d => d.phase == .waiting && d.waits.any (fun w => !w.met)) ||
      bit (s.reg Reg.byLendStat) g || (s.inGroup g).any s.isReady) = true then s
    else ((s.reported g).offer (s.offered g)).pmSend 0x82 (2 ^ 8 * g + 2 ^ 32 * ((s.offered g).map (2 ^ ·)).sum) := rfl

/-- Settles O24, by the guard of the report and the offer of its pairs. -/
theorem longWaitsAreReportedOnce : Obligations.LongWaitsAreReportedOnce := by
  unfold Obligations.LongWaitsAreReportedOnce
  intro s g hn hg hc hw
  refine ⟨fun h => whenNormal_self (f := fun s => s.waitReport g) ?_, fun hb hr => ?_⟩
  · rw [State.waitReport_eq, if_pos (by rcases h with h | h <;> simp [h])]
  · have hf := State.waitReport_eq s g
    rw [if_neg (by simp [hc, hw, hb, hr, Nat.not_le.mpr hg])] at hf
    obtain ⟨ps, hp⟩ := (s.reported g).offer_is (s.offered g)
    have hlend : ∀ p, p ∈ s.offered g → p ∈ s.lendPairs g := fun p h => by
      unfold State.offered at h
      split at h
      · cases h
      · exact h
    refine ⟨_, whenNormal_next (f := fun s => s.waitReport g) hn hf (by rw [hp]; rfl), by rw [hp]; rfl, ?_,
      ⟨_, by rw [hp]; rfl⟩, fun hl p h => ?_, fun p h => ?_⟩
    · rw [hp]
      exact State.bit_reported hg
    · refine State.pair_offer_of_mem (s := s.reported g) (.inl ?_)
      rw [State.offered, hl, Bool.false_and]
      exact h
    · exact State.pair_offer_of_not_mem (s := s.reported g) (fun h' => h (hlend p h'))

/-! ### Watches -/

theorem rkey_ne {off c k : Nat} (hk : k < 2 ^ 24) (ho : off < 2 ^ 24) (h : off ≠ k) : rkey off c ≠ k := by
  unfold rkey
  omega

/-- The search finds the first index of a range that passes. -/
theorem searchUp_of_first {f : Nat → Bool} {n i k : Nat} (hk : k ≤ i) (hi : i < k + n) (hf : f i = true)
    (hlow : ∀ j, k ≤ j → j < i → f j = false) : searchUp f n k = some i := by
  induction n generalizing k with
  | zero => omega
  | succ n ih =>
    unfold searchUp
    by_cases e : k = i
    · subst e
      rw [if_pos hf]
    · rw [if_neg (by rw [hlow k (by omega) (by omega)]; decide)]
      exact ih (by omega) (by omega) fun j h1 h2 => hlow j (by omega) h2

theorem State.nWatches_le (s : State) : s.nWatches ≤ 2 ^ 14 := by
  unfold State.nWatches gradeRow
  split <;> decide

/-- The result and the handle that a command leaves in BY_ARM_RES. -/
theorem State.reg_armRes (hs : tsorted s.regs = true) (p : Port) {h : Nat} (hh : h < 2 ^ 32) (r : Nat) :
    (s.armRes p r h).reg (rkey Reg.byArmRes (copyOf p)) = word (2 ^ 32 * r + h) := by
  unfold State.armRes
  rw [State.reg_setReg hs, if_pos rfl, Nat.mod_eq_of_lt hh]

theorem fld_result {r h : Nat} (hr : r < 256) (hh : h < 2 ^ 32) : fld (word (2 ^ 32 * r + h)) 39 32 = r := by
  unfold fld word
  rw [BitVec.toNat_ofNat, Nat.mod_eq_of_lt (by omega)]
  omega

/-- A command that arms or disarms nothing leaves its result, and counts where it is not STALE. -/
theorem State.armFail_is (hs : tsorted s.regs = true) (p : Port) {r : Nat} (hr : r < 256) :
    s.armFail p r = { s with regs := (s.armFail p r).regs, free := (s.armFail p r).free } ∧
      fld ((s.armFail p r).reg (rkey Reg.byArmRes (copyOf p))) 39 32 = r ∧
      (r ≠ 0x13 → bit ((s.armFail p r).reg Reg.byEvent) 2 = true) := by
  have hh : Config.openValue 1 s.free % 2 ^ 32 < 2 ^ 32 := Nat.mod_lt _ (by decide)
  have hreg : fld ((s.armRes p r (Config.openValue 1 s.free)).reg (rkey Reg.byArmRes (copyOf p))) 39 32 = r := by
    unfold State.armRes
    rw [State.reg_setReg hs, if_pos rfl]
    exact fld_result hr hh
  unfold State.armFail
  dsimp only
  split
  next h => exact ⟨rfl, hreg, fun hne => absurd h hne⟩
  next h =>
    refine ⟨rfl, ?_, fun _ => State.bit_evBy (by decide)⟩
    rw [State.reg_evBy_ne _ (rkey_ne (by decide) (by decide) (by decide)) (rkey_ne (by decide) (by decide) (by decide))
      (rkey_ne (by decide) (by decide) (by decide))]
    exact hreg

/-- Arming where the condition does not hold now, and is no claim, is the watch and its generation alone. -/
theorem State.armIn_idle {i : Nat} {w : Watch} (hc : w.cond < 4) (hh : condHolds w.cond (s.buoy w.phys).value w.value = false) :
    s.armIn i w = { s with sync := { s.sync with
      watches := tput s.sync.watches i w, gens := tput s.sync.gens i (((tget s.sync.gens i).getD 0 + 1) % 2 ^ 18) } } := by
  unfold State.armIn
  refine (if_neg (Nat.ne_of_lt hc)).trans (if_neg ?_)
  exact fun h => absurd (hh.symm.trans h) (by decide)

/-- BY_ARM, check by check (Table 11-1). -/
theorem State.byArm_eq (s : State) (p : Port) (v : Word) : s.byArm p .whole v =
    (let lo := s.reg (rkey Reg.byArmLo (copyOf p))
     let ctx := fld lo 9 0
     let cfg := s.act (rkey Reg.fqCfg (fld v 7 0))
     if (!s.mayAct p ctx) = true then s.armFail p 0x10
     else match s.physOf ctx (fld lo 23 12) with
      | none => s.armFail p 0x11
      | some b =>
        if (!bit cfg 63 || fld cfg 9 0 != ctx || 4 < fld lo 26 24 || (fld lo 26 24 == 4 && fld lo 63 32 == 0) || (s.buoy b).poison) = true then
          s.armFail p 0x11
        else match searchUp (fun i => (tget s.sync.watches i).isNone) s.nWatches 0 with
          | none => s.armFail p 0x12
          | some i =>
            if fld (s.act (rkey Reg.byCtxMap ctx)) 46 32 ≤ s.watchCount ctx then s.armFail p 0x12
            else
              let t := s.armIn i { ctx := ctx, ident := fld lo 23 12, phys := b, cond := fld lo 26 24, value := fld lo 63 32,
                                   each := bit lo 27, cookie := fld v 63 32, fq := fld v 7 0 }
              t.armRes p 0x00 (i + 2 ^ 14 * (tget t.sync.gens i).getD 0)) := rfl

theorem State.byArm_unauthorised {p : Port} (h : s.mayAct p (fld (s.reg (rkey Reg.byArmLo (copyOf p))) 9 0) = false) (v : Word) :
    s.byArm p .whole v = s.armFail p 0x10 := by
  rw [State.byArm_eq]
  exact if_pos (by rw [h]; rfl)

theorem State.byArm_unmapped {p : Port} (h : s.mayAct p (fld (s.reg (rkey Reg.byArmLo (copyOf p))) 9 0) = true)
    (hb : s.physOf (fld (s.reg (rkey Reg.byArmLo (copyOf p))) 9 0) (fld (s.reg (rkey Reg.byArmLo (copyOf p))) 23 12) = none) (v : Word) :
    s.byArm p .whole v = s.armFail p 0x11 := by
  rw [State.byArm_eq]
  refine (if_neg (by rw [h]; decide)).trans ?_
  rw [hb]

theorem State.byArm_closed {p : Port} {b : Nat} {v : Word} (h : s.mayAct p (fld (s.reg (rkey Reg.byArmLo (copyOf p))) 9 0) = true)
    (hb : s.physOf (fld (s.reg (rkey Reg.byArmLo (copyOf p))) 9 0) (fld (s.reg (rkey Reg.byArmLo (copyOf p))) 23 12) = some b)
    (hq : bit (s.act (rkey Reg.fqCfg (fld v 7 0))) 63 = false ∨
      fld (s.act (rkey Reg.fqCfg (fld v 7 0))) 9 0 ≠ fld (s.reg (rkey Reg.byArmLo (copyOf p))) 9 0) :
    s.byArm p .whole v = s.armFail p 0x11 := by
  rw [State.byArm_eq]
  refine (if_neg (by rw [h]; decide)).trans ?_
  rw [hb]
  exact if_pos (by rcases hq with hq | hq <;> simp [hq])

/-- What BY_ARM_LO, BY_ARM_HI and the flash queue must be for a watch on a buoy (Table 11-1). -/
structure State.ArmSound (s : State) (p : Port) (v : Word) (b : Nat) : Prop where
  may : s.mayAct p (fld (s.reg (rkey Reg.byArmLo (copyOf p))) 9 0) = true
  phys : s.physOf (fld (s.reg (rkey Reg.byArmLo (copyOf p))) 9 0) (fld (s.reg (rkey Reg.byArmLo (copyOf p))) 23 12) = some b
  queue : bit (s.act (rkey Reg.fqCfg (fld v 7 0))) 63 = true
  owner : fld (s.act (rkey Reg.fqCfg (fld v 7 0))) 9 0 = fld (s.reg (rkey Reg.byArmLo (copyOf p))) 9 0
  cond : fld (s.reg (rkey Reg.byArmLo (copyOf p))) 26 24 < 4
  poison : (s.buoy b).poison = false

theorem State.ArmSound.byArm {p : Port} {v : Word} {b : Nat} (h : s.ArmSound p v b) : s.byArm p .whole v =
    match searchUp (fun i => (tget s.sync.watches i).isNone) s.nWatches 0 with
    | none => s.armFail p 0x12
    | some i =>
      if fld (s.act (rkey Reg.byCtxMap (fld (s.reg (rkey Reg.byArmLo (copyOf p))) 9 0))) 46 32 ≤
          s.watchCount (fld (s.reg (rkey Reg.byArmLo (copyOf p))) 9 0) then s.armFail p 0x12
      else
        let lo := s.reg (rkey Reg.byArmLo (copyOf p))
        let t := s.armIn i { ctx := fld lo 9 0, ident := fld lo 23 12, phys := b, cond := fld lo 26 24, value := fld lo 63 32,
                             each := bit lo 27, cookie := fld v 63 32, fq := fld v 7 0 }
        t.armRes p 0x00 (i + 2 ^ 14 * (tget t.sync.gens i).getD 0) := by
  rw [State.byArm_eq]
  refine (if_neg (by rw [h.may]; decide)).trans ?_
  rw [h.phys]
  refine if_neg ?_
  have h4 : ¬(4 < fld (s.reg (rkey Reg.byArmLo (copyOf p))) 26 24) := Nat.not_lt.mpr (Nat.le_of_lt h.cond)
  have hc : (fld (s.reg (rkey Reg.byArmLo (copyOf p))) 26 24 == 4) = false := by simpa using Nat.ne_of_lt h.cond
  simp [h.queue, h.owner, h4, hc, h.poison]

theorem State.ArmSound.byArm_full {p : Port} {v : Word} {b : Nat} (h : s.ArmSound p v b)
    (hq : fld (s.act (rkey Reg.byCtxMap (fld (s.reg (rkey Reg.byArmLo (copyOf p))) 9 0))) 46 32 ≤
      s.watchCount (fld (s.reg (rkey Reg.byArmLo (copyOf p))) 9 0)) : s.byArm p .whole v = s.armFail p 0x12 := by
  rw [h.byArm]
  split
  · rfl
  · exact if_pos hq

/-- BY_DISARM, check by check (R396, R397). -/
theorem State.byDisarm_eq (s : State) (p : Port) (v : Word) : s.byDisarm p .whole v =
    match tget s.sync.watches (fld v 31 0 % 2 ^ 14) with
    | none => s.armFail p 0x13
    | some w =>
      if ((tget s.sync.gens (fld v 31 0 % 2 ^ 14)).getD 0 != fld v 31 0 / 2 ^ 14 || !s.mayAct p w.ctx) = true then s.armFail p 0x13
      else (({ s with sync := { s.sync with watches := tdel s.sync.watches (fld v 31 0 % 2 ^ 14) } } : State).sweepClaims).armRes p 0x01 (fld v 31 0) := rfl

theorem State.sweepClaims_unclaimed (h : s.sync.claimants = []) : s.sweepClaims = s := by
  unfold State.sweepClaims
  rw [h]
  exact State.settled_unclaimed h s

theorem exec_byArm_fails {p : Port} {v : Word} {r : Nat} (hn : s.normal = true) (h : s.byArm p .whole v = s.armFail p r) :
    exec (.byArm p .whole v) s = .next (s.armFail p r) := by
  refine whenNormal_next (f := fun s => s.byArm p .whole v) hn h ?_
  unfold State.armFail
  dsimp only
  split <;> rfl

/-- Settles O22, by Table 11-1 check by check. -/
theorem watchesAreArmedAndDisarmed : Obligations.WatchesAreArmedAndDisarmed := by
  unfold Obligations.WatchesAreArmedAndDisarmed
  refine ⟨fun s p v hn hs => ⟨fun b i hm hb hsound hi hfree hlow hquota hcond => ?_, fun code hcode => ?_⟩,
    fun s p v hn hs => ⟨fun w hw hg hm hd hcl => ?_, fun hstale => ?_⟩⟩
  · obtain ⟨hq, ho, hc, hp⟩ := hsound
    have hA : s.ArmSound p v b := ⟨hm, hb, hq, ho, hc, hp⟩
    have hfirst : searchUp (fun i => (tget s.sync.watches i).isNone) s.nWatches 0 = some i :=
      searchUp_of_first (Nat.zero_le i) (by omega) (by rw [hfree]; rfl) fun j _ hj => by simp [Option.isNone_eq_false_iff.mpr (hlow j hj)]
    have harm := hA.byArm
    rw [hfirst] at harm
    have harm' := harm.trans (if_neg (Nat.not_le.mpr hquota))
    dsimp only at harm'
    rw [State.armIn_idle hc hcond] at harm'
    dsimp only at harm'
    rw [tget_tput_self] at harm'
    have hi14 : i < 2 ^ 14 := Nat.lt_of_lt_of_le hi s.nWatches_le
    have hg18 : ((tget s.sync.gens i).getD 0 + 1) % 2 ^ 18 < 2 ^ 18 := Nat.mod_lt _ (by decide)
    refine ⟨_, whenNormal_next (f := fun s => s.byArm p .whole v) hn harm' rfl, rfl, rfl, ?_⟩
    refine (State.reg_armRes hs p (by rw [Option.getD_some]; omega) 0x00).trans ?_
    rw [Nat.mul_zero, Nat.zero_add]
    rfl
  · have key : ∀ r, r < 0x13 → s.byArm p .whole v = s.armFail p r → ∃ t, exec (.byArm p .whole v) s = .next t ∧
        t = { s with regs := t.regs, free := t.free } ∧ fld (t.reg (rkey Reg.byArmRes (copyOf p))) 39 32 = r ∧ bit (t.reg Reg.byEvent) 2 = true := by
      intro r hr h
      obtain ⟨hf, hcode, hev⟩ := State.armFail_is hs p (r := r) (by omega)
      exact ⟨_, exec_byArm_fails hn h, hf, hcode, hev (by omega)⟩
    rcases hcode with ⟨hm, rfl⟩ | ⟨hm, hb, rfl⟩ | ⟨b, hm, hb, hq, rfl⟩ | ⟨b, hm, hb, ⟨hq, ho, hc, hp⟩, hfull, rfl⟩
    · exact key _ (by decide) (State.byArm_unauthorised hm v)
    · exact key _ (by decide) (State.byArm_unmapped hm hb v)
    · exact key _ (by decide) (State.byArm_closed hm hb hq)
    · exact key _ (by decide) (State.ArmSound.byArm_full ⟨hm, hb, hq, ho, hc, hp⟩ hfull)
  · have hdis := State.byDisarm_eq s p v
    rw [hw] at hdis
    have hdis' := hdis.trans (if_neg (by rw [hg, hm]; simp))
    rw [State.sweepClaims_unclaimed (by exact hcl)] at hdis'
    exact ⟨_, whenNormal_next (f := fun s => s.byDisarm p .whole v) hn hdis' rfl, rfl, rfl, State.reg_armRes hs p (fld_lt _ 31 0) 0x01⟩
  · have hdis : s.byDisarm p .whole v = s.armFail p 0x13 := by
      rw [State.byDisarm_eq]
      rcases hstale with h | ⟨w, h, hne⟩
      · rw [h]
      · rw [h]
        refine if_pos (Bool.or_eq_true_iff.mpr (hne.imp (bne_iff_ne.mpr) fun hne => ?_))
        rw [hne]
        rfl
    obtain ⟨hf, hcode, -⟩ := State.armFail_is hs p (r := 0x13) (by decide)
    refine ⟨_, whenNormal_next (f := fun s => s.byDisarm p .whole v) hn hdis ?_, hf, hcode⟩
    rw [hf]

end Sys2Proof.Machine
end

section
/-! PROOFS. Lookups of a descriptor after one has changed, and the folds that set registers. -/

namespace Sys2Proof.Machine

variable {s t : State} {d e : Desc} {did : Nat}

theorem State.desc_id (h : s.desc did = some d) : d.id = did := by simpa using List.find?_some h

theorem State.desc_mem (h : s.desc did = some d) : d ∈ s.descs := List.mem_of_find?_eq_some h

theorem State.desc_of_descs (h : t.descs = s.descs) (did : Nat) : t.desc did = s.desc did := by rw [State.desc, h]; rfl

/-- A descriptor that has changed, under its identity, is found as it is now. -/
theorem State.desc_onDesc_self {f : Desc → Desc} (h : s.desc did = some d) (hf : (f d).id = d.id) : (s.onDesc did f).desc did = some (f d) := by
  have hid := State.desc_id h
  unfold State.desc at h
  unfold State.desc State.onDesc
  dsimp only
  generalize s.descs = l at h
  induction l with
  | nil => cases h
  | cons e l ih =>
    rw [List.find?_cons] at h
    rw [List.map_cons, List.find?_cons]
    by_cases he : e.id = did
    · rw [beq_iff_eq.mpr he] at h
      obtain rfl := Option.some.inj h
      rw [if_pos he, beq_iff_eq.mpr (hf.trans hid)]
    · rw [beq_eq_false_iff_ne.mpr he] at h
      rw [if_neg he, beq_eq_false_iff_ne.mpr he]
      exact ih h

theorem State.desc_onDesc_ne {f : Desc → Desc} {j : Nat} (hj : j ≠ did) (hf : ∀ e, e.id = did → (f e).id = did) : (s.onDesc did f).desc j = s.desc j := by
  unfold State.desc State.onDesc
  dsimp only
  induction s.descs with
  | nil => rfl
  | cons e l ih =>
    rw [List.map_cons, List.find?_cons, List.find?_cons, ih]
    by_cases he : e.id = did
    · rw [if_pos he, hf e he, he]
      rw [beq_eq_false_iff_ne.mpr (Ne.symm hj)]
    · rw [if_neg he]

theorem State.setDesc_eq (s : State) (d : Desc) : s.setDesc d = s.onDesc d.id (fun _ => d) := rfl

theorem State.desc_setDesc_self (h : s.desc e.id = some d) : (s.setDesc e).desc e.id = some e :=
  State.desc_onDesc_self (f := fun _ => e) h (State.desc_id h).symm

theorem State.desc_setDesc_ne {j : Nat} (hj : j ≠ e.id) : (s.setDesc e).desc j = s.desc j := State.desc_onDesc_ne hj fun _ _ => rfl

/-- Registers that are set one after another to what a list says. -/
theorem State.reg_foldl_setReg {l : List (Nat × Word)} (hl : tsorted l = true) (hs : tsorted s.regs = true) (f : Word → Word) (k : Nat) :
    (l.foldl (fun s p => s.setReg p.1 (f p.2)) s).reg k = ((tget l k).map f).getD (s.reg k) := by
  induction l generalizing s with
  | nil => rfl
  | cons p l ih =>
    obtain ⟨j, a⟩ := p
    obtain ⟨hlt, hl⟩ := tsorted_cons.mp hl
    rw [List.foldl_cons, ih hl (State.tsorted_setReg hs j (f a)), tget_cons, State.reg_setReg hs]
    by_cases h : j = k
    · subst h
      have hnone : tget l j = none := tget_none_of_lt hlt
      rw [hnone, if_pos rfl, if_pos rfl]
      rfl
    · rw [if_neg (Ne.symm h), if_neg h]

end Sys2Proof.Machine
end

section
/-! PROOFS. Translation: invalidations (R365, R366, R368), table words (R354), access counters (R371) and walks of range tables (R362). -/

namespace Sys2Proof.Machine

variable {s t : State}

/-! ### Invalidations -/

/-- Whether an invalidation, of one tag or of all, is of a tag. -/
def tagMatches (tag : Option Nat) (t : Nat) : Bool := tag.isNone || tag == some t

theorem tagMatches_iff (v : Word) (t : Nat) :
    tagMatches (if bit v 63 then none else some (fld v 11 0)) t = true ↔ bit v 63 = true ∨ t = fld v 11 0 := by
  generalize fld v 11 0 = n
  cases bit v 63
  · simpa [tagMatches] using eq_comm
  · simp [tagMatches]

/-- The ranges that an invalidation leaves in a cache. -/
def keptRanges (tag : Option Nat) (l : List Range) : List Range := l.filter (fun r => !tagMatches tag r.tag)

theorem not_tagMatches_of_mem {tag : Option Nat} {l : List Range} {r : Range} (h : r ∈ keptRanges tag l) : tagMatches tag r.tag ≠ true := by
  simpa using (List.mem_filter.mp h).2

theorem mem_keptRanges {tag : Option Nat} {l : List Range} {r : Range} (h : r ∈ l) (ht : tagMatches tag r.tag ≠ true) : r ∈ keptRanges tag l :=
  List.mem_filter.mpr ⟨h, by simpa using ht⟩

theorem State.invalidate_xl (s : State) (tag : Option Nat) : (s.invalidate tag).xl =
    { s.xl with
      l0 := s.xl.l0.map (fun p => (p.1, keptRanges tag p.2)), l1 := s.xl.l1.map (fun p => (p.1, keptRanges tag p.2)),
      l2 := keptRanges tag s.xl.l2, walks := s.xl.walks.map (fun w => if tagMatches tag w.tag then { w with cancelled := true } else w),
      invs := s.xl.invs ++ [{ tag := tag, waits := s.underTag tag }] } := rfl

/-- Settles O25, by what an invalidation leaves in each level. -/
theorem invalidationsEmptyTheCachesOfTheirTag : Obligations.InvalidationsEmptyTheCachesOfTheirTag := by
  unfold Obligations.InvalidationsEmptyTheCachesOfTheirTag
  refine ⟨fun s p v hn hs => ⟨fun hc => ?_, fun hc hfull => ?_, fun hc hroom => ?_⟩, fun s i rest hn hi => ⟨fun hw => ?_, fun hw => ?_⟩⟩
  · exact whenNormal_self (f := fun s => if fromCompute p then s else s.atInv .whole v) (if_pos hc)
  · refine whenNormal_next (f := fun s => if fromCompute p then s else s.atInv .whole v) hn ((if_neg (by simp [hc])).trans ?_) rfl
    rw [State.atInv, if_neg (by simp), if_pos hfull]
  · let tag : Option Nat := if bit v 63 then none else some (fld v 11 0)
    have hacts : (if fromCompute p then s else s.atInv .whole v) = (s.bump Reg.atInvStat 31 0).invalidate tag := by
      rw [hc, if_neg Bool.false_ne_true, State.atInv, if_neg (by simp), if_neg (Nat.not_le.mpr hroom)]
    have hmine : ∀ t, ¬(bit v 63 = true ∨ t = fld v 11 0) ↔ tagMatches tag t ≠ true := fun t => not_congr (tagMatches_iff v t).symm
    refine ⟨_, whenNormal_next (f := fun s => if fromCompute p then s else s.atInv .whole v) hn hacts rfl, ?_, ?_, ?_, ?_, ?_, ?_,
      ⟨_, rfl, rfl⟩, rfl, rfl, rfl, rfl⟩
    · refine (congrArg (fun w => fld w 31 0) ((State.reg_setReg hs _ _ _).trans (if_pos rfl))).trans ?_
      exact fld_putFld (by decide)
    · intro e he r hr
      rw [State.invalidate_xl, List.mem_append, List.mem_map, List.mem_map] at he
      rw [hmine]
      obtain ⟨q, -, rfl⟩ | ⟨q, -, rfl⟩ := he <;> exact not_tagMatches_of_mem hr
    · exact fun r hr => (hmine _).mpr (not_tagMatches_of_mem hr)
    · exact fun r hr hne => mem_keptRanges hr ((hmine _).mp hne)
    · intro w hw hm
      rw [State.invalidate_xl] at hw
      obtain ⟨x, -, rfl⟩ := List.mem_map.mp hw
      by_cases hx : tagMatches tag x.tag = true
      · rw [if_pos hx]
      · rw [if_neg hx] at hm
        exact absurd hm ((hmine _).mpr hx)
    · exact fun w hw hne => List.mem_map.mpr ⟨w, hw, if_neg ((hmine _).mp hne)⟩
  · refine whenNormal_self (f := State.invDone) ?_
    rw [State.invDone, hi]
    exact if_pos hw
  · refine whenNormal_next (f := State.invDone) hn ?_ rfl
    rw [State.invDone, hi]
    exact if_neg (by simp [hw])

/-! ### Table words and access counters -/

theorem State.keyOf_atTable (p : Port) (h : s.regFld Reg.atSel 27 16 < s.nContexts) :
    s.keyOf p Reg.atTable = some (rkey Reg.atTable (s.regFld Reg.atSel 27 16)) := by
  unfold State.keyOf
  dsimp only
  refine (if_neg (by decide)).trans ((if_neg (by decide)).trans ((if_neg (by decide)).trans ((if_neg (by decide)).trans
    ((if_neg (by decide)).trans ((if_pos rfl).trans (if_pos h))))))

/-- The table word of a tag: an RW field and no other. -/
def atTableRow : RegRow := ⟨0x40010, 1, 0x8, 0x1FFFFFFFFFFFFFC0, 0x0, 0x0, 0x0, 0x0⟩

theorem State.atTable_eq (p : Port) (v : Word) (h : s.regFld Reg.atSel 27 16 < s.nContexts) : s.atTable p .whole v =
    s.setReg (rkey Reg.atTable (s.regFld Reg.atSel 27 16)) (merge (s.reg (rkey Reg.atTable (s.regFld Reg.atSel 27 16))) v 0x1FFFFFFFFFFFFFC0) := by
  have hr : regRow Reg.atTable = some atTableRow := by decide +kernel
  have habs : s.absentReg Reg.atTable = false := by simp [State.absentReg, Reg.atTable]
  have hplain : ∀ w : Word, plainWrite atTableRow w (partMask .whole) v = merge w v 0x1FFFFFFFFFFFFFC0 := fun w => by
    have h1 : atTableRow.rw &&& partMask .whole = 0x1FFFFFFFFFFFFFC0 := by decide
    have h2 : atTableRow.w1c = 0 := rfl
    rw [plainWrite, h1, h2]
    refine word_ext fun i hi => ?_
    rw [bit_and, bit_not _ hi, bit_and]
    simp [bit]
  rw [State.atTable, if_neg (by simp), State.writeFields_eq (by decide) hr habs (State.keyOf_atTable p h), State.writeStaged, if_pos (by decide),
    State.writePlain_eq]
  exact congrArg _ (hplain _)

theorem State.halveCounters_eq (h : fld (s.act Reg.atHotCfg) 15 0 ≠ 0) : s.halveCounters =
    (s.regs.filter (fun p => p.1 % 2 ^ 24 = Reg.atCntVal)).foldl (fun s p => s.setReg p.1 (putFld p.2 31 0 (fld p.2 31 0 / 2))) s := if_neg h

/-- Halving sets the count of every access counter to its half, and no other register. -/
theorem State.reg_halveCounters (h : fld (s.act Reg.atHotCfg) 15 0 ≠ 0) (hs : tsorted s.regs = true) (k : Nat) : s.halveCounters.reg k =
    if k % 2 ^ 24 = Reg.atCntVal then ((tget s.regs k).map (fun w => putFld w 31 0 (fld w 31 0 / 2))).getD (s.reg k) else s.reg k := by
  rw [State.halveCounters_eq h, State.reg_foldl_setReg (f := fun w => putFld w 31 0 (fld w 31 0 / 2)) (tsorted_filter hs _) hs,
    tget_filter s.regs (fun j => decide (j % 2 ^ 24 = Reg.atCntVal))]
  by_cases hk : k % 2 ^ 24 = Reg.atCntVal
  · rw [if_pos (by simpa using hk), if_pos hk]
  · rw [if_neg (by simpa using hk), if_neg hk]
    rfl

theorem State.halveCounters_is (s : State) : ∃ r, s.halveCounters = { s with regs := r } := by
  unfold State.halveCounters
  split
  · exact ⟨s.regs, rfl⟩
  · exact foldl_regs (fun u x => ⟨_, rfl⟩) _ s

theorem fld_halved (h : fld (s.act Reg.atHotCfg) 15 0 ≠ 0) (hs : tsorted s.regs = true) {k : Nat} (hk : k % 2 ^ 24 = Reg.atCntVal) :
    fld (s.halveCounters.reg k) 31 0 = fld (s.reg k) 31 0 / 2 := by
  rw [State.reg_halveCounters h hs, if_pos hk, State.reg, rget]
  cases tget s.regs k with
  | none =>
    have h0 : resetOf s.grade k = 0 := by
      refine (resetOf_same (by rw [hk]; decide) s.grade 3).trans ?_
      unfold resetOf
      rw [hk]
      decide
    rw [Option.map_none, Option.getD_none, Option.getD_none, h0]
    decide
  | some w =>
    rw [Option.map_some, Option.getD_some, Option.getD_some, fld_putFld (by decide)]
    exact Nat.mod_eq_of_lt (Nat.lt_of_le_of_lt (Nat.div_le_self ..) (fld_lt w 31 0))

/-! ### Walks -/

/-- The answer of a walk's granule: the walk takes its step on what is left of its read, and what waits goes on. -/
theorem exec_walkGranuleRead_eq {w : Nat} {r : MemReq} {x : Walk} (hn : s.serving = true)
    (hr : s.reqs.find? (fun r => r.owner == .walk w && r.answerable) = some r) (hx : s.xl.walks.find? (fun x => x.id == w) = some x)
    (data : Bytes) (err : Bool) : exec (.walkGranuleRead w data err) s =
      .next { State.pump (State.startWalkers (((s.passOn r).dropReq r.id).walkStep x (r.result data) (r.failed err))) with pending := s.pending } := by
  refine (whenServing_acts (f := fun s =>
    match s.reqs.find? (fun r => r.owner == .walk w && r.answerable), s.xl.walks.find? (fun x => x.id == w) with
    | some r, some x => ((((s.passOn r).dropReq r.id).walkStep x (r.result data) (r.failed err)).startWalkers).pump
    | _, _ => s) hn).trans ?_
  rw [hr, hx]

/-- What a bisection that finds a range finds: a present range that covers the address. -/
theorem State.bisect_found {x : Walk} {g : Bytes} {rg : Range} (h : s.bisect x g = .inl (.found rg)) : rg.covers x.va = true ∧ rg.present = true := by
  unfold State.bisect at h
  grind

/-- A bisection that goes on narrows its part of the table and keeps the walk's identity and table. -/
theorem State.bisect_narrows {x x' : Walk} {g : Bytes} (h : s.bisect x g = .inr x') :
    (x.lo < x'.lo ∨ x'.hi < x.hi) ∧ x'.id = x.id ∧ x'.base = x.base ∧ x'.count = x.count ∧ x'.queue = x.queue := by
  have hgran : x.granule = (x.lo + x.hi) / 2 := rfl
  unfold State.bisect at h
  grind

theorem State.install_is (s : State) (m : Option Nat) (r : Range) : ∃ y, s.install m r = ({ s with xl := y } : State).useFree ∧ y.walks = s.xl.walks := by
  unfold State.install
  split
  · exact ⟨_, rfl, rfl⟩
  · exact ⟨_, rfl, rfl⟩

/-- A finished walk off the list, with the range that it found in the caches. -/
def State.walkOver (s : State) (x : Walk) (res : WalkResult) : State :=
  match res with
  | .found r => (s.dropWalk x.id).install x.mover r
  | _ => s.dropWalk x.id

theorem State.walkOver_is (s : State) (x : Walk) (res : WalkResult) : ∃ y f, s.walkOver x res = { s with xl := y, free := f } ∧
    y.walks = s.xl.walks.filter (fun w => w.id != x.id) ∧ ((∀ rg, res ≠ .found rg) → y.l0 = s.xl.l0 ∧ y.l1 = s.xl.l1 ∧ y.l2 = s.xl.l2) := by
  cases res with
  | found rg =>
    obtain ⟨y, e, hw⟩ := (s.dropWalk x.id).install_is x.mover rg
    exact ⟨y, _, e, hw, fun h => absurd rfl (h rg)⟩
  | _ => exact ⟨_, _, rfl, rfl, fun _ => ⟨rfl, rfl, rfl⟩⟩

/-- A descriptor with one more result of a walk. -/
def Desc.learns (x : Walk) (res : WalkResult) (d : Desc) : Desc := { d with results := (resultKey x.tag x.va, res) :: d.results }

/-- The end of a walk of a descriptor, which keeps the result. -/
theorem State.endWalk_eq {x : Walk} {did : Nat} (hc : x.cancelled = false) (hd : x.did = some did) (res : WalkResult) :
    s.endWalk x res = (s.walkOver x res).onDesc did (Desc.learns x res) := by
  unfold State.endWalk
  dsimp only
  rw [if_neg (by simp [hc])]
  unfold State.giveResult
  rw [hd]
  cases res <;> rfl

/-- The event of a table that is not sound. -/
def State.tableEvent (s : State) (res : WalkResult) : State := if res = .table then s.evAt 1 else s

theorem State.tableEvent_is (s : State) (res : WalkResult) : ∃ g, s.tableEvent res = { s with regs := g } := by
  unfold State.tableEvent
  split
  · exact ⟨_, rfl⟩
  · exact ⟨_, rfl⟩

theorem State.bit_tableEvent {res : WalkResult} (h : res = .table) : bit ((s.tableEvent res).reg Reg.atEvent) 1 = true := by
  rw [State.tableEvent, if_pos h]
  exact State.bit_evAt (by decide)

/-- The step of a walk that no invalidation has cancelled, by what its granule shows. -/
theorem State.walkStep_ends {x : Walk} {g : Bytes} {err : Bool} {res : WalkResult} (hc : x.cancelled = false)
    (h : (err = true ∧ res = .data) ∨ (err = false ∧ s.bisect x g = .inl res)) :
    s.walkStep x g err = (s.tableEvent res).endWalk x res := by
  unfold State.walkStep
  rw [if_neg (by simp [hc])]
  rcases h with ⟨rfl, rfl⟩ | ⟨rfl, hb⟩
  · exact (if_pos rfl).trans rfl
  · rw [if_neg (by simp), hb]
    cases res <;> rfl

/-- A walk that goes on reads its next granule. -/
theorem State.walkRead_reads {x : Walk} {dest : Dest} (h0 : x.count ≠ 0) (hg : s.granuleOk (x.base + 64 * x.granule) = true)
    (hd : s.routePa (x.base + 64 * x.granule) = some dest) : ∃ y q, s.walkRead x = ({ s with xl := y, reqs := s.reqs ++ [q] } : State).useId ∧
      q.kind = .read ∧ q.pa = x.base + 64 * x.granule ∧ q.len = 64 ∧ q.owner = .walk x.id := by
  unfold State.walkRead
  dsimp only
  rw [if_neg h0, hg, hd]
  exact ⟨_, _, rfl, rfl, rfl, rfl, rfl⟩

/-- Settles O26: table words, the halving of the counters, and a walk's step case by case. -/
theorem tablesWalksAndAccessCounters : Obligations.TablesWalksAndAccessCounters := by
  unfold Obligations.TablesWalksAndAccessCounters
  refine ⟨fun s hn hs => ⟨fun p v hp hsel => ?_, fun h0 => ?_, fun h0 => ?_⟩, fun s w r x data err hn hr hx hdata herr => ?_⟩
  · refine ⟨_, whenNormal_next (f := fun s => if fromCompute p then s else s.atTable p .whole v) hn
      ((if_neg (by simp [hp])).trans (State.atTable_eq p v hsel)) rfl, rfl, ?_, fun k' hk => ?_⟩
    · exact (State.reg_setReg hs ..).trans (if_pos rfl)
    · exact State.reg_setReg_ne _ _ hk
  · exact whenNormal_self (f := State.halveCounters) (if_pos h0)
  · obtain ⟨r, e⟩ := s.halveCounters_is
    refine ⟨s.halveCounters, whenNormal_next (f := State.halveCounters) hn rfl (by rw [e]), by rw [e], fun k hk => fld_halved h0 hs hk, fun k hk => ?_⟩
    rw [State.reg_halveCounters h0 hs, if_neg hk]
  · have hw : x.id = w := by simpa using List.find?_some hx
    have hexec := exec_walkGranuleRead_eq hn hr hx data err
    rw [hdata, herr] at hexec
    obtain ⟨l, dr, he⟩ := s.passOn_is r
    have hbis : ∀ g, ((s.passOn r).dropReq r.id).bisect x g = s.bisect x g := fun g => by rw [he]; rfl
    refine ⟨fun hc => ?_, fun did d res hc hdid hd hres => ?_, fun x' dest herr hc hb h0 hg hroute => ?_⟩
    · rw [State.walkStep, if_pos hc, hw] at hexec
      exact hexec
    · rw [State.walkStep_ends hc (by rw [hbis]; exact hres)] at hexec
      rw [State.endWalk_eq hc hdid] at hexec
      obtain ⟨g, hg⟩ := ((s.passOn r).dropReq r.id).tableEvent_is res
      have hev : res = .table → bit (rget s.grade g Reg.atEvent) 1 = true := fun h => by
        have hb := State.bit_tableEvent (s := (s.passOn r).dropReq r.id) h
        rw [hg, he] at hb
        exact hb
      rw [hg, he] at hexec
      obtain ⟨y, f, hy, hwalks, hcaches⟩ := ({ ({ s with reqs := l, drr := dr } : State).dropReq r.id with regs := g } : State).walkOver_is x res
      rw [hy] at hexec
      refine ⟨_, _, hexec, State.desc_onDesc_self (f := Desc.learns x res) (s := { ({ s with reqs := l, drr := dr } : State).dropReq r.id with regs := g, xl := y, free := f })
        hd rfl, rfl, ?_, ?_, hev, fun rg hrg => ?_, hcaches⟩
      · rw [← hw]
        exact hwalks
      · rw [he]
        rfl
      · rcases hres with ⟨-, h⟩ | ⟨-, h⟩
        · rw [h] at hrg
          cases hrg
        · exact State.bisect_found (h.trans (by rw [hrg]))
    · obtain ⟨hnar, hid, hbase, hcount, -⟩ := State.bisect_narrows hb
      have hgran : x'.base + 64 * x'.granule = x.base + 64 * x'.granule := by rw [hbase]
      have hstep : ((s.passOn r).dropReq r.id).walkStep x data err = ((s.passOn r).dropReq r.id).walkRead x' := by
        rw [State.walkStep, if_neg (by simp [hc]), if_neg (by simp [herr]), hbis, hb]
      obtain ⟨y, q, e, hk, hpa, hlen, ho⟩ := State.walkRead_reads (s := (s.passOn r).dropReq r.id) (x := x') (dest := dest)
        (by rw [hcount]; exact h0) (by rw [hgran, he]; exact hg) (by rw [hgran, he]; exact hroute)
      rw [hstep, e] at hexec
      refine ⟨hnar, _, q, hexec, rfl, hk, by rw [hpa, hgran], hlen, by rw [ho, hid, hw], ?_⟩
      rw [he]
      rfl

end Sys2Proof.Machine
end

section
/-! PROOFS. Retirement of units (R536, R537), power switches and clocks (R586, R587), failed memory ports (R540, R541), repairs (R535). -/

namespace Sys2Proof.Machine

variable {s t u : State}

/-! ### What shows a unit retired -/

/-- The retirement masks grow and the die stays. -/
structure Retires (s t : State) : Prop where
  die : t.die = s.die
  kept : ∀ k ∈ retiredRegs, ∀ b, bit (s.reg k) b = true → bit (t.reg k) b = true

theorem Retires.refl (s : State) : Retires s s := ⟨rfl, fun _ _ _ h => h⟩

theorem Retires.trans (h : Retires s t) (h' : Retires t u) : Retires s u :=
  ⟨h'.die.trans h.die, fun k hk b hb => h'.kept k hk b (h.kept k hk b hb)⟩

theorem Retires.of_regs (hd : t.die = s.die) (hr : t.regs = s.regs) : Retires s t :=
  ⟨hd, fun k _ b hb => by rwa [State.reg_eq hd hr]⟩

theorem Retires.foldl {α : Type} {f : State → α → State} (hf : ∀ u x, Retires u (f u x)) (l : List α) (s : State) : Retires s (l.foldl f s) := by
  induction l generalizing s with
  | nil => exact .refl s
  | cons x l ih => exact (hf s x).trans (ih (f s x))

theorem retiredBit_mem (kind i : Nat) : (retiredBit kind i).1 ∈ retiredRegs := by
  unfold retiredBit retiredRegs
  grind

theorem resetOf_retiredRegs {k : Nat} (h : k ∈ retiredRegs) (g : Nat) : resetOf g k = 0 := by
  have hall : ∀ k ∈ retiredRegs, (regRow (k % 2 ^ 24)).all (fun r => k % 2 ^ 24 != Reg.qmFetchCfg && r.base != Reg.mvCfg 0 &&
    r.base != Reg.exCfg 0) = true ∧ resetOf 3 k = 0 := by decide +kernel
  exact (resetOf_same (hall k h).1 g 3).trans (hall k h).2

/-- A unit whose bit is set is there no more. -/
theorem State.hasUnit_of_bit {kind i : Nat} (h : bit (s.reg (retiredBit kind i).1) (retiredBit kind i).2 = true) : s.hasUnit kind i = false := by
  unfold State.hasUnit
  unfold retiredBit at h
  grind [State.hasMover, State.hasGroup, State.hasExp, State.hasLift, State.hasBank, State.hasMport, State.hasLink, State.moverRetired,
    State.groupRetired, State.expRetired, State.liftRetired, State.bankRetired, State.mportRetired, State.linkRetired, State.lensRetired]

/-- The bit of a unit that is there lies in its register. -/
theorem State.retiredBit_lt {kind i : Nat} (h : s.hasUnit kind i = true) : (retiredBit kind i).2 < 64 := by
  unfold State.hasUnit at h
  unfold retiredBit
  grind [State.hasMover, State.hasGroup, State.hasExp, State.hasLift, State.hasBank, State.hasMport, State.hasLink, State.moverFuse,
    State.groupFuse, State.expFuse, State.liftFuse, State.bankFuse, State.mportFuse, State.linkFuse]

/-! ### What the retirement of a unit does to the masks -/

/-- Marking a unit sets its bit, clears none, and changes registers, the keeper's log and a free value alone. -/
theorem State.markRetired_is (s : State) (kind i : Nat) : ∃ r k, s.markRetired kind i = { s with regs := r, kp := k, free := s.free + 1 } ∧
    ((retiredBit kind i).2 < 64 → Retires s (s.markRetired kind i) ∧
      bit ((s.markRetired kind i).reg (retiredBit kind i).1) (retiredBit kind i).2 = true) := by
  obtain ⟨k, b, hkb⟩ : ∃ k b, retiredBit kind i = (k, b) := ⟨_, _, rfl⟩
  have hk : k ∈ retiredRegs := by simpa [hkb] using retiredBit_mem kind i
  have hout : ∀ k ∈ retiredRegs, k ≠ Reg.kpEvent ∧ k ≠ Reg.kpEventCnt ∧ k ≠ Reg.hmEvent ∧ k ≠ Reg.hmEventCnt := by decide
  obtain ⟨r, log, x, o, e, -, hreg, -⟩ := ((s.setReg k (putBit (s.reg k) b true)).evHm 1).logObj_is 0x0D keeperOrigin i
    (leBytes 20 (Config.openValue 6 s.free))
  have hdef : s.markRetired kind i = ((s.setReg k (putBit (s.reg k) b true)).evHm 1).logObj 0x0D keeperOrigin i
      (leBytes 20 (Config.openValue 6 s.free)) := by
    unfold State.markRetired
    rw [hkb]
  have hm := hdef.trans e
  refine ⟨r, _, hm, fun hb => ?_⟩
  rw [hkb] at hb ⊢
  have hread : ∀ j ∈ retiredRegs, (s.markRetired kind i).reg j = (s.setReg k (putBit (s.reg k) b true)).reg j := fun j hj => by
    obtain ⟨h1, h2, h3, h4⟩ := hout j hj
    rw [hm]
    exact (hreg j h1 h2).trans (State.reg_evHm_ne 1 h3 h4)
  have hself : bit ((s.setReg k (putBit (s.reg k) b true)).reg k) b = true :=
    State.bit_setReg (resetOf_retiredRegs hk _) (by rw [bit_putBit hb, if_pos rfl])
  refine ⟨⟨by rw [hm]; rfl, fun j hj c hc => ?_⟩, by rw [hread k hk]; exact hself⟩
  rw [hread j hj]
  by_cases hjk : j = k
  · subst hjk
    refine State.bit_setReg (resetOf_retiredRegs hk _) ?_
    have hc64 : c < 64 := by
      by_contra hge
      rw [bit, BitVec.getLsbD_of_ge _ _ (Nat.not_lt.mp hge)] at hc
      cases hc
    rw [bit_putBit hc64, hc]
    exact ite_self true
  · rwa [s.reg_setReg_ne _ hjk]

theorem Retires.markRetired {kind i : Nat} (h : s.hasUnit kind i = true) : Retires s (s.markRetired kind i) := by
  obtain ⟨-, -, -, hr⟩ := s.markRetired_is kind i
  exact (hr (State.retiredBit_lt h)).1

theorem State.bit_markRetired {kind i : Nat} (h : s.hasUnit kind i = true) :
    bit ((s.markRetired kind i).reg (retiredBit kind i).1) (retiredBit kind i).2 = true := by
  obtain ⟨-, -, -, hr⟩ := s.markRetired_is kind i
  exact (hr (State.retiredBit_lt h)).2

theorem Retires.retireHeld (s : State) (kind i : Nat) : Retires s (s.retireHeld kind i) := by
  unfold State.retireHeld
  split
  next h => exact (Retires.markRetired h).trans (.of_regs rfl rfl)
  next => exact .refl s

theorem Retires.retireGroup (s : State) (g : Nat) : Retires s (s.retireGroup g) := by
  have hheld : Retires s (((List.range 4).foldl (fun s k => s.retireHeld 1 (4 * g + k)) s).retireHeld 3 g) :=
    (Retires.foldl (fun u k => Retires.retireHeld u 1 (4 * g + k)) _ s).trans (.retireHeld ..)
  unfold State.retireGroup
  split
  next h =>
    obtain ⟨-, -, -, hr⟩ := (((List.range 4).foldl (fun s k => s.retireHeld 1 (4 * g + k)) s).retireHeld 3 g).markRetired_is 2 g
    exact hheld.trans (hr (State.retiredBit_lt (s := s) (kind := 2) h)).1
  next => exact .refl s

theorem State.bit_retireHeld {kind i : Nat} (h : s.hasUnit kind i = true) :
    bit ((s.retireHeld kind i).reg (retiredBit kind i).1) (retiredBit kind i).2 = true := by
  unfold State.retireHeld
  rw [if_pos h]
  exact (Retires.of_regs (s := s.markRetired kind i) (t := (s.markRetired kind i).endHolders kind i) rfl rfl).kept _ (retiredBit_mem kind i) _ (State.bit_markRetired h)

theorem State.bit_retireGroup {g : Nat} (h : s.hasUnit 2 g = true) :
    bit ((s.retireGroup g).reg (retiredBit 2 g).1) (retiredBit 2 g).2 = true := by
  unfold State.retireGroup
  rw [if_pos (show s.hasGroup g = true from h)]
  obtain ⟨-, -, -, hr⟩ := (((List.range 4).foldl (fun s k => s.retireHeld 1 (4 * g + k)) s).retireHeld 3 g).markRetired_is 2 g
  exact (hr (State.retiredBit_lt h)).2

/-- The window without what a bank held. -/
def State.bankEmptied (s : State) (b : Nat) : State :=
  { s with win := { s.win with ram := s.win.ram.filter (fun c => c.1 / 0x200000 ≠ b), bad := s.win.bad.filter (fun a => a / 0x200000 ≠ b) } }

theorem State.retireBank_eq (s : State) (b : Nat) : s.retireBank b =
    (let u := (s.markRetired 5 b).bankEmptied b
     if (u.hasBank (2 * (b / 2)) || u.hasBank (2 * (b / 2) + 1) || (u.pair (b / 2)).state == .off) = true then u
     else (u.setPair (b / 2) { state := .off, offered := false, retaining := false }).pdAsk (pairDomain (b / 2)) 0) := rfl

theorem Retires.pdAsk (s : State) (d want : Nat) : Retires s (s.pdAsk d want) := by
  obtain ⟨x, out, e, -⟩ := s.pdAsk_is d want
  rw [e]
  exact .of_regs rfl rfl

/-- What a bank's retirement does beside its mark leaves the masks. -/
theorem Retires.retireBank (s : State) (b : Nat) : Retires (s.markRetired 5 b) (s.retireBank b) := by
  have hemptied : Retires (s.markRetired 5 b) ((s.markRetired 5 b).bankEmptied b) := .of_regs rfl rfl
  rw [State.retireBank_eq]
  generalize (s.markRetired 5 b).bankEmptied b = u at hemptied ⊢
  dsimp only
  split
  · exact hemptied
  · exact hemptied.trans (Retires.trans (t := u.setPair (b / 2) { state := .off, offered := false, retaining := false }) (.of_regs rfl rfl) (.pdAsk ..))

theorem State.dropLink_is (s : State) (l : Nat) (st : LinkState) (cause : Nat) : ∃ f, s.dropLink l st cause = { s with fab := f } := ⟨_, rfl⟩

/-- Retirement sets the unit's bit and clears none (R536, R537). -/
theorem State.retire_shows {kind i : Nat} (h : s.hasUnit kind i = true) :
    bit ((s.retire kind i).reg (retiredBit kind i).1) (retiredBit kind i).2 = true := by
  have hmem := retiredBit_mem kind i
  unfold State.retire
  rw [if_neg (by simp [h])]
  split
  next hk =>
    subst hk
    dsimp only
    split
    · exact (Retires.retireGroup ..).kept _ hmem _ (State.bit_retireHeld h)
    · exact State.bit_retireHeld h
  next =>
  split
  next hk => subst hk; exact State.bit_retireGroup h
  next =>
  split
  next hk => subst hk; exact State.bit_retireHeld h
  next =>
  split
  next hk => subst hk; exact State.bit_retireHeld h
  next =>
  split
  next hk =>
    subst hk
    exact (Retires.retireBank s i).kept _ hmem _ (State.bit_markRetired h)
  next =>
  split
  next hk => subst hk; exact State.bit_markRetired h
  next =>
  split
  next hk =>
    subst hk
    exact (Retires.of_regs (s := s.markRetired 7 i) (t := (s.markRetired 7 i).dropLink i .down 0) rfl rfl).kept _ hmem _ (State.bit_markRetired h)
  next h1 h2 h3 h4 h5 h6 h7 =>
    have hk : kind = 8 := by
      by_contra h8
      simp [State.hasUnit, h1, h2, h3, h4, h5, h6, h7, h8] at h
    subst hk
    exact (Retires.retireGroup ..).kept _ hmem _ (State.bit_markRetired h)

theorem State.hasUnit_retire {kind i : Nat} (h : s.hasUnit kind i = true) : (s.retire kind i).hasUnit kind i = false :=
  State.hasUnit_of_bit (State.retire_shows h)

theorem State.retire_mport {p : Nat} (s : State) : ∃ r k f, s.retire 6 p = { s with regs := r, kp := k, free := f } := by
  unfold State.retire
  split
  · exact ⟨s.regs, s.kp, s.free, rfl⟩
  · obtain ⟨r, k, e, -⟩ := s.markRetired_is 6 p
    exact ⟨r, k, _, e⟩

/-! ### Power switches and clocks -/

theorem State.pdAck_known {d st : Nat} {x : Domain} (hx : tget s.sup.domains d = some x) (h : ¬(x.got = st ∨ x.want ≠ st)) : s.pdAck d st =
    (let u : State := { s with sup := { s.sup with domains := tput s.sup.domains d { x with got := st } } }
     if (!u.normal) = true then u
     else
       (if 88 ≤ d ∧ d < 120 ∧ st = 2 ∧ (u.pair (d - 88)).state = .retention then u.retainDone (d - 88) true else u).createAgain.pump) := by
  unfold State.pdAck
  rw [hx]
  exact if_neg h

theorem State.normal_eq_of_reset (h : s.rst.inEffect = false) : s.normal = true ↔ s.kp.mode = .normal := by
  simp [State.normal, h]

/-- Settles O31, report by report. -/
theorem powerSwitchesAndClocksAreReported : Obligations.PowerSwitchesAndClocksAreReported := by
  unfold Obligations.PowerSwitchesAndClocksAreReported
  refine ⟨fun s d st x hr hx => ⟨fun h => ?_, fun h1 h2 hm => ?_, fun h1 h2 hm hd => ?_, fun h => ?_, fun h hm k v hu hh => ⟨⟨_, _, rfl, ?_⟩, ?_⟩⟩,
    fun s hr => ⟨outOfReset_acts (f := fun s => { s with sup := { s.sup with holdover := true } }) hr,
      outOfReset_acts (f := fun s => { s with sup := { s.sup with holdover := false } }) hr⟩⟩
  · refine (outOfReset_acts (f := fun s => s.pdAck d st) hr).trans ?_
    have hself : s.pdAck d st = s := by
      rw [State.pdAck, hx]
      exact if_pos h
    rw [hself]
  · refine (outOfReset_acts (f := fun s => s.pdAck d st) hr).trans ?_
    rw [State.pdAck_known hx (by tauto)]
    dsimp only
    rw [if_pos]
    simp [State.normal, hm]
  · refine (outOfReset_acts (f := fun s => s.pdAck d st) hr).trans ?_
    rw [State.pdAck_known hx (by tauto)]
    dsimp only
    rw [if_neg (by simp [State.normal, hr, hm]), if_neg (by tauto)]
  · refine whenNormal_self (f := fun s => s.pdTimeout d) ?_
    rw [State.pdTimeout, hx]
    exact if_pos h
  · exact State.retire_shows hh
  · refine (whenNormal_acts (f := fun s => s.pdTimeout d) (by simp [State.normal, hr, hm])).trans ?_
    have hact : s.pdTimeout d = (s.retire k v).afterRetire := by
      rw [State.pdTimeout, hx]
      refine (if_neg h).trans ?_
      rw [hu]
      rfl
    rw [hact]

/-! ### Requests and limits -/

/-- Settles O34: the request of a unit that is there, and the count that reaches its limit. -/
theorem unitsAreRetiredByRequestAndByErrors : Obligations.UnitsAreRetiredByRequestAndByErrors := by
  unfold Obligations.UnitsAreRetiredByRequestAndByErrors
  refine ⟨fun s p v hn => ⟨fun hc => ?_, fun hc hno => ?_, fun hc h1 h7 hu => ⟨State.retire_shows hu, State.hasUnit_retire hu, ?_⟩⟩,
    fun s hn => ⟨whenNormal_next (f := fun s => { s with sup := { s.sup with ceWin := [], ueWin := [] } }) hn rfl rfl, fun store unit kind i hst => ?_⟩⟩
  · exact whenNormal_self (f := fun s => s.retireReq p .whole v) (if_pos (by simp [hc]))
  · refine whenNormal_next (f := fun s => s.retireReq p .whole v) hn ?_ rfl
    rw [State.retireReq, if_neg (by simp [hc])]
    exact if_neg hno
  · refine (whenNormal_acts (f := fun s => s.retireReq p .whole v) hn).trans ?_
    have hact : s.retireReq p .whole v = (s.retire (fld v 15 8) (fld v 7 0)).afterRetire := by
      rw [State.retireReq, if_neg (by simp [hc])]
      exact if_pos ⟨h1, h7, hu⟩
    rw [hact]
  · unfold State.limitCheck
    rw [hst]
    rfl

/-! ### Repairs -/

/-- Settles O35, by the outcomes of a repair. -/
theorem repairsEndWithSoundWordsOrRetirement : Obligations.RepairsEndWithSoundWordsOrRetirement := by
  unfold Obligations.RepairsEndWithSoundWordsOrRetirement
  intro s mem ok hn im held u
  have hdef : s.repairDone mem ok = if im.damaged.isEmpty = true then s else if (ok && held) = true then u else if mem = 0 then u.raiseFatal 0x11 0
    else (u.retire 2 (mem - 0x10)).afterRetire := rfl
  refine ⟨fun h => ?_, fun h hok => ?_, fun h hok h0 hf => ?_, fun h hok h16 => ?_⟩
  · exact whenNormal_self (f := fun s => s.repairDone mem ok) (if_pos (by simpa using h))
  · refine whenNormal_next (f := fun s => s.repairDone mem ok) hn ?_ rfl
    rw [hdef, if_neg (by simpa using h), if_pos hok]
  · refine whenNormal_next (f := fun s => s.repairDone mem ok) hn ?_ rfl
    rw [hdef, if_neg (by simpa using h), if_neg (by simp [hok]), if_pos h0]
    exact State.raiseFatal_first (s := u) hf (by simp [u, mode_of_normal hn]) _ _
  · refine (whenNormal_acts (f := fun s => s.repairDone mem ok) hn).trans ?_
    have hact : s.repairDone mem ok = (u.retire 2 (mem - 0x10)).afterRetire := by
      rw [hdef, if_neg (by simpa using h), if_neg (by simp [hok]), if_neg (by omega)]
    rw [hact]

/-! ### Memory ports -/

theorem State.failPort_starts {p : Nat} (hp : s.hasMport p = true) (hf : tget s.sup.ports p = none) : s.failPort p =
    (State.evHm { s with sup := { s.sup with ports := tput s.sup.ports p .quiescing } } 2).emit (.quiesce p) := if_pos (by simp [hp, hf])

theorem State.failPort_self {p : Nat} (h : s.hasMport p = false ∨ (tget s.sup.ports p).isSome = true) : s.failPort p = s := by
  refine if_neg ?_
  rcases h with h | h
  · simp [h]
  · simp [Option.isSome_iff_ne_none.mp h]

/-- The retirement of a memory port changes registers, the keeper's log and a free value alone, and the port is there no more. -/
theorem State.hasMport_retire (s : State) (p : Nat) : (s.retire 6 p).hasMport p = false := by
  by_cases h : s.hasUnit 6 p = true
  · exact State.hasUnit_retire h
  · rw [State.retire, if_pos (by simpa using h)]
    exact Bool.eq_false_iff.mpr h

theorem State.mportFuse_of_die (h : t.die = s.die) (p : Nat) : t.mportFuse p = s.mportFuse p := by
  unfold State.mportFuse State.nMports
  rw [h]

/-- The bit of a port of the die is set once it is retired, whether it was there still or no more. -/
theorem State.bit_retire_mport {p : Nat} (hf : s.mportFuse p = true) : bit ((s.retire 6 p).reg Reg.hmRetiredMport) p = true := by
  by_cases h : s.hasUnit 6 p = true
  · exact State.retire_shows h
  · have hgone : s.hasMport p = false := Bool.eq_false_iff.mpr h
    rw [State.retire, if_pos (by simpa using h)]
    simpa [State.hasMport, hf, State.mportRetired] using hgone

/-- Settles O32, by the handshake of a port. -/
theorem failedMemoryPortsAreQuiescedAndRetired : Obligations.FailedMemoryPortsAreQuiescedAndRetired := by
  unfold Obligations.FailedMemoryPortsAreQuiescedAndRetired
  have htimeout : ∀ (s : State) (p : Nat), exec (.memoryPortTimeout p) s =
    whenNormal (fun s => if s.reqs.any (fun r => r.onPort p && !r.held) then s.failPort p else s) s := fun _ _ => rfl
  refine ⟨fun s p hn => ⟨fun hp hf c hc => ?_, fun h => ⟨?_, ?_⟩, fun h => ?_⟩, fun s p hn => ⟨fun h => ⟨?_, ?_⟩, fun h hp => ?_⟩⟩
  · rcases hc with rfl | ⟨rfl, hout⟩
    · exact whenNormal_next (f := fun s => s.failPort p) hn (State.failPort_starts hp hf) rfl
    · rw [htimeout]
      exact whenNormal_next hn ((if_pos hout).trans (State.failPort_starts hp hf)) rfl
  · exact whenNormal_self (f := fun s => s.failPort p) (State.failPort_self h)
  · rw [htimeout]
    refine whenNormal_self ?_
    rw [State.failPort_self h, ite_self]
  · rw [htimeout]
    exact whenNormal_self (if_neg (by simp [h]))
  · exact whenNormal_self (f := fun s => s.portDrained p) (if_neg h)
  · exact whenNormal_self (f := fun s => s.portStuck p) (if_neg h)
  · intro u one both
    obtain ⟨r1, k1, f1, e1⟩ := u.retire_mport (p := p)
    obtain ⟨r2, k2, f2, e2⟩ := one.retire_mport (p := partner p)
    have hone : one.reqs = s.reqs := by
      show (u.retire 6 p).reqs = s.reqs
      rw [e1]
    have hboth : both.reqs = s.reqs := by
      show (one.retire 6 (partner p)).reqs = s.reqs
      rw [e2]
      exact hone
    refine ⟨fun hm => State.retire_shows (s := u) (kind := 6) hm, u.hasMport_retire p, fun hm => ?_, hone, hboth, ?_, ?_⟩
    · refine State.bit_retire_mport (s := one) ?_
      have hdie : one.die = s.die := by
        show (u.retire 6 p).die = s.die
        rw [e1]
      rw [State.mportFuse_of_die hdie]
      exact (Bool.and_eq_true_iff.mp hm).1
    · refine (whenNormal_acts (f := fun s => s.portDrained p) hn).trans ?_
      have hact : s.portDrained p = ((one.reqs.filter (fun r => r.onPort p)).foldl State.movePort one).afterRetire := if_pos h
      rw [hact, hone]
    · refine (whenNormal_acts (f := fun s => s.portStuck p) hn).trans ?_
      have hact : s.portStuck p = ((both.reqs.filter (fun r => r.onPort p || r.onPort (partner p))).foldl (fun s r => s.lostAccess r 1) both).afterRetire := if_pos h
      rw [hact, hboth]

end Sys2Proof.Machine
end

section
/-! PROOFS. Locked test registers (R547, R549), retention of bank pairs (R495, R496), operating points and ageing (R545, R546, R583, R584). -/

namespace Sys2Proof.Machine

variable {s t : State}

/-! ### Test registers -/

theorem State.tpWrite_compute {p : Port} (h : fromCompute p = true) (off : Nat) (f : State → State) : s.tpWrite p off f = s := if_pos h

/-- A write of a TP register through the host or debug port: its effect, and a record with its offset (R547). -/
theorem State.tpWrite_logs {p : Port} (h : fromCompute p = false) (off : Nat) (f : State → State) :
    ∃ r l x n o, s.tpWrite p off f = { f s with
        regs := r, free := (f s).free + 1, kp := { (f s).kp with log := l ++ [x], nextSeq := n, overwritten := o } } ∧ x.kind = 0x0D ∧ x.object = off ∧
      (∀ j, j ≠ Reg.kpEvent → j ≠ Reg.kpEventCnt → rget (f s).grade r j = (f s).reg j) := by
  obtain ⟨r, l, x, o, e, hx, hr, -⟩ := (f s).logRec_is 0x0D (originOf p) 0xFFFF off (s.tpValue p off) ((f s).tpValue p off)
    (leBytes 20 (Config.openValue 6 (f s).free))
  have hact : s.tpWrite p off f = (f s).logRec 0x0D (originOf p) 0xFFFF off (s.tpValue p off) ((f s).tpValue p off)
    (leBytes 20 (Config.openValue 6 (f s).free)) := if_neg (by simp [h])
  exact ⟨r, l, x, _, o, hact.trans e, by rw [hx], by rw [hx], hr⟩

/-- What a write of TP_INJ does in an unlocked window (R549): the register, and the counts start again. -/
def State.armed (s : State) (p : Port) (part : Part) (v : Word) : State :=
  if s.tpIsLocked then s
  else { s.writeFields p Reg.tpInj part v with sup := { (s.writeFields p Reg.tpInj part v).sup with injSkipped := 0, injDone := 0 } }

theorem State.tpInj_eq (s : State) (p : Port) (part : Part) (v : Word) : s.tpInj p part v = s.tpWrite p Reg.tpInj (fun s => s.armed p part v) := rfl

/-- The injection register: RW in all its bits. -/
def tpInjRow : RegRow := ⟨0x70040, 1, 0x8, 0xFFFFFFFFFFFFFFFF, 0x0, 0x0, 0x0, 0x0⟩

theorem regRow_tpInj : regRow Reg.tpInj = some tpInjRow := by decide +kernel

theorem State.writeFields_tpInj (p : Port) (v : Word) : s.writeFields p Reg.tpInj .whole v = s.setReg Reg.tpInj (merge (s.reg Reg.tpInj) v tpInjRow.rw) := by
  have habs : s.absentReg Reg.tpInj = false := by simp [State.absentReg, Reg.tpInj]
  have hplain : plainWrite tpInjRow (s.reg Reg.tpInj) (partMask .whole) v = merge (s.reg Reg.tpInj) v tpInjRow.rw := by
    have h1 : tpInjRow.rw &&& partMask .whole = tpInjRow.rw := by decide
    have h2 : tpInjRow.w1c = 0 := rfl
    rw [plainWrite, h1, h2]
    refine word_ext fun i hi => ?_
    rw [bit_and, bit_not _ hi, bit_and]
    simp [bit]
  rw [State.writeFields_eq (by decide) regRow_tpInj habs (s.keyOf_of_not_selected p (by decide)), State.writeStaged, if_pos (by decide), State.writePlain_eq]
  exact congrArg _ hplain

/-- Settles O27, by the record that every write of the window leaves. -/
theorem lockedTestRegistersStayAsTheyAre : Obligations.LockedTestRegistersStayAsTheyAre := by
  unfold Obligations.LockedTestRegistersStayAsTheyAre
  intro s p hn
  refine ⟨fun hc => ⟨whenNormal_self (f := fun s => s.tpLock p) (State.tpWrite_compute hc ..), fun part v =>
    whenNormal_self (f := fun s => s.tpInj p part v) (State.tpWrite_compute hc ..)⟩, fun hc => ?_, fun part v hc hl => ?_, fun v hc hl hs => ?_⟩
  · obtain ⟨r, l, x, n, o, e, hk, ho, -⟩ := State.tpWrite_logs (s := s) hc Reg.tpLock (fun s => { s with sup := { s.sup with tpLocked := true } })
    refine ⟨_, whenNormal_next (f := fun s => s.tpLock p) hn e rfl, rfl, ?_, rfl, x, List.getLast?_concat, hk, ho⟩
    simp [State.tpIsLocked]
  · obtain ⟨r, l, x, n, o, e, hk, ho, hr⟩ := State.tpWrite_logs (s := s) hc Reg.tpInj (fun s => s.armed p part v)
    have hself : s.armed p part v = s := if_pos hl
    rw [← State.tpInj_eq] at e
    dsimp only at e hr
    rw [hself] at e hr
    exact ⟨_, whenNormal_next (f := fun s => s.tpInj p part v) hn e rfl, rfl, hr Reg.tpInj (by decide) (by decide), x, List.getLast?_concat, hk, ho⟩
  · obtain ⟨r, l, x, n, o, e, hk, ho, hr⟩ := State.tpWrite_logs (s := s) hc Reg.tpInj (fun s => s.armed p .whole v)
    have hact : s.armed p .whole v = { s.setReg Reg.tpInj (merge (s.reg Reg.tpInj) v tpInjRow.rw) with
        sup := { s.sup with injSkipped := 0, injDone := 0 } } := by
      unfold State.armed
      rw [if_neg (by simp [hl]), State.writeFields_tpInj]
      rfl
    rw [← State.tpInj_eq] at e
    dsimp only at e hr
    rw [hact] at e hr
    refine ⟨_, whenNormal_next (f := fun s => s.tpInj p .whole v) hn e rfl, rfl, fun row hrow => ?_, x, List.getLast?_concat, hk, ho⟩
    obtain rfl := Option.some.inj (regRow_tpInj.symm.trans hrow)
    exact (hr Reg.tpInj (by decide) (by decide)).trans ((State.reg_setReg hs ..).trans (if_pos rfl))

/-! ### Retention -/

/-- Settles O37, by what each command does to the pair. -/
theorem retentionFollowsOfferAndWake : Obligations.RetentionFollowsOfferAndWake := by
  unfold Obligations.RetentionFollowsOfferAndWake
  intro s p hn hp
  refine ⟨fun ho hst => ?_, fun h => ?_, fun hr hst hb => ?_, fun h => ?_, fun hst => ?_, fun hst => ?_,
    fun d hd => ⟨fun hst hg => ?_, fun h => ?_⟩⟩
  · refine whenNormal_next (f := fun s => s.retainPair p) hn ?_ rfl
    have hne : (s.pair p).state ≠ .off ∧ (s.pair p).state ≠ .retention := by rcases hst with h | h <;> rw [h] <;> decide
    rw [State.retainPair]
    refine (if_neg (Nat.not_le.mpr hp)).trans ((if_pos ?_).trans (if_neg hne.2))
    rw [ho, Bool.true_and]
    exact bne_iff_ne.mpr hne.1
  · refine whenNormal_next (f := fun s => s.retainPair p) hn ?_ rfl
    rw [State.retainPair]
    refine (if_neg (Nat.not_le.mpr hp)).trans (if_neg ?_)
    rcases h with h | h <;> simp [h]
  · refine whenNormal_next (f := fun s => s.retention p) hn (if_pos (by simp [hr, hst, hb])) ?_
    obtain ⟨x, out, e, -⟩ := (s.setPair p { s.pair p with state := .retention, retaining := false }).pdAsk_is (pairDomain p) 2
    rw [e]
    rfl
  · refine whenNormal_self (f := fun s => s.retention p) (if_neg ?_)
    rcases h with h | h | h <;> simp [h]
  · refine whenNormal_next (f := fun s => if p < 32 then s.wakePair p else s) hn ((if_pos hp).trans (if_pos hst)) ?_
    obtain ⟨x, out, e, -⟩ := ((s.setPair p { s.pair p with state := .waking }).bump (Reg.wbPairStat p) 63 32).pdAsk_is (pairDomain p) 1
    rw [e]
    rfl
  · exact whenNormal_self (f := fun s => if p < 32 then s.wakePair p else s) ((if_pos hp).trans (if_neg hst))
  · refine (whenServing_acts (f := fun s => s.pairAwake p) (serving_of_normal hn)).trans ?_
    have hact : s.pairAwake p = (s.setPair p { s.pair p with state := .on }).pmSend 0x86 (2 ^ 8 * p) := if_pos (by simp [hst, hd, hg])
    rw [hact]
    rfl
  · refine (whenServing_acts (f := fun s => s.pairAwake p) (serving_of_normal hn)).trans ?_
    have hact : s.pairAwake p = s := if_neg (by rcases h with h | h <;> simp [hd, h])
    rw [hact]

/-! ### Operating points -/

theorem State.codeEcc_disarmed (h : bit (s.reg Reg.tpInj) 63 = false) : s.codeEcc = s := by
  unfold State.codeEcc
  rw [State.inject_disarmed h]

/-- The lowered ceiling of an island, its count, event, record and report (R545), above the lowest ceiling. -/
theorem State.replan_eq {i : Nat} (h : 1800 + s.actFld Reg.hmAgeCfg 7 0 ≤ s.regFld (Reg.hmAge i) 55 44) : s.replan i =
    (let u := ((s.setFld (Reg.hmAge i) 55 44 (s.regFld (Reg.hmAge i) 55 44 - s.actFld Reg.hmAgeCfg 7 0)).bump (Reg.hmAge i) 63 56).evHm 3
     (u.logObj 0x0D keeperOrigin i (leBytes 20 (Config.openValue 6 u.free))).pmSend 0x85
      (2 ^ 8 * i + 2 ^ 16 * (s.regFld (Reg.hmAge i) 55 44 - s.actFld Reg.hmAgeCfg 7 0))) := by
  unfold State.replan
  have hlow : decide (s.regFld (Reg.hmAge i) 55 44 < 1800 + s.actFld Reg.hmAgeCfg 7 0) = false := by simpa using h
  dsimp only
  rw [hlow]
  rfl

theorem hmAge_ne {i : Nat} (h : i < 32) : Reg.hmAge i ≠ Reg.kpEvent ∧ Reg.hmAge i ≠ Reg.kpEventCnt ∧ Reg.hmAge i ≠ Reg.hmEvent ∧ Reg.hmAge i ≠ Reg.hmEventCnt := by
  simp only [Reg.hmAge, Reg.kpEvent, Reg.kpEventCnt, Reg.hmEvent, Reg.hmEventCnt]
  omega

/-- What a re-plan leaves in the island's register, and its event and report. -/
theorem State.replan_shows {i : Nat} (hi : i < 32) (hs : tsorted s.regs = true)
    (h : 1800 + s.actFld Reg.hmAgeCfg 7 0 ≤ s.regFld (Reg.hmAge i) 55 44) :
    fld ((s.replan i).reg (Reg.hmAge i)) 11 0 = fld (s.reg (Reg.hmAge i)) 11 0 ∧
    fld ((s.replan i).reg (Reg.hmAge i)) 55 44 = s.regFld (Reg.hmAge i) 55 44 - s.actFld Reg.hmAgeCfg 7 0 ∧
    bit ((s.replan i).reg Reg.hmEvent) 3 = true ∧ ∃ x, (s.replan i).out = s.out ++ [.power x] := by
  obtain ⟨h1, h2, h3, h4⟩ := hmAge_ne hi
  generalize hnew : s.regFld (Reg.hmAge i) 55 44 - s.actFld Reg.hmAgeCfg 7 0 = new
  have hlt : new < 2 ^ 12 := by
    have := fld_lt (s.reg (Reg.hmAge i)) 55 44
    simp only [State.regFld] at hnew
    omega
  let v := s.setFld (Reg.hmAge i) 55 44 new
  obtain ⟨r, l, x, o, e, -, hr, -⟩ := ((v.bump (Reg.hmAge i) 63 56).evHm 3).logObj_is 0x0D keeperOrigin i
    (leBytes 20 (Config.openValue 6 ((v.bump (Reg.hmAge i) 63 56).evHm 3).free))
  have hact := State.replan_eq h
  rw [hnew] at hact
  dsimp only at hact
  rw [e] at hact
  rw [hact]
  have hv : v.reg (Reg.hmAge i) = putFld (s.reg (Reg.hmAge i)) 55 44 new := (State.reg_setFld hs ..).trans (if_pos rfl)
  have hage : rget ((v.bump (Reg.hmAge i) 63 56).evHm 3).grade r (Reg.hmAge i) =
      putFld (putFld (s.reg (Reg.hmAge i)) 55 44 new) 63 56 (v.regFld (Reg.hmAge i) 63 56 + 1) := by
    refine (hr _ h1 h2).trans ((State.reg_evHm_ne 3 h3 h4).trans ((State.reg_setFld (State.tsorted_setFld hs ..) ..).trans ((if_pos rfl).trans ?_)))
    rw [hv]
  refine ⟨(congrArg (fun w => fld w 11 0) hage).trans ?_, (congrArg (fun w => fld w 55 44) hage).trans ?_,
    (congrArg (bit · 3) (hr Reg.hmEvent (by decide) (by decide))).trans (State.bit_evHm (by decide)), _, rfl⟩
  · rw [fld_putFld_ne (by decide) (.inl (by decide)), fld_putFld_ne (by decide) (.inl (by decide))]
  · rw [fld_putFld_ne (by decide) (.inl (by decide)), fld_putFld (by decide)]
    exact Nat.mod_eq_of_lt hlt

theorem State.readMargin_eq {i m : Nat} (hm : m < 2 ^ 12) : s.readMargin i m =
    if m < s.actFld Reg.hmAgeCfg 15 8 then (s.setFld (Reg.hmAge i) 11 0 m).replan i else s.setFld (Reg.hmAge i) 11 0 m := by
  unfold State.readMargin
  rw [Nat.min_eq_left (by omega)]
  rfl

/-- A state with the request of an island. -/
def State.withOp (s : State) (i : Nat) (r : OpReq) : State := { s with sup := { s.sup with ops := tput s.sup.ops i r } }

theorem State.setOp_eq {i freq n : Nat} (hi : i ∈ s.datapath) (h1 : 1800 ≤ freq) (h2 : freq ≤ 0xFFF) (h3 : n ≤ 0xFFFF) : s.setOp i freq n =
    (if s.opLimit i < freq then s.evHm 4 else s).withOp i { freq := mhz25 (min freq (s.opLimit i)), seq := n } := by
  unfold State.setOp
  rw [if_neg (by simp [hi]; omega)]
  rfl

/-- The readings of the margins, from the state `t` on. -/
def State.readMargins (s : State) (margins : List Nat) (t : State) : State :=
  (s.datapath.foldl (fun t i => match margins[i]? with
    | some m => t.readMargin i m
    | none => t) t).afterRetire

/-- Where no injection is armed, the period reads the margins and does nothing else (R545). -/
theorem exec_ageingPeriod_acts {margins : List Nat} (hi : s.issuing = true) (hj : bit (s.reg Reg.tpInj) 63 = false) :
    exec (.ageingPeriod margins) s = .next { s.readMargins margins s with pending := s.pending } := by
  have hperiod : execAgeingPeriod margins s = whenIssuing (fun s => s.readMargins margins s.codeEcc) s := rfl
  have hread : s.readMargins margins s.codeEcc = s.readMargins margins s := congrArg (s.readMargins margins) (State.codeEcc_disarmed hj)
  rw [exec_ageingPeriod, hperiod, whenIssuing_acts hi]
  exact congrArg (fun t : State => Host.Outcome.next { t with pending := s.pending }) hread

/-- Settles O30, by the request, the change at a quiet point and the reading of a margin. -/
theorem operatingPointsFollowRequestsAndAgeing : Obligations.OperatingPointsFollowRequestsAndAgeing := by
  unfold Obligations.OperatingPointsFollowRequestsAndAgeing
  refine ⟨fun s i freq n hn hs => ⟨fun hi h1 h2 h3 => ?_, fun h => ?_, fun r hr => ?_⟩, fun s margins hi hj => ?_, fun s i m hi hm hs => ⟨fun hg => ?_, fun hg hc => ?_⟩⟩
  · have hact := State.setOp_eq hi h1 h2 h3
    by_cases hl : s.opLimit i < freq
    · rw [if_pos hl] at hact
      exact ⟨_, whenNormal_next (f := fun s => s.setOp i freq n) hn hact rfl, rfl, fun h => absurd hl (Nat.not_lt.mpr h),
        fun _ => State.bit_evHm (by decide), rfl⟩
    · rw [if_neg hl] at hact
      exact ⟨_, whenNormal_next (f := fun s => s.setOp i freq n) hn hact rfl, rfl, fun _ => rfl, fun h => absurd h hl, rfl⟩
  · refine whenNormal_self (f := fun s => s.setOp i freq n) (if_pos ?_)
    rcases h with h | h | h | h <;> simp [h]
  · have hact : s.opChange i = { (s.setFld (Reg.hmAge i) 43 32 (min r.freq (mhz25 (s.opLimit i)))).pmSend 0x81
        (2 ^ 8 * i + 2 ^ 16 * min r.freq (mhz25 (s.opLimit i)) + 2 ^ 32 * r.seq) with sup := { s.sup with ops := tdel s.sup.ops i } } := by
      unfold State.opChange
      dsimp only
      rw [hr]
      rfl
    refine ⟨_, whenNormal_next (f := fun s => s.opChange i) hn hact rfl, ?_, rfl, ⟨_, rfl⟩, fun k hk => State.reg_setFld_ne s _ _ _ hk, rfl⟩
    refine (congrArg (fun w => fld w 43 32) ((State.reg_setFld hs _ _ _ _ _).trans (if_pos rfl))).trans ?_
    exact fld_putFld (by decide)
  · exact exec_ageingPeriod_acts hi hj
  · rw [State.readMargin_eq hm, if_neg (Nat.not_lt.mpr hg)]
    have hself : (s.setFld (Reg.hmAge i) 11 0 m).reg (Reg.hmAge i) = putFld (s.reg (Reg.hmAge i)) 11 0 m := (State.reg_setFld hs ..).trans (if_pos rfl)
    refine ⟨?_, ?_, fun k hk => State.reg_setFld_ne s _ _ _ hk, rfl⟩
    · rw [hself, fld_putFld (by decide)]
      exact Nat.mod_eq_of_lt hm
    · rw [hself, fld_putFld_ne (by decide) (.inr (by decide))]
  · have hself : (s.setFld (Reg.hmAge i) 11 0 m).reg (Reg.hmAge i) = putFld (s.reg (Reg.hmAge i)) 11 0 m := (State.reg_setFld hs ..).trans (if_pos rfl)
    have hceil : (s.setFld (Reg.hmAge i) 11 0 m).regFld (Reg.hmAge i) 55 44 = fld (s.reg (Reg.hmAge i)) 55 44 := by
      rw [State.regFld, hself, fld_putFld_ne (by decide) (.inr (by decide))]
    obtain ⟨hmargin, hnew, hev, hout⟩ := State.replan_shows (s := s.setFld (Reg.hmAge i) 11 0 m) hi (State.tsorted_setFld hs ..) (by rw [hceil]; exact hc)
    rw [State.readMargin_eq hm, if_pos hg]
    refine ⟨hmargin.trans ?_, hnew.trans (by rw [hceil]; rfl), hev, hout⟩
    rw [hself, fld_putFld (by decide)]
    exact Nat.mod_eq_of_lt hm

end Sys2Proof.Machine
end

section
/-! PROOFS. Compute ports: delivery (R429, R566), window requests (R569, R570) and address words (R573). -/

namespace Sys2Proof.Machine

variable {s t : State}

/-! ### Tables and arbitration -/

theorem tput_tput {α : Type} (l : List (Nat × α)) (k : Nat) (x y : α) : tput (tput l k x) k y = tput l k y := by
  induction l with
  | nil => simp [tput]
  | cons p l ih =>
    obtain ⟨j, a⟩ := p
    by_cases h1 : k < j
    · simp [tput, h1]
    · by_cases h2 : k = j
      · simp [tput, h2]
      · simp [tput, h1, h2, ih]

theorem State.cport_setCport_self (g : Nat) (x : CPort) : (s.setCport g x).cport g = x := by simp [State.cport, State.setCport]

theorem State.setCport_setCport (g : Nat) (x y : CPort) : (s.setCport g x).setCport g y = s.setCport g y := by
  unfold State.setCport
  rw [tput_tput]

/-- An arbitration point without a request serves nothing. -/
theorem State.arbitrate_nil (s : State) (point quantum : Nat) : ∃ d, s.arbitrate point quantum [] = ({ s with drr := d }, none) := by
  obtain ⟨d, e⟩ := s.arbitrate_is point quantum []
  exact ⟨d, Prod.ext e rfl⟩

/-! ### Delivery -/

theorem State.portCands_nil (x : CPort) (h : x.dlv = []) : s.portCands x = [] := by simp [State.portCands, h]

theorem CPort.slotsOf_nil {x : CPort} (h : x.dlv = []) (did : Nat) : x.slotsOf did = [] := by simp [CPort.slotsOf, h]

/-- A port with nothing to deliver picks no stream. -/
theorem State.nextStream_none {g : Nat} (hd : (s.cport g).dlv = []) (hm : (s.cport g).mid = none) :
    ∃ d, s.nextStream g = ({ s with drr := d }, none) := by
  obtain ⟨d, e⟩ := s.arbitrate_nil (cportPoint g) 1024
  refine ⟨d, ?_⟩
  unfold State.nextStream
  dsimp only
  rw [hm]
  simp only [Option.any_none, Bool.false_eq_true, if_false]
  rw [hm]
  dsimp only
  rw [State.portCands_nil _ hd, e]
  rfl

/-- A unit that has gone out in part is the next one. -/
theorem State.nextStream_mid {g did : Nat} (hm : (s.cport g).mid = some did) (hs : (s.cport g).slotsOf did ≠ []) :
    s.nextStream g = (s, some did) := by
  have hne : ((s.cport g).slotsOf did).isEmpty = false := by simpa using hs
  unfold State.nextStream
  dsimp only
  rw [hm]
  simp only [Option.any_some, hne, Bool.false_and, Bool.false_eq_true, if_false]
  rw [hm]
  simp only [hne, Bool.false_eq_true, if_false]

theorem slotsOf_own (did : Nat) (slots : List Slot) : ((slots.map (fun x => (did, x))).filter (fun p => p.1 == did)).map (·.2) = slots := by
  induction slots with
  | nil => rfl
  | cons x l ih => simp [ih]

theorem dropSlots_own (did : Nat) (slots : List Slot) : dropSlots did slots.length (slots.map (fun x => (did, x))) = [] := by
  induction slots with
  | nil => rfl
  | cons x l ih => simpa [dropSlots] using ih

theorem State.fillTransfer_none {g : Nat} (n room : Nat) (out : List (Nat × Slot)) (hd : (s.cport g).dlv = []) (hm : (s.cport g).mid = none) :
    ∃ d, State.fillTransfer g n room s out = ({ s with drr := d }, out) := by
  cases n with
  | zero => exact ⟨s.drr, rfl⟩
  | succ n =>
    unfold State.fillTransfer
    split
    · exact ⟨s.drr, rfl⟩
    · obtain ⟨d, e⟩ := State.nextStream_none hd hm
      exact ⟨d, by rw [e]⟩

/-- A transfer takes the rest of a unit of up to sixteen slots, with which the port's queue is empty. -/
theorem State.fillTransfer_unit {g did : Nat} {slots : List Slot} (hm : (s.cport g).mid = some did)
    (hd : (s.cport g).dlv = slots.map (fun x => (did, x))) (hu : unitSlots slots = slots) (hne : slots ≠ []) (h16 : slots.length ≤ 16)
    (hl : (slots.getLast?).any (·.last) = true) : ∃ d, State.fillTransfer g 17 16 s [] =
      ({ s.setCport g { s.cport g with dlv := [], mid := none } with drr := d }, slots.map (fun x => (did, x))) := by
  have hso : (s.cport g).slotsOf did = slots := by rw [CPort.slotsOf, hd, slotsOf_own]
  have htake : slots.take 16 = slots := List.take_of_length_le h16
  obtain ⟨d, e⟩ := State.fillTransfer_none (s := s.setCport g { s.cport g with dlv := [], mid := none }) (g := g) 16 (16 - slots.length)
    ([] ++ slots.map (fun y => (did, y))) (by rw [State.cport_setCport_self]) (by rw [State.cport_setCport_self])
  refine ⟨d, ?_⟩
  unfold State.fillTransfer
  rw [if_neg (by decide), State.nextStream_mid hm (by rw [hso]; exact hne)]
  dsimp only
  rw [hso, hu, htake, hd, dropSlots_own, if_pos hl, e]
  rfl

theorem eraseDups_own (did : Nat) (slots : List Slot) (h : slots ≠ []) : ((slots.map (fun x => (did, x))).map (·.1)).eraseDups = [did] := by
  obtain ⟨x, l, rfl⟩ := List.exists_cons_of_ne_nil h
  rw [List.map_cons, List.map_cons, List.eraseDups_cons]
  simp

/-- The port after the rest of a unit, with its read-ahead buffer empty (R429). -/
theorem State.afterUnit (s : State) (g : Nat) (d : Tab Drr) :
    ({ s.setCport g { s.cport g with dlv := [], mid := none } with drr := d } : State).setCport g
      { ({ s.setCport g { s.cport g with dlv := [], mid := none } with drr := d } : State).cport g with ahead := [] } =
    ({ s with drr := d } : State).setCport g { s.cport g with dlv := [], mid := none, ahead := [] } := by
  have hself : ({ s.setCport g { s.cport g with dlv := [], mid := none } with drr := d } : State).cport g =
    { s.cport g with dlv := [], mid := none } := State.cport_setCport_self (s := s) g _
  rw [hself]
  exact State.setCport_setCport (s := { s with drr := d }) g _ _

/-- Settles O39, by the one transfer that takes the rest of the unit. -/
theorem deliveriesSendTheUnitInOrder : Obligations.DeliveriesSendTheUnitInOrder := by
  unfold Obligations.DeliveriesSendTheUnitInOrder
  refine fun s g did hn => ⟨fun hd hm => ?_, fun slots hm hd hu hne h16 hl => ?_⟩
  · obtain ⟨d, e⟩ := State.fillTransfer_none 17 16 [] hd hm
    refine whenNormal_self (f := fun s => s.deliver16 g) ?_
    rw [State.deliver16, e]
    rfl
  · obtain ⟨d, e⟩ := State.fillTransfer_unit hm hd hu hne h16 hl
    refine ⟨d, (whenNormal_acts (f := fun s => s.deliver16 g) hn).trans ?_⟩
    have hmap : (slots.map (fun x => (did, x))).map (·.2) = slots := by simp
    have hact : s.deliver16 g = State.pump (State.settleCores (State.freeIdx (State.runAllLate
        ((({ s with drr := d } : State).setCport g { s.cport g with dlv := [], mid := none, ahead := [] }).emit (.delivery g slots))) did)) := by
      rw [State.deliver16, e]
      dsimp only
      rw [if_neg (by simpa using hne), hmap, eraseDups_own did slots hne]
      rw [State.afterUnit]
      rfl
    rw [hact]

/-! ### Spans -/

/-- Pieces of up to 256 B cover a span whole when there may be enough of them. -/
theorem pieces_cover (n a len : Nat) (h : len ≠ 0 → len + a % 256 ≤ 256 * n) :
    ((pieces n a len).map (·.2)).sum = len ∧ ∀ p ∈ pieces n a len, a ≤ p.1 ∧ p.1 + p.2 ≤ a + len := by
  induction n generalizing a len with
  | zero =>
    obtain rfl : len = 0 := by omega
    exact ⟨rfl, fun p hp => by cases hp⟩
  | succ n ih =>
    cases len with
    | zero => exact ⟨rfl, fun p hp => by cases hp⟩
    | succ len =>
      have hdef : pieces (n + 1) a (len + 1) = (a, pieceLen a (len + 1)) :: pieces n (a + pieceLen a (len + 1)) (len + 1 - pieceLen a (len + 1)) := rfl
      have hp : pieceLen a (len + 1) = len + 1 ∨ (pieceLen a (len + 1) = 256 - a % 256 ∧ 256 - a % 256 ≤ len + 1) := by
        unfold pieceLen
        omega
      rw [hdef]
      generalize pieceLen a (len + 1) = l at hp
      obtain ⟨hsum, hin⟩ := ih (a + l) (len + 1 - l) (by omega)
      refine ⟨?_, fun p hm => ?_⟩
      · rw [List.map_cons, List.sum_cons, hsum]
        omega
      · rcases List.mem_cons.mp hm with rfl | hm
        · exact ⟨Nat.le_refl a, by dsimp only; omega⟩
        · have := hin p hm
          omega

theorem pieces_ne_nil {n a len : Nat} (hn : 0 < n) (hl : 0 < len) : pieces n a len ≠ [] := by
  obtain ⟨n, rfl⟩ := Nat.exists_eq_add_of_lt hn
  obtain ⟨len, rfl⟩ := Nat.exists_eq_add_of_lt hl
  simp [pieces]

/-- The accesses of the spans of a window request: one for each span, at the port's bank. -/
theorem State.windowSpan_is (g rsp base : Nat) (dest : Dest) (kind : Access) (data : Bytes) (en : List Bool) (spans : List (Nat × Nat)) (s : State) :
    ∃ rs n, s.windowSpan g rsp base dest kind data en spans = { s with reqs := s.reqs ++ rs, ids := n } ∧ rs.map MemReq.len = spans.map (·.2) ∧
      ∀ q ∈ rs, q.kind = kind ∧ q.dest = dest ∧ q.master = g ∧ ∃ p ∈ spans, q.pa = windowBase + p.1 ∧ q.len = p.2 := by
  induction spans generalizing s with
  | nil => exact ⟨[], s.ids, by simp [State.windowSpan], rfl, fun q hq => by cases hq⟩
  | cons p spans ih =>
    let r := mkReq dest (windowBase + p.1) p.2 kind (.cp g rsp (p.1 - base)) g 0 0xFFFF none true
      ((data.drop (p.1 - base)).take p.2) ((en.drop (p.1 - base)).take p.2)
    obtain ⟨held, e⟩ := s.addReq_is r
    obtain ⟨rs, n, he, hlen, hall⟩ := ih (s.addReq r)
    refine ⟨{ r with id := s.ids, held := held } :: rs, n, ?_, ?_, fun q hq => ?_⟩
    · refine he.trans ?_
      rw [e]
      simp
    · rw [List.map_cons, List.map_cons, hlen]
      rfl
    · rcases List.mem_cons.mp hq with rfl | hq
      · exact ⟨rfl, rfl, rfl, p, List.mem_cons_self, rfl, rfl⟩
      · obtain ⟨hk, hd, hm, p', hp', h⟩ := hall q hq
        exact ⟨hk, hd, hm, p', List.mem_cons_of_mem _ hp', h⟩

/-! ### Window requests -/

theorem windowAddr_aligned {a k o} {w : Bool} (ha : a % 64 = 0) (h : windowAddr a w = some (k, o)) : o % 64 = 0 := by
  unfold windowAddr inWindow at h
  simp only [windowBase, aliasSetBase, aliasClearBase] at h
  grind

theorem State.windowRequest_eq {g : Nat} {r : CpReq} (hp : s.hasPort g = true) (h1 : 1 ≤ r.len) (h16 : r.len ≤ 16) : s.windowRequest g r =
    match windowAddr (r.addr.toNat / 64 * 64) r.write with
    | none => State.sendRsps g ((s.cport g).rsps.length + 1) (s.oweRsp g r 0 0 [] true)
    | some (kind, o) =>
      match s.requestBank o (64 * r.len) with
      | none => State.sendRsps g ((s.cport g).rsps.length + 1) (s.oweRsp g r 0 0 [] true)
      | some dest => if r.write then s.windowWrite g r kind o dest else s.windowRead g r o dest := by
  have h0 : (r.len == 0) = false := by simpa using Nat.ne_of_gt h1
  have h2 : decide (16 < r.len) = false := by simpa using h16
  unfold State.windowRequest
  rw [hp, h0, h2]
  rfl

theorem State.windowRequest_refused {g : Nat} {r : CpReq} (hp : s.hasPort g = true) (h1 : 1 ≤ r.len) (h16 : r.len ≤ 16)
    (h : windowAddr (r.addr.toNat / 64 * 64) r.write = none ∨
      (∃ k o, windowAddr (r.addr.toNat / 64 * 64) r.write = some (k, o) ∧ s.requestBank o (64 * r.len) = none)) :
    s.windowRequest g r = State.sendRsps g ((s.cport g).rsps.length + 1) (s.oweRsp g r 0 0 [] true) := by
  rw [State.windowRequest_eq hp h1 h16]
  rcases h with h | ⟨k, o, h, hb⟩
  · rw [h]
  · rw [h]
    dsimp only
    rw [hb]

/-- The last response that a port owes, due and refused, goes out. -/
theorem State.sendRsps_last {g : Nat} {x : CPort} {rsp : CpRsp} (hx : s.cport g = { x with rsps := [rsp] }) (hl : rsp.left = 0) (he : rsp.err = true) :
    State.sendRsps g 1 s = (s.setCport g { x with rsps := [] }).emit (.windowRsp g rsp.tag (if rsp.write then [] else zeros rsp.len) true) := by
  unfold State.sendRsps
  dsimp only
  rw [hx]
  dsimp only
  rw [if_pos hl, he]
  rfl

/-- A refusal at a port that owes nothing is answered at once. -/
theorem State.refusal_sent {g : Nat} (r : CpReq) (h : (s.cport g).rsps = []) : ∃ data,
    State.sendRsps g ((s.cport g).rsps.length + 1) (s.oweRsp g r 0 0 [] true) = { s with
      ids := s.ids + 1, cps := tput s.cps g { s.cport g with rsps := [] }, out := s.out ++ [.windowRsp g r.tag.toNat data true] } := by
  let rsp : CpRsp := { id := s.ids, tag := r.tag.toNat, write := r.write, base := 0, len := 64 * r.len, left := 0, parts := [], err := true }
  have hself : (s.oweRsp g r 0 0 [] true).cport g = { s.cport g with rsps := [rsp] } := by
    refine (State.cport_setCport_self (s := s) g _).trans ?_
    rw [h]
    rfl
  refine ⟨if r.write then [] else zeros (64 * r.len), ?_⟩
  have hone := State.sendRsps_last (s := s.oweRsp g r 0 0 [] true) (g := g) (x := s.cport g) (rsp := rsp) hself rfl rfl
  rw [h]
  refine hone.trans ?_
  have howe : s.oweRsp g r 0 0 [] true = (s.setCport g { s.cport g with rsps := (s.cport g).rsps ++ [rsp] }).useId := rfl
  rw [h] at howe
  rw [howe]
  exact congrArg (fun u : State => (u.useId).emit (.windowRsp g r.tag.toNat (if r.write then [] else zeros (64 * r.len)) true))
    (State.setCport_setCport (s := s) g { s.cport g with rsps := [rsp] } { s.cport g with rsps := [] })

/-- Settles O38, by the spans of a write and the answer of a refusal. -/
theorem computePortsQueueIndicesAndRequests : Obligations.ComputePortsQueueIndicesAndRequests := by
  unfold Obligations.ComputePortsQueueIndicesAndRequests
  refine fun s g hn hp => ⟨fun c vals hc hv hl => ⟨fun hcr => ?_, fun hcr => ?_⟩, fun r h1 h16 => ⟨fun h hr => ?_, fun k o dest ha hb hw => ?_⟩⟩
  · refine (whenNormal_acts (f := fun s => s.aixWord g c vals) hn).trans ?_
    have hact : s.aixWord g c vals = State.wakeReady (s.setChan g c { (s.cport g).chan c with
        idx := ((s.cport g).chan c).idx ++ vals.map BitVec.toInt, words := ((s.cport g).chan c).words ++ [vals.length],
        credits := ((s.cport g).chan c).credits - 1 }) := by
      refine if_neg ?_
      have hempty : vals.isEmpty = false := by simpa using hv
      simp [hp, hempty]
      omega
    rw [hact]
  · exact whenNormal_self (f := fun s => s.aixWord g c vals) (if_pos (by simp [hcr]))
  · obtain ⟨data, e⟩ := State.refusal_sent r hr
    exact ⟨data, whenNormal_next (f := fun s => s.windowRequest g r) hn ((State.windowRequest_refused hp h1 h16 h).trans e) rfl⟩
  · have hact : s.windowRequest g r = s.windowWrite g r k o dest := by
      rw [State.windowRequest_eq hp h1 h16, ha]
      dsimp only
      rw [hb]
      exact if_pos hw
    obtain ⟨rs, n, e, hlen, hall⟩ := State.windowSpan_is g s.ids o dest k (fitTo (64 * r.len) r.data)
      ((r.enables ++ List.replicate (64 * r.len - r.enables.length) false).take (64 * r.len)) (pieces 16 o (64 * r.len))
      ((s.dropAhead g o (64 * r.len)).oweRsp g r o (pieces 16 o (64 * r.len)).length [] false)
    let rsp : CpRsp := { id := s.ids, tag := r.tag.toNat, write := r.write, base := o, len := 64 * r.len,
                         left := (pieces 16 o (64 * r.len)).length, parts := [], err := false }
    have ho := windowAddr_aligned (by omega) ha
    obtain ⟨hsum, hin⟩ := pieces_cover 16 o (64 * r.len) (fun _ => by omega)
    refine ⟨_, whenNormal_next (f := fun s => s.windowRequest g r) hn (hact.trans e) rfl, rfl, rfl, rfl, rfl, ⟨rsp, ?_, rfl, hw, rfl⟩,
      rs, rfl, fun h0 => ?_, by rw [hlen, hsum], fun q hq => ?_⟩
    · refine (congrArg CPort.rsps (State.cport_setCport_self (s := s.dropAhead g o (64 * r.len)) g _)).trans ?_
      rw [State.dropAhead, State.cport_setCport_self]
      rfl
    · rw [h0] at hlen
      exact pieces_ne_nil (by decide) (by omega) (List.map_eq_nil_iff.mp hlen.symm)
    · obtain ⟨hk, hd, hm, p, hpm, hpa, hql⟩ := hall q hq
      obtain ⟨hlo, hhi⟩ := hin p hpm
      exact ⟨hk, hd, hm, by omega, by omega⟩

end Sys2Proof.Machine
end

section
/-! PROOFS. Window banks: the bytes of a write, the cycle of a bank port (R484 to R498) and the scrub (R532). -/

namespace Sys2Proof.Machine

variable {s t : State}

/-! ### The bytes of a write -/

/-- What a write leaves at a byte: its data where it enables them, and else what was there. -/
theorem ramByte_ramWrite {ram : List Host.Cell} (h : Memory.wf ram = true) (o a : Nat) (data : Bytes) (en : List Bool) :
    ramByte (ramWrite ram o data en) a =
      if o ≤ a ∧ en[a - o]? = some true then (data[a - o]?).getD (ramByte ram a) else ramByte ram a := by
  induction data generalizing ram o en with
  | nil => simp [ramWrite]
  | cons b bs ih =>
    cases en with
    | nil => simp [ramWrite]
    | cons e es =>
      have hwf : Memory.wf (if e then ramPut ram o b else ram) = true := by
        split
        · exact Memory.wf_ramPut h o b
        · exact h
      have hput : ramByte (if e then ramPut ram o b else ram) a = if a = o ∧ e = true then b else ramByte ram a := by
        cases e
        · simp
        · simp [ramByte_ramPut h]
      rw [ramWrite, ih hwf, hput]
      by_cases ha : a = o
      · subst ha
        simp
      · have hother : (if a = o ∧ e = true then b else ramByte ram a) = ramByte ram a := if_neg (fun c => ha c.1)
        rw [hother]
        by_cases hlt : o < a
        · obtain ⟨k, rfl⟩ : ∃ k, a = o + 1 + k := ⟨a - o - 1, by omega⟩
          have h1 : o + 1 + k - (o + 1) = k := by omega
          have h2 : o + 1 + k - o = k + 1 := by omega
          have h3 : o + 1 ≤ o + 1 + k ∧ o ≤ o + 1 + k := by omega
          simp only [h1, h2, h3, true_and, List.getElem?_cons_succ]
        · rw [if_neg (fun c => by omega), if_neg (fun c => by omega)]

/-! ### An arbitration point with one request -/

/-- Turns at the queue of the only request serve it once its deficit reaches its bytes. -/
theorem drrTurns_own {quantum : Nat} (c : Cand) (q fuel : Nat) (d : Tab Nat)
    (h : c.bytes ≤ (tget d q).getD 0 + fuel * quantum) : (drrTurns quantum [(q, c)] (fuel + 1) q d).2.2 = some c := by
  induction fuel generalizing d with
  | zero =>
    unfold drrTurns
    rw [tget_cons, if_pos rfl]
    dsimp only
    rw [if_pos (by omega)]
  | succ n ih =>
    unfold drrTurns
    rw [tget_cons, if_pos rfl]
    dsimp only
    split
    · rfl
    · have hnext : ([(q, c)].find? (fun p => q < p.1)).orElse (fun _ => [(q, c)].head?) = some (q, c) := by simp
      have hpass : passed q q q = false := by simp [passed]
      rw [hnext]
      dsimp only
      refine ih _ ?_
      have hmax : quantum ≤ max c.weight 1 * quantum := Nat.le_mul_of_pos_left _ (by omega)
      rw [tget_tput_self, Option.getD_some, tget_filter d (fun j => !passed q q j), hpass]
      simp only [Bool.not_false, if_true]
      rw [Nat.succ_mul] at h
      omega

/-- The only request is served, wherever the turn stood. -/
theorem drrTurns_one {quantum : Nat} (hq : 0 < quantum) (c : Cand) (q last : Nat) (d : Tab Nat) :
    (drrTurns quantum [(q, c)] (2 + 2 + c.bytes / quantum) last d).2.2 = some c := by
  have hdiv : c.bytes ≤ (c.bytes / quantum + 2) * quantum := by
    have := Nat.div_add_mod c.bytes quantum
    have := Nat.mod_lt c.bytes hq
    rw [Nat.add_mul, Nat.mul_comm _ quantum]
    omega
  by_cases h : last = q
  · subst h
    have hfuel : 2 + 2 + c.bytes / quantum = (c.bytes / quantum + 3) + 1 := by omega
    rw [hfuel]
    refine drrTurns_own c last _ d ?_
    have hmore : (c.bytes / quantum + 2) * quantum ≤ (c.bytes / quantum + 3) * quantum := Nat.mul_le_mul_right _ (by omega)
    omega
  · have hfuel : 2 + 2 + c.bytes / quantum = (c.bytes / quantum + 2 + 1) + 1 := by omega
    rw [hfuel]
    unfold drrTurns
    rw [tget_cons, if_neg (Ne.symm h), tget_nil]
    have hnext : ([(q, c)].find? (fun p => last < p.1)).orElse (fun _ => [(q, c)].head?) = some (q, c) := by
      by_cases hlt : last < q <;> simp [hlt]
    dsimp only
    rw [hnext]
    dsimp only
    refine drrTurns_own c q _ _ ?_
    omega

/-- An arbitration point with one request picks it. -/
theorem State.arbitrate_one (s : State) (point : Nat) {quantum : Nat} (hq : 0 < quantum) (c : Cand) :
    ∃ d, s.arbitrate point quantum [c] = ({ s with drr := d }, some c) := by
  obtain ⟨d, e⟩ := s.arbitrate_is point quantum [c]
  refine ⟨d, Prod.ext e ?_⟩
  have hheads : candHeads [c] [] = [(c.queue, c)] := by simp [candHeads, tput]
  unfold State.arbitrate
  cases hc : c.lc with
  | false =>
    have hlc : candHeads ([c].filter (·.lc)) [] = [] := by simp [hc, candHeads]
    simp only [hlc, List.isEmpty_nil, if_true, hheads]
    exact drrTurns_one hq c c.queue _ _
  | true =>
    have hlc : candHeads ([c].filter (·.lc)) [] = [(c.queue, c)] := by simp [hc, hheads]
    simp only [hlc, List.isEmpty_cons, Bool.false_eq_true, if_false]
    exact drrTurns_one hq c c.queue _ _

/-! ### A cycle of a bank port -/

theorem State.bankCand_id (b : Nat) (r : MemReq) : (s.bankCand b r).id = r.id := by
  unfold State.bankCand
  grind

/-- The one access that waits at a port is the one that its cycle serves. -/
theorem State.bankCycle_one {b p : Nat} {r : MemReq} (hp : p < 2) (hr : s.bankReady b p = [r]) (hm : tget s.win.rmws (2 * b + p) = none) :
    ∃ d, ∀ ecc, s.bankCycle b p ecc =
      (((({ s with drr := d } : State).bankAccess b p r ecc).settlePair (b / 2)).settleCores.pumpReplays.pump).wakeReady := by
  obtain ⟨d, e⟩ := s.arbitrate_one (bankPoint b p) (quantum := 256) (by decide) (s.bankCand b r)
  refine ⟨d, fun ecc => ?_⟩
  have hfind : (some (s.bankCand b r)).bind (fun c => [r].find? (fun r => r.id == c.id)) = some r := by
    simp [State.bankCand_id]
  unfold State.bankCycle
  rw [hm, if_neg (by simp)]
  dsimp only
  rw [if_pos hp, hr, List.map_cons, List.map_nil, e]
  dsimp only
  rw [hfind]

theorem State.bankCycle_none {b p : Nat} (hr : s.bankReady b p = []) (hm : tget s.win.rmws (2 * b + p) = none) (ecc : Ecc) :
    s.bankCycle b p ecc = s := by
  unfold State.bankCycle
  rw [hm, if_neg (by simp)]
  dsimp only
  rw [hr, ite_self]
  obtain ⟨d, e⟩ := s.arbitrate_nil (bankPoint b p) 256
  rw [List.map_nil, e]
  rfl

theorem State.bankAccess_eq (s : State) {b : Nat} (hb : s.hasBank b = true) (p : Nat) (r : MemReq) (ecc : Ecc) : s.bankAccess b p r ecc =
    if (!s.regionOk r.master (s.checkSpan r).1 (s.checkSpan r).2 r.kind) = true then
      (s.regionRefuse r.master (r.pa - windowBase) r.kind).lostAccess r 5
    else match (s.pair (b / 2)).state with
      | .on => if s.portHeld b p r then (s.bump Reg.wbConflicts 31 0).busyPin r else (s.keepRmw b p r).bankServe b r ecc
      | .retention => (s.wakePair (b / 2)).busyPin r
      | .waking => s.busyPin r
      | .off => s.busyPin r := by
  unfold State.bankAccess
  exact if_neg (by simp [hb])

theorem State.bankServe_clean {b : Nat} {r : MemReq} (hi : bit (s.reg Reg.tpInj) 63 = false) (hbad : s.win.bad = []) : s.bankServe b r .clean =
    if r.kind = .read then s.bankRead r (ramRead s.win.ram (r.pa - windowBase) r.len) false
    else ((s.bankWrite (r.pa - windowBase) r (r.bankBytes (ramRead s.win.ram (r.pa - windowBase) r.len)).1 r.enables).addReplaced r
      (r.bankBytes (ramRead s.win.ram (r.pa - windowBase) r.len)).2).writeDone r := by
  have hecc : s.bankEcc b r (r.pa - windowBase) .clean = s := by
    unfold State.bankEcc
    rw [State.inject_disarmed hi]
    rfl
  unfold State.bankServe
  dsimp only
  rw [hecc, if_neg (by simp [State.stops, hbad])]

theorem State.keepRmw_plain {b p : Nat} {r : MemReq} (h : r.kind = .read ∨ r.kind = .write) : s.keepRmw b p r = s :=
  if_neg (by rcases h with h | h <;> simp [MemReq.isRmw, h])

theorem State.keepRmw_rmw {b p : Nat} {r : MemReq} (h : r.isRmw = true) : s.keepRmw b p r =
    { s with win := { s.win with rmws := tput s.win.rmws (2 * b + p) (r.pa, r.len) } } := if_pos h

theorem State.bankWrite_clean (h : s.win.bad = []) (o : Nat) (r : MemReq) (new : Bytes) (en : List Bool) :
    s.bankWrite o r new en = { s with win := { s.win with ram := ramWrite s.win.ram o new en } } := by
  have hf : s.win.bad.filter (fun a => !r.coversWord o a) = s.win.bad := by rw [h]; rfl
  unfold State.bankWrite
  rw [hf]

theorem MemReq.bankBytes_write {r : MemReq} (h : r.kind = .write) (old : Bytes) : r.bankBytes old = (r.data, 0) := by
  rw [MemReq.bankBytes, h]

theorem MemReq.bankBytes_rmw {r : MemReq} (h : r.kind = .rmw) (old : Bytes) : r.bankBytes old = r.sumOf old := by
  rw [MemReq.bankBytes, h]

theorem MemReq.bankBytes_alias {r : MemReq} (h : r.kind = .aliasSet ∨ r.kind = .aliasClear) (old : Bytes) :
    r.bankBytes old = (List.zipWith (aliasByte r.kind) old r.data, 0) := by
  unfold MemReq.bankBytes
  rcases h with h | h <;> rw [h]

section
variable {b p : Nat} {r : MemReq} {ecc : Ecc}

theorem State.bankAccess_refused (hb : s.hasBank b = true) (hok : s.regionOk r.master (s.checkSpan r).1 (s.checkSpan r).2 r.kind = false) :
    s.bankAccess b p r ecc = (s.regionRefuse r.master (r.pa - windowBase) r.kind).lostAccess r 5 := by
  rw [State.bankAccess_eq s hb, if_pos (by simp [hok])]

theorem State.bankAccess_retention (hb : s.hasBank b = true) (hok : s.regionOk r.master (s.checkSpan r).1 (s.checkSpan r).2 r.kind = true)
    (hst : (s.pair (b / 2)).state = .retention) : s.bankAccess b p r ecc = (s.wakePair (b / 2)).busyPin r := by
  rw [State.bankAccess_eq s hb, if_neg (by simp [hok]), hst]

theorem State.bankAccess_held (hb : s.hasBank b = true) (hok : s.regionOk r.master (s.checkSpan r).1 (s.checkSpan r).2 r.kind = true)
    (hst : (s.pair (b / 2)).state = .on) (hh : s.portHeld b p r = true) :
    s.bankAccess b p r ecc = (s.bump Reg.wbConflicts 31 0).busyPin r := by
  rw [State.bankAccess_eq s hb, if_neg (by simp [hok]), hst]
  exact if_pos hh

theorem State.bankAccess_served (hb : s.hasBank b = true) (hok : s.regionOk r.master (s.checkSpan r).1 (s.checkSpan r).2 r.kind = true)
    (hst : (s.pair (b / 2)).state = .on) (hh : s.portHeld b p r = false) :
    s.bankAccess b p r ecc = (s.keepRmw b p r).bankServe b r ecc := by
  rw [State.bankAccess_eq s hb, if_neg (by simp [hok]), hst]
  exact if_neg (by simp [hh])

/-! An access without an error takes effect, by its kind (R491). -/

section
variable (hi : bit (s.reg Reg.tpInj) 63 = false) (hbad : s.win.bad = [])
include hi hbad

theorem State.serve_read (hk : r.kind = .read) : (s.keepRmw b p r).bankServe b r .clean =
    s.bankRead r (ramRead s.win.ram (r.pa - windowBase) r.len) false := by
  rw [State.keepRmw_plain (.inl hk), State.bankServe_clean hi hbad, if_pos hk]

theorem State.serve_write (hk : r.kind = .write) : (s.keepRmw b p r).bankServe b r .clean =
    (({ s with win := { s.win with ram := ramWrite s.win.ram (r.pa - windowBase) r.data r.enables } } : State).addReplaced r 0).writeDone r := by
  rw [State.keepRmw_plain (.inr hk), State.bankServe_clean hi hbad, if_neg (by simp [hk]), State.bankWrite_clean hbad, MemReq.bankBytes_write hk]

/-- What an access that reads and writes leaves in the window: its new bytes, and its span for the second cycle of its port. -/
theorem State.serve_step (hk : r.isRmw = true) : (s.keepRmw b p r).bankServe b r .clean =
    (({ s with win := { s.win with
        ram := ramWrite s.win.ram (r.pa - windowBase) (r.bankBytes (ramRead s.win.ram (r.pa - windowBase) r.len)).1 r.enables,
        rmws := tput s.win.rmws (2 * b + p) (r.pa, r.len) } } : State).addReplaced r
      (r.bankBytes (ramRead s.win.ram (r.pa - windowBase) r.len)).2).writeDone r := by
  have hr : r.kind ≠ .read := fun h => by simp [MemReq.isRmw, h] at hk
  have hserve := State.bankServe_clean (s := { s with win := { s.win with rmws := tput s.win.rmws (2 * b + p) (r.pa, r.len) } }) (b := b) (r := r) hi hbad
  rw [State.keepRmw_rmw hk, hserve, if_neg hr,
    State.bankWrite_clean (s := { s with win := { s.win with rmws := tput s.win.rmws (2 * b + p) (r.pa, r.len) } }) hbad]

theorem State.serve_alias (hk : r.kind = .aliasSet ∨ r.kind = .aliasClear) : (s.keepRmw b p r).bankServe b r .clean =
    (({ s with win := { s.win with
        ram := ramWrite s.win.ram (r.pa - windowBase) (List.zipWith (aliasByte r.kind) (ramRead s.win.ram (r.pa - windowBase) r.len) r.data) r.enables,
        rmws := tput s.win.rmws (2 * b + p) (r.pa, r.len) } } : State).addReplaced r 0).writeDone r := by
  rw [State.serve_step hi hbad (by rcases hk with h | h <;> simp [MemReq.isRmw, h]), MemReq.bankBytes_alias hk]

theorem State.serve_rmw (hk : r.kind = .rmw) : (s.keepRmw b p r).bankServe b r .clean =
    (({ s with win := { s.win with
        ram := ramWrite s.win.ram (r.pa - windowBase) (r.sumOf (ramRead s.win.ram (r.pa - windowBase) r.len)).1 r.enables,
        rmws := tput s.win.rmws (2 * b + p) (r.pa, r.len) } } : State).addReplaced r
      (r.sumOf (ramRead s.win.ram (r.pa - windowBase) r.len)).2).writeDone r := by
  rw [State.serve_step hi hbad (by simp [MemReq.isRmw, hk]), MemReq.bankBytes_rmw hk]

end
end

/-- The scrub of a bank one granule further. -/
def State.scrubbed (s : State) (b : Nat) : State :=
  { s with win := { s.win with scrub := tput s.win.scrub b (((tget s.win.scrub b).getD 0 + 1) % (s.bankBytes / 64)) } }

theorem State.scrubStep_eq {b : Nat} (hb : s.hasBank b = true) (hq : s.reqs.any (fun r => r.waitsAt b && s.bankPortOf b r.master != 0) = false)
    (hst : (s.pair (b / 2)).state = .on) (ecc : Ecc) : s.scrubStep b ecc =
    (let x := (s.scrubbed b).inject 1 b none
     let o := 0x200000 * b + 64 * (tget s.win.scrub b).getD 0
     let u := if ecc = .uncorrectable ∨ x.2 = .uncorrectable then x.1.damage o 64 else x.1
     let u := if ecc = .corrected ∨ x.2 = .corrected then u.countEcc 1 b false else u
     if u.spanBad o 64 then (u.evWb 1).countEcc 1 b true else u) := by
  unfold State.scrubStep
  dsimp only
  rw [hb, hq, hst, if_neg (by decide)]
  rfl

/-- Settles O36: the bytes of a write, the one access of a port case by case, and a scrub step. -/
theorem bankAccessesReadAndWriteTheWindow : Obligations.BankAccessesReadAndWriteTheWindow := by
  unfold Obligations.BankAccessesReadAndWriteTheWindow
  refine ⟨fun ram o data en hwf => ⟨Memory.wf_ramWrite hwf o data en, fun i hi he => ?_, fun a ha => ?_⟩,
    fun s b p ecc hn hp => ⟨fun hm => ?_, fun hr hm => ?_, fun r hr hm hb => ?_, fun hb hq hst hi hbad => ?_, fun h => ?_⟩⟩
  · rw [ramByte_ramWrite hwf, if_pos ⟨Nat.le_add_right .., by rwa [Nat.add_sub_cancel_left]⟩, Nat.add_sub_cancel_left,
      List.getElem?_eq_getElem hi]
    rfl
  · rw [ramByte_ramWrite hwf]
    split
    next h =>
      obtain h' | h' | h' := ha
      · omega
      · rw [List.getElem?_eq_none (by omega)]
        rfl
      · exact absurd h.2 h'
    next => rfl
  · refine (whenServing_acts (f := fun s => s.bankCycle b p ecc) (serving_of_normal hn)).trans ?_
    have hact : s.bankCycle b p ecc = { s with win := { s.win with rmws := tdel s.win.rmws (2 * b + p) } } := if_pos (by simp [hm, hp])
    rw [hact]
  · refine (whenServing_acts (f := fun s => s.bankCycle b p ecc) (serving_of_normal hn)).trans ?_
    rw [State.bankCycle_none hr hm]
  · obtain ⟨d, hd⟩ := State.bankCycle_one hp hr hm
    have hexec : ∀ (e : Ecc) (u : State), ({ s with drr := d } : State).bankAccess b p r e = u →
        exec (.bankPortCycle b p e) s = .next { State.wakeReady (State.pump (State.pumpReplays
          (State.settleCores (State.settlePair u (b / 2))))) with pending := s.pending } := fun e u h => by
      refine (whenServing_acts (f := fun s => s.bankCycle b p e) (serving_of_normal hn)).trans ?_
      rw [hd, h]
    refine ⟨d, fun hok => hexec _ _ (State.bankAccess_refused hb hok), fun hok hst => hexec _ _ (State.bankAccess_retention hb hok hst),
      fun hok hst hh => hexec _ _ (State.bankAccess_held hb hok hst hh), fun hok hst hh hi hbad => ?_⟩
    have hserve : ∀ u, (({ s with drr := d } : State).keepRmw b p r).bankServe b r .clean = u →
        ({ s with drr := d } : State).bankAccess b p r .clean = u := fun _ =>
      (State.bankAccess_served (s := { s with drr := d }) hb hok hst hh).trans
    exact ⟨fun hk => hexec _ _ (hserve _ (State.serve_read hi hbad hk)), fun hk => hexec _ _ (hserve _ (State.serve_write hi hbad hk)),
      fun hk => hexec _ _ (hserve _ (State.serve_alias hi hbad hk)), fun hk => hexec _ _ (hserve _ (State.serve_rmw hi hbad hk))⟩
  · refine whenNormal_next (f := fun s => s.scrubStep b .clean) hn ?_ rfl
    have hsum := State.scrubStep_eq (s := s) hb hq hst .clean
    rw [State.inject_disarmed (s := s.scrubbed b) hi] at hsum
    exact hsum.trans (if_neg (by simp [State.spanBad, State.scrubbed, hbad]))
  · refine whenNormal_self (f := fun s => s.scrubStep b ecc) (if_pos ?_)
    rcases h with h | h <;> simp [h]

end Sys2Proof.Machine
end

section
/-! PROOFS. The registers of the admin queue (R331) and the doorbells (R317). -/

namespace Sys2Proof.Machine

variable {s t : State}

/-! ### Lookups of a queue -/

theorem State.queue_onQueue_ne {q r : Nat} (h : r ≠ q) (f : Queue → Queue) : (s.onQueue q f).queue r = s.queue r := by
  unfold State.queue State.onQueue tmod
  dsimp only
  split
  · rfl
  · rw [tget_tput_ne h]

theorem State.queue_setQueue_ne {q r : Nat} (h : r ≠ q) (x : Queue) : (s.setQueue q x).queue r = s.queue r := by
  unfold State.queue State.setQueue
  rw [tget_tput_ne h]

theorem State.mem_wantFetch (s : State) (q : Nat) : q ∈ (s.wantFetch q).fetchOrder := by
  unfold State.wantFetch
  split
  next h => exact List.contains_iff_mem.mp h
  next => exact List.mem_append_right _ List.mem_cons_self

/-! ### The registers of queue 0 -/

/-- QM_ADMIN_RING: base and size of the ring, RW. -/
def adminRingRow : RegRow := ⟨0x30000, 1, 0x8, 0xF0FFFFFFFFF80, 0x0, 0x0, 0x0, 0x4000000000000⟩

theorem regRow_adminRing : regRow Reg.qmAdminRing = some adminRingRow := by decide +kernel

/-- A field that a write covers, RW in all its bits, takes its value. -/
theorem fld_plainWrite {r : RegRow} {old m v : Word} {hi lo : Nat} (hh : hi < 64)
    (h : ∀ i, i < 64 → lo ≤ i → i ≤ hi → bit (r.rw &&& m) i = true ∧ bit r.w1c i = false) : fld (plainWrite r old m v) hi lo = fld v hi lo := by
  apply Nat.eq_of_testBit_eq
  intro j
  rw [fld_testBit, fld_testBit]
  by_cases hj : j < hi + 1 - lo
  · obtain ⟨hrw, hw1⟩ := h (lo + j) (by omega) (by omega) (by omega)
    rw [plainWrite, bit_and, bit_not _ (by omega), bit_and, bit_merge (by omega), hrw, hw1]
    simp
  · simp [hj]

theorem State.adminRing_eq {p : Port} (hp : fromCompute p = false) (ho : s.adminOpen = true) (hs : tsorted s.regs = true) {v : Word}
    (h4 : 4 ≤ fld v 51 48) (h12 : fld v 51 48 ≤ 12) : s.adminRing p .whole v =
    s.setReg Reg.qmAdminRing (plainWrite adminRingRow (s.reg Reg.qmAdminRing) (partMask .whole) v) := by
  have habs : s.absentReg Reg.qmAdminRing = false := by simp [State.absentReg, Reg.qmAdminRing]
  have hw : s.writeFields p Reg.qmAdminRing .whole v =
      s.setReg Reg.qmAdminRing (plainWrite adminRingRow (s.reg Reg.qmAdminRing) (partMask .whole) v) := by
    rw [State.writeFields_eq (by decide) regRow_adminRing habs (s.keyOf_of_not_selected p (by decide)), State.writeStaged, if_pos (by decide),
      State.writePlain_eq]
    rfl
  have hlog : (s.writeFields p Reg.qmAdminRing .whole v).regFld Reg.qmAdminRing 51 48 = fld v 51 48 := by
    rw [hw, State.regFld, State.reg_setReg hs, if_pos rfl, fld_plainWrite (by decide) (by decide)]
  unfold State.adminRing
  rw [if_neg (by simp [hp, ho])]
  dsimp only
  rw [hlog, if_pos ⟨h4, h12⟩, hw]

/-- The queue 0 that ENABLE makes of the one at hand (R331). -/
def State.queueZero (s : State) : Queue :=
  let x := { s.queue 0 with
    state := .enabled, lastRead := false, idxAgain := true, log2 := s.regFld Reg.qmAdminRing 51 48,
    ring := s.regFld Reg.qmAdminRing 43 7 * 128, idx := s.regFld Reg.qmAdminIdx 43 6 * 64 }
  let i := s.regFld Reg.qmAdminIdx 63 44
  if s.admin.fresh then { x with pr := i, cons := i, next := i, spec := i, consWritten := i } else x

theorem State.adminEnable_eq {p : Port} (hp : fromCompute p = false) (h : (s.queue 0).state ≠ .enabled ∨ (s.queue 0).lastRead = true) :
    s.adminEnable p = (({ s.setQueue 0 s.queueZero with admin := { s.admin with fresh := false } } : State).wantFetch 0).pump := by
  unfold State.adminEnable
  refine (if_neg ?_).trans rfl
  rcases h with h | h <;> simp [hp, h]

theorem State.queueZero_is (s : State) : s.queueZero.state = .enabled ∧ s.queueZero.lastRead = false ∧ s.queueZero.idxAgain = true ∧
    s.queueZero.log2 = s.regFld Reg.qmAdminRing 51 48 ∧ s.queueZero.ring = s.regFld Reg.qmAdminRing 43 7 * 128 ∧
    s.queueZero.idx = s.regFld Reg.qmAdminIdx 43 6 * 64 ∧
    (s.admin.fresh = true → s.queueZero.pr = s.regFld Reg.qmAdminIdx 63 44 ∧ s.queueZero.cons = s.queueZero.pr ∧ s.queueZero.next = s.queueZero.pr) ∧
    (s.admin.fresh = false → s.queueZero.pr = (s.queue 0).pr ∧ s.queueZero.cons = (s.queue 0).cons ∧ s.queueZero.next = (s.queue 0).next) := by
  unfold State.queueZero
  dsimp only
  cases s.admin.fresh with
  | false => exact ⟨rfl, rfl, rfl, rfl, rfl, rfl, fun h => absurd h (by decide), fun _ => ⟨rfl, rfl, rfl⟩⟩
  | true => exact ⟨rfl, rfl, rfl, rfl, rfl, rfl, fun _ => ⟨rfl, rfl, rfl⟩, fun h => absurd h (by decide)⟩

/-! ### Doorbells -/

theorem exec_doorbell_acts {p : Port} {q : Nat} (hp : p ≠ .debug) (hi : s.issuing = true) :
    exec (.doorbell p q) s = .next { (s.doorbell q).pump with pending := s.pending } := by
  have hw : exec (.doorbell p q) s = whenNormal (fun s => if s.issuing then (s.doorbell q).pump else if s.rst.abort then s else s.doorbell q) s := by
    cases p with
    | debug => exact absurd rfl hp
    | _ => rfl
  rw [hw, whenNormal_acts (normal_of_issuing hi), if_pos hi]

/-- A doorbell of an ENABLED queue counts, ends IDLE and asks for the index block. -/
theorem State.doorbell_enabled {q : Nat} {x : Queue} (hq : q < s.nQueues) (hx : tget s.queues q = some x) (he : x.state = .enabled)
    (hl : q = 0 → x.lastRead = false) : s.doorbell q =
    ((s.bump (rkey Reg.qmQcnt q) 31 16).onQueue q (fun x => { x with idxAgain := true, idle := false })).wantFetch q := by
  have hany : s.queues.any (fun p => p.1 == q) = true := 
    List.any_eq_true.mpr ⟨(q, x), mem_of_tget hx, by simp⟩
  unfold State.doorbell
  rw [if_neg (Nat.not_le.mpr hq), State.queue_of_tget hx, he]
  dsimp only
  have hlast : ¬(q = 0 ∧ (s.queue 0).lastRead = true) := fun c => by
    obtain ⟨rfl, h⟩ := c
    rw [State.queue_of_tget hx, hl rfl] at h
    cases h
  rw [if_neg hlast, if_pos (.inr hany)]

/-- Settles O40, register by register and doorbell by doorbell. -/
theorem queueZeroRegistersAndDoorbells : Obligations.QueueZeroRegistersAndDoorbells := by
  unfold Obligations.QueueZeroRegistersAndDoorbells
  refine ⟨fun s p hn hp => ⟨fun part v ho => ?_, fun v ho hs h4 h12 => ?_, fun he hl => ?_, fun h => ?_, fun he hl => ?_, fun h => ?_⟩,
    fun s q hi hts => ⟨fun p x hp hq hx he hl => ?_, fun p hp h => ?_, fun p hp he hl hq => ?_, rfl⟩⟩
  · exact whenNormal_self (f := fun s => s.adminRing p part v) (if_pos (by simp [ho]))
  · refine ⟨_, whenNormal_next (f := fun s => s.adminRing p .whole v) hn (State.adminRing_eq hp ho hs h4 h12) rfl, rfl, ?_, ?_, fun k hk => State.reg_setReg_ne _ _ hk⟩
    · rw [State.reg_setReg hs, if_pos rfl, fld_plainWrite (by decide) (by decide)]
    · rw [State.reg_setReg hs, if_pos rfl, fld_plainWrite (by decide) (by decide)]
  · exact whenNormal_self (f := fun s => s.adminEnable p) (if_pos (by simp [he, hl]))
  · obtain ⟨l, hl⟩ := ({ s.setQueue 0 s.queueZero with admin := { s.admin with fresh := false } } : State).wantFetch_is 0
    refine ⟨({ s.setQueue 0 s.queueZero with admin := { s.admin with fresh := false } } : State).wantFetch 0, s.queueZero,
      (whenNormal_acts (f := fun s => s.adminEnable p) hn).trans (by rw [State.adminEnable_eq hp h]), by rw [hl]; rfl,
      State.mem_wantFetch .., s.queueZero_is⟩
  · obtain ⟨l, e⟩ := (s.setQueue 0 { s.queue 0 with lastRead := true, idxAgain := true }).wantFetch_is 0
    refine ⟨(s.setQueue 0 { s.queue 0 with lastRead := true, idxAgain := true }).wantFetch 0,
      (whenNormal_acts (f := fun s => s.adminDisable p) hn).trans ?_, by rw [e]; rfl⟩
    have hact : s.adminDisable p = ((s.setQueue 0 { s.queue 0 with lastRead := true, idxAgain := true }).wantFetch 0).pump :=
      if_neg (by simp [hp, he, hl])
    rw [hact]
  · exact whenNormal_self (f := fun s => s.adminDisable p) (if_pos (by simp [h]))
  · let u := (s.bump (rkey Reg.qmQcnt q) 31 16).onQueue q (fun x => { x with idxAgain := true, idle := false })
    obtain ⟨l, e⟩ := u.wantFetch_is q
    refine ⟨u.wantFetch q, by rw [exec_doorbell_acts hp hi, State.doorbell_enabled hq hx he hl], ?_, State.mem_wantFetch .., by rw [e]; rfl,
      by rw [e]; rfl, by rw [e]; rfl, fun q' hne => ?_⟩
    · rw [e]
      exact State.onQueue_queue_self (s := s.bump (rkey Reg.qmQcnt q) 31 16) hx _
    · rw [e]
      exact State.queue_onQueue_ne (s := s.bump (rkey Reg.qmQcnt q) 31 16) hne _
  · have hact : s.doorbell q = s.evQm 1 := by
      unfold State.doorbell
      by_cases hq : s.nQueues ≤ q
      · rw [if_pos hq]
      · rw [if_neg hq, h.resolve_left hq]
    rw [exec_doorbell_acts hp hi, hact]
  · have hact : s.doorbell 0 = (s.evQm 1).bump (rkey Reg.qmQcnt 0) 15 0 := by
      unfold State.doorbell
      rw [if_neg (by omega), he]
      exact if_pos ⟨rfl, hl⟩
    rw [exec_doorbell_acts hp hi, hact]

end Sys2Proof.Machine
end

section
/-! PROOFS. Lens staging (R196, R202) and lift slots (R255, R256). -/

namespace Sys2Proof.Machine

variable {s t u : State}

/-! ### Lens staging -/

/-- Where the request fits nothing is given up for it. -/
theorem State.makeRoom_fits {g need : Nat} (h : need ≤ s.lensKib - s.stagedKib g) (l : List Desc) : State.makeRoom g need l s = s := by
  cases l with
  | nil => rfl
  | cons e l => exact if_pos h

/-- What a stream has given up, and that nothing but descriptors and registers is touched for it (R202). -/
def State.StagingGone (s : State) (h : Desc) (u : State) : Prop :=
  ∃ h', u.desc h.id = some h' ∧ h'.staged = false ∧ h'.holdLeft = false ∧ h'.pos = h.pos ∧
    u.reqs = s.reqs ∧ u.win = s.win ∧ u.queues = s.queues ∧ u.sync = s.sync

/-- Another stream that drops its staging, or the same once more, leaves it given up. -/
theorem State.StagingGone.drop {h e : Desc} {g : Nat} (hg : s.StagingGone h u) :
    s.StagingGone h ((u.onDesc e.id Desc.dropStaging).bump (Reg.lnCnt g) 47 32) := by
  obtain ⟨h', hd, hst, hl, hp, hframe⟩ := hg
  by_cases he : h.id = e.id
  · refine ⟨h'.dropStaging, ?_, rfl, rfl, hp, hframe⟩
    rw [he] at hd ⊢
    exact State.desc_onDesc_self (f := Desc.dropStaging) hd rfl
  · refine ⟨h', ?_, hst, hl, hp, hframe⟩
    exact (State.desc_onDesc_ne (f := Desc.dropStaging) he fun _ hx => hx).trans hd

theorem State.StagingGone.makeRoom {h : Desc} {g need : Nat} {l : List Desc} (hg : s.StagingGone h u) :
    s.StagingGone h (State.makeRoom g need l u) := by
  induction l generalizing u with
  | nil => exact hg
  | cons e l ih =>
    rw [State.makeRoom]
    split
    · exact hg
    · exact ih hg.drop

/-- The grant to another stream leaves it given up. -/
theorem State.StagingGone.onDesc {h : Desc} {did : Nat} {f : Desc → Desc} (hg : s.StagingGone h u) (hne : h.id ≠ did)
    (hf : ∀ e, (f e).id = e.id) : s.StagingGone h (u.onDesc did f) := by
  obtain ⟨h', hd, hrest⟩ := hg
  exact ⟨h', (State.desc_onDesc_ne hne fun e he => (hf e).trans he).trans hd, hrest⟩

/-- The earliest halted stream gives its staging up first. -/
theorem State.stagingGone_first {h : Desc} {g need : Nat} {rest : List Desc} (hh : s.desc h.id = some h)
    (hroom : s.lensKib - s.stagedKib g < need) : s.StagingGone h (State.makeRoom g need (h :: rest) s) := by
  rw [State.makeRoom, if_neg (by omega)]
  apply State.StagingGone.makeRoom
  exact ⟨h.dropStaging, State.desc_onDesc_self (f := Desc.dropStaging) hh rfl, rfl, rfl, rfl, rfl, rfl, rfl, rfl⟩

theorem exec_lensStagingGrant_acts (hi : s.issuing = true) {g : Nat} (hg : s.hasGroup g = true) :
    exec (.lensStagingGrant g) s = .next { State.wakeReady (s.lensGrant g) with pending := s.pending } := by
  refine (whenIssuing_acts (f := fun s => if s.hasGroup g then (s.lensGrant g).wakeReady else s) hi).trans ?_
  rw [hg]
  rfl

theorem State.lensGrant_of {g : Nat} {d : Desc} (ho : oldest ((s.inGroup g).filter (·.stagingWait)) = some d)
    (hm : State.makeRoom g d.stagingKib (s.holders g) s = t) :
    s.lensGrant g = if d.stagingKib ≤ t.lensKib - t.stagedKib g then
      t.onDesc d.id (fun d => { d with stagingWait := false, staged := true }) else t := by
  subst hm
  unfold State.lensGrant
  rw [ho]

theorem exec_lensHoldExpiry_acts {did : Nat} {d : Desc} (hn : s.normal = true) (hd : s.desc did = some d) :
    exec (.lensHoldExpiry did) s =
      .next (if d.holdLeft && (d.phase == .saving || d.isHalted) then s.setDesc d.dropStaging else s) := by
  refine whenNormal_next (f := fun s => match s.desc did with
    | some d => if d.holdLeft && (d.phase == .saving || d.isHalted) then s.setDesc d.dropStaging else s
    | none => s) hn ?_ ?_
  · rw [hd]
  · split <;> rfl

/-! ### Lift slots -/

theorem State.liftGrant_of {n : Nat} {d : Desc} (hd : s.liftNext n = some d) :
    s.liftGrant n = if s.liftCan n d && (d.geo.liftUnit != 0xFF || !(List.range n).any (fun v => s.liftCan v d)) then
      s.setDesc { d with liftSlot := some n, liftWait := false } else s := by
  unfold State.liftGrant
  rw [hd]

theorem exec_liftSlotGrant_acts (hi : s.issuing = true) (n : Nat) :
    exec (.liftSlotGrant n) s = .next { State.wakeReady (s.liftGrant n) with pending := s.pending } :=
  whenIssuing_acts (f := fun s => (s.liftGrant n).wakeReady) hi

/-- Settles O51: what fits is granted at once, and each stream that gives its staging up for another keeps its position. -/
theorem stagingAndLiftSlotsAreGrantedInTurn : Obligations.StagingAndLiftSlotsAreGrantedInTurn := by
  unfold Obligations.StagingAndLiftSlotsAreGrantedInTurn
  refine ⟨fun s g d hi hg ho => ⟨fun hfit => ?_, fun hroom hh => ?_, fun h rest hroom hh hd hne => ?_⟩,
    fun s did d hn hd => ⟨fun hl hp => ?_, fun hl => ?_⟩, fun s n d hi hd => ⟨fun hc hu => ?_, fun hc => ?_⟩⟩
  · rw [exec_lensStagingGrant_acts hi hg, State.lensGrant_of ho (State.makeRoom_fits hfit _), if_pos hfit]
  · have hm : State.makeRoom g d.stagingKib (s.holders g) s = s := by rw [hh]; rfl
    rw [exec_lensStagingGrant_acts hi hg, State.lensGrant_of ho hm, if_neg (by omega)]
  · have hgone : s.StagingGone h (s.lensGrant g) := by
      have hroom := State.stagingGone_first (rest := rest) hd hroom
      rw [← hh] at hroom
      rw [State.lensGrant_of ho rfl]
      split
      · exact hroom.onDesc hne fun _ => rfl
      · exact hroom
    obtain ⟨h', hd', hst, hl, hp, hreqs, hwin, hq, hsync⟩ := hgone
    exact ⟨_, h', exec_lensStagingGrant_acts hi hg, hd', hst, hl, hp, hreqs, hwin, hq, hsync⟩
  · have hph : (d.phase == .saving || d.isHalted) = true := by simpa using hp
    rw [exec_lensHoldExpiry_acts hn hd, hl, hph]
    rfl
  · rw [exec_lensHoldExpiry_acts hn hd, hl]
    rfl
  · have hany : (d.geo.liftUnit != 0xFF || !(List.range n).any (fun v => s.liftCan v d)) = true := by
      simpa [imp_iff_not_or] using hu
    rw [exec_liftSlotGrant_acts hi, State.liftGrant_of hd, hc, hany]
    rfl
  · have hcan : (s.liftCan n d && (d.geo.liftUnit != 0xFF || !(List.range n).any (fun v => s.liftCan v d))) = false := by
      rcases hc with hc | ⟨hff, v, hv, hcv⟩
      · simp [hc]
      · have hany : (List.range n).any (fun v => s.liftCan v d) = true := List.any_eq_true.mpr ⟨v, List.mem_range.mpr hv, hcv⟩
        simp [hff, hany]
    rw [exec_liftSlotGrant_acts hi, State.liftGrant_of hd, hcan]
    rfl

end Sys2Proof.Machine
end

section
/-! PROOFS. The cycle of a lift unit (R250, R254, R257). -/

namespace Sys2Proof.Machine

variable {s t : State} {n last : Nat} {d : Desc} {ds : List Desc}

/-! ### Whose turn it is -/

theorem mem_of_nextTurn (h : nextTurn last ds = some d) : d ∈ ds := by
  unfold nextTurn at h
  cases hf : ds.find? (fun d => last < d.id) with
  | some e =>
    rw [hf] at h
    obtain rfl := Option.some.inj h
    exact List.mem_of_find?_eq_some hf
  | none =>
    rw [hf] at h
    exact List.mem_of_mem_head? h

theorem nextTurn_eq_none : nextTurn last ds = none ↔ ds = [] := by
  cases ds with
  | nil => simp [nextTurn]
  | cons e l =>
    refine iff_of_false ?_ (List.cons_ne_nil e l)
    unfold nextTurn
    cases List.find? (fun d => decide (last < d.id)) (e :: l) <;> simp

/-- The streams of a lift unit that are ready. -/
def State.liftAble (s : State) (n : Nat) : List Desc := (s.onLift n).filter s.liftReady

theorem State.mem_liftAble : d ∈ s.liftAble n ↔ d ∈ s.onLift n ∧ s.liftReady d = true := List.mem_filter

/-- The arbitration record that a lift unit starts from. -/
def State.liftDrr (s : State) (n : Nat) : Drr :=
  (tget s.drr (liftPoint n)).getD { lcLast := 0, bulkLast := 0, lcDeficit := [], bulkDeficit := [] }

/-- A unit takes its next latency-critical stream, else its next stream of any class. -/
theorem State.liftTurn_snd (s : State) (n : Nat) :
    (s.liftTurn n).2 = (nextTurn (s.liftDrr n).lcLast ((s.liftAble n).filter (fun d => s.isLc d.queue))).or
      (nextTurn (s.liftDrr n).bulkLast (s.liftAble n)) := by
  unfold State.liftTurn State.liftDrr State.liftAble
  dsimp only
  split
  · next h => rw [h]; rfl
  · next h => rw [h]; split <;> next h2 => rw [h2]; rfl

/-- A turn moves the arbitration record alone. -/
theorem State.liftTurn_fst (s : State) (n : Nat) : ∃ a, (s.liftTurn n).1 = { s with drr := a } := by
  unfold State.liftTurn
  dsimp only
  split
  · exact ⟨_, rfl⟩
  · split
    · exact ⟨_, rfl⟩
    · exact ⟨s.drr, rfl⟩

theorem State.liftTurn_idle (h : s.liftAble n = []) : s.liftTurn n = (s, none) := by
  unfold State.liftAble at h
  unfold State.liftTurn
  rw [h]
  rfl

/-- The stream that is taken is ready, and latency-critical where one of those is. -/
theorem State.liftTurn_ready (h : (s.liftTurn n).2 = some d) : d ∈ s.liftAble n ∧
    ((∃ e ∈ s.liftAble n, s.isLc e.queue = true) → s.isLc d.queue = true) := by
  rw [State.liftTurn_snd] at h
  cases hlc : nextTurn (s.liftDrr n).lcLast ((s.liftAble n).filter (fun d => s.isLc d.queue)) with
  | some e =>
    rw [hlc] at h
    obtain rfl := Option.some.inj h
    obtain ⟨hmem, hl⟩ := List.mem_filter.mp (mem_of_nextTurn hlc)
    exact ⟨hmem, fun _ => hl⟩
  | none =>
    rw [hlc] at h
    refine ⟨mem_of_nextTurn h, fun ⟨e, he, hl⟩ => ?_⟩
    exact absurd hl (List.filter_eq_nil_iff.mp (nextTurn_eq_none.mp hlc) e he)

theorem State.liftTurn_some (h : s.liftAble n ≠ []) : ∃ d, (s.liftTurn n).2 = some d := by
  rw [State.liftTurn_snd]
  cases hb : nextTurn (s.liftDrr n).bulkLast (s.liftAble n) with
  | none => exact absurd (nextTurn_eq_none.mp hb) h
  | some e => exact Option.isSome_iff_exists.mp (by simp)

/-! ### What the unit does for it -/

theorem exec_liftUnitCycle_acts (hi : s.issuing = true) (hl : s.hasLift n = true) :
    exec (.liftUnitCycle n) s = .next { State.wakeReady (s.liftCycle n) with pending := s.pending } := by
  refine (whenIssuing_acts (f := fun s => if s.hasLift n then (s.liftCycle n).wakeReady else s) hi).trans ?_
  rw [hl]
  rfl

theorem State.liftCycle_idle (h : s.liftAble n = []) : s.liftCycle n = s := by
  unfold State.liftCycle
  rw [State.liftTurn_idle h]

theorem State.liftCycle_refused {j v : Nat} (h : s.liftTurn n = (t, some d)) (hf : d.sideFault d.liftPos = some (j, v)) :
    s.liftCycle n = t.setDesc (endWith d 0x14 (rangeWord j v)) := by
  unfold State.liftCycle
  rw [h]
  dsimp only
  rw [hf]

theorem State.liftCycle_produces (h : s.liftTurn n = (t, some d)) (hf : d.sideFault d.liftPos = none)
    (ht : bit (t.reg Reg.tpInj) 63 = false) :
    s.liftCycle n = if d.geo.liftToPort then State.liftPort d.id 8 t
      else t.onDesc d.id (fun d => { d with liftPos := d.geo.headFrom (d.liftPos + 1) }) := by
  unfold State.liftCycle
  rw [h]
  dsimp only
  rw [hf, State.inject_disarmed ht]

/-- Settles O53: the turn is taken among the ready streams, and decides the cycle. -/
theorem liftUnitsProduceForOneStream : Obligations.LiftUnitsProduceForOneStream := by
  unfold Obligations.LiftUnitsProduceForOneStream
  refine fun s n hi hl => ⟨fun hidle => ?_, fun ⟨e, he, hr⟩ => ?_, fun d hturn => ⟨fun j v hf => ?_, fun hf hinj => ?_⟩⟩
  · have hnone : s.liftAble n = [] := List.filter_eq_nil_iff.mpr fun d hd => by simp [hidle d hd]
    rw [exec_liftUnitCycle_acts hi hl, State.liftCycle_idle hnone]
  · obtain ⟨d, hd⟩ := State.liftTurn_some (List.ne_nil_of_mem (State.mem_liftAble.mpr ⟨he, hr⟩))
    obtain ⟨hmem, hlc⟩ := State.liftTurn_ready hd
    obtain ⟨hon, hready⟩ := State.mem_liftAble.mp hmem
    exact ⟨d, hd, hon, hready, fun ⟨e, he, hr, hq⟩ => hlc ⟨e, State.mem_liftAble.mpr ⟨he, hr⟩, hq⟩⟩
  · rw [exec_liftUnitCycle_acts hi hl, State.liftCycle_refused (Prod.ext rfl hturn) hf]
  · obtain ⟨a, ha⟩ := s.liftTurn_fst n
    have ht : bit ((s.liftTurn n).1.reg Reg.tpInj) 63 = false := by rw [ha]; exact hinj
    rw [exec_liftUnitCycle_acts hi hl, State.liftCycle_produces (Prod.ext rfl hturn) hf ht]
    exact ⟨fun hp => by rw [hp]; rfl, fun hp => by rw [hp]; rfl⟩

end Sys2Proof.Machine
end

section
/-! PROOFS. The completion of descriptors (R52, R91, R95, R100, R131, R133). -/

namespace Sys2Proof.Machine

variable {s t : State} {d e : Desc} {did : Nat}

/-! ### Changes of one descriptor, one after another -/

theorem State.onDesc_self {f : Desc → Desc} (hf : ∀ x ∈ s.descs, x.id = did → f x = x) : s.onDesc did f = s := by
  have hl : s.descs.map (fun e => if e.id = did then f e else e) = s.descs := by
    refine (List.map_congr_left (g := id) fun x hx => ?_).trans (List.map_id _)
    split
    · next h => exact hf x hx h
    · rfl
  unfold State.onDesc
  rw [hl]

/-- The last of two changes that leaves a descriptor as it says decides. -/
theorem State.onDesc_setDesc {f : Desc → Desc} (he : e.id = did) (hf : ∀ x, (f x).id = x.id) : (s.onDesc did f).setDesc e = s.setDesc e := by
  unfold State.onDesc State.setDesc
  dsimp only
  rw [List.map_map]
  congr 1
  refine List.map_congr_left fun x _ => ?_
  subst he
  by_cases hx : x.id = e.id
  · simp [hx, hf]
  · simp [hx]

theorem State.deliverLocal_nil (h : s.fab.loop = []) : s.deliverLocal = s := by
  unfold State.deliverLocal
  rw [h]
  rfl

/-! ### What holds a descriptor back -/

theorem exec_descriptorComplete_acts (hi : s.issuing = true) (hd : s.completeDesc did = t) :
    exec (.descriptorComplete did) s = .next { State.pump (State.pumpReplays t.deliverLocal) with pending := s.pending } := by
  subst hd
  exact whenIssuing_acts (f := fun s => ((s.completeDesc did).deliverLocal.pumpReplays).pump) hi

theorem State.completeDesc_early (hd : s.desc did = some d) (hp : d.phase ≠ .finishing) : s.completeDesc did = s := by
  unfold State.completeDesc
  rw [hd]
  exact if_pos hp

theorem State.completeDesc_writing (hd : s.desc did = some d) (hp : d.phase = .finishing) (hw : d.wr.isSome = true ∨ s.writesOut did = true) :
    s.completeDesc did = s.sealLines did := by
  unfold State.completeDesc
  rw [hd]
  exact (if_neg (not_not.mpr hp)).trans (if_pos hw)

theorem State.completeDesc_fenced (hd : s.desc did = some d) (hp : d.phase = .finishing) (hw : d.wr = none) (ho : s.writesOut did = false)
    (hf : d.status = 0 ∧ s.fenced d = true) : s.completeDesc did = s := by
  unfold State.completeDesc
  rw [hd]
  exact (if_neg (not_not.mpr hp)).trans ((if_neg (by simp [hw, ho])).trans (if_pos hf))

/-! ### The end -/

/-- A descriptor of which nothing is outstanding: no unit begun, no write, no signal of a slice, no item, line or channel. -/
structure State.Settled (s : State) (d : Desc) : Prop where
  phase : d.phase = .finishing
  wr : d.wr = none
  writes : s.writesOut d.id = false
  late : d.late = []
  acks : d.acks = []
  lines : d.lines = []
  chan : d.chan = none
  parent : d.parent = none

/-- A descriptor as it waits for its records to be written (R131). -/
def Desc.recorded (d : Desc) : Desc :=
  { giveUp d with lines := [], status := d.finalStatus.1, word1 := d.finalStatus.2, late := [], phase := .recording,
                  recordLeft := (List.range d.entries.length).reverse }

theorem State.sealLines_nil (hd : s.desc did = some d) (hl : d.lines = []) : s.sealLines did = s := by
  unfold State.sealLines
  rw [hd, Option.map_some, hl]
  rfl

theorem State.Settled.record (h : s.Settled d) (hd : s.desc d.id = some d) : s.record d.id = s.setDesc d.recorded := by
  have hlines : s.closeLines d = s := by
    unfold State.closeLines
    rw [h.lines]
    rfl
  have hchan : s.freeChan d = s := by
    unfold State.freeChan
    rw [h.chan]
  unfold State.record
  rw [hd]
  dsimp only
  rw [hlines, hchan]
  have hp : (giveUp d).parent = none := h.parent
  split
  · next p hsome => exact absurd (hp.symm.trans hsome) (by simp)
  · rfl

/-- A settled descriptor that no FENCE holds performs its signals and is recorded when none is left. -/
theorem State.Settled.completes (h : s.Settled d) (hd : s.desc d.id = some d) (hf : d.status ≠ 0 ∨ s.fenced d = false)
    (ht : s.finalSignals d.id = t) (he : t.Settled e) (hid : e.id = d.id) (hte : t.desc d.id = some e)
    (hopen : (e.sigs.any Option.isSome && e.status == 0) = false) : s.completeDesc d.id = t.setDesc e.recorded := by
  have hseal : t.sealLines d.id = t := State.sealLines_nil hte he.lines
  have hrec : t.record d.id = t.setDesc e.recorded := by
    rw [← hid] at hte ⊢
    exact he.record hte
  have hheld : (e.sigs.any Option.isSome && e.status == 0 || !e.acks.isEmpty || t.writesOut d.id) = false := by
    rw [hopen, he.acks, ← hid, he.writes]
    rfl
  unfold State.completeDesc
  rw [hd]
  refine (if_neg (not_not.mpr h.phase)).trans ((if_neg (by simp [h.wr, h.writes])).trans ((if_neg ?_).trans ?_))
  · exact fun c => hf.elim (fun hs => hs c.1) (fun hx => by simp [hx] at c)
  · rw [h.late]
    dsimp only [List.length_nil, State.runLate]
    rw [hd]
    refine (if_neg (fun c => c.2 h.late)).trans ?_
    rw [ht, hseal, hte]
    dsimp only
    rw [hheld]
    exact hrec

/-! ### Signals at the end -/

/-- The final signal of one place. -/
def State.finalSignal (s : State) (did k : Nat) : State :=
  match s.desc did with
  | none => s
  | some d =>
    match d.sigs.getD k none with
    | none => s
    | some g =>
      if d.status ≠ 0 then s
      else match d.finalAmount g with
        | none => s.setDesc { d with sigs := d.sigs.set k none }
        | some amt =>
          match s.signal did k amt with
          | (t, true) => t.onDesc did (fun d => { d with sigs := d.sigs.set k none })
          | (t, false) => t

theorem State.finalSignals_eq (s : State) (did : Nat) : s.finalSignals did = (s.finalSignal did 0).finalSignal did 1 := by
  change _ = [0, 1].foldl (fun s k => s.finalSignal did k) s
  unfold State.finalSignals
  refine congrArg (fun f => List.foldl f s [0, 1]) (funext fun s => funext fun k => ?_)
  unfold State.finalSignal
  rfl

/-- A descriptor that ended with an error, and a place without a signal, perform none (R95). -/
theorem State.finalSignal_none {k : Nat} (hd : s.desc did = some d) (h : d.status ≠ 0 ∨ d.sigs.getD k none = none) :
    s.finalSignal did k = s := by
  unfold State.finalSignal
  rw [hd]
  dsimp only
  rcases h with h | h
  · split
    · rfl
    · exact if_pos h
  · rw [h]

/-- A local add on a buoy that nothing watches is performed and taken off. -/
theorem State.finalSignal_add {g : SigSt} {amt : Nat} (hq : s.Unwatched) (hd : s.desc did = some d) (hs : d.status = 0)
    (hg : d.sigs.getD 0 none = some g) (hc : d.sigChipOf g.word = none) (ha : d.finalAmount g = some amt) (ho : fld g.word 14 12 = 0)
    (hp : (s.buoy g.phys).poison = false) (hv : (s.buoy g.phys).value + amt ≤ 0xFFFFFFFF) :
    s.finalSignal did 0 = (s.setBuoy g.phys { s.buoy g.phys with value := (s.buoy g.phys).value + amt }).onDesc did
      (fun d => { d with sigs := d.sigs.set 0 none }) := by
  have hop : s.signalOp (s.ctxOf d.queue) (fld g.word 11 0) g.phys (fld g.word 14 12 == 1) amt =
      (s.setBuoy g.phys { s.buoy g.phys with value := (s.buoy g.phys).value + amt }, .ok) := by
    have hb : s.buoyOp g.phys (if (0 == 1) = true then .sub else .add) amt = (s.operated g.phys .add amt, .ok) :=
      State.buoyOp_unwatched hq hp (by simp)
    rw [State.signalOp, ho, hb, State.operated_add hv]
    rfl
  have hsig : s.signal did 0 amt = (s.setBuoy g.phys { s.buoy g.phys with value := (s.buoy g.phys).value + amt }, true) := by
    unfold State.signal
    rw [hd]
    dsimp only
    rw [hg]
    dsimp only
    rw [hc]
    dsimp only
    rw [hop]
    exact Prod.ext (State.onDesc_self fun _ _ _ => rfl) rfl
  unfold State.finalSignal
  rw [hd]
  dsimp only
  rw [hg]
  refine (if_neg (not_not.mpr hs)).trans ?_
  rw [ha]
  dsimp only
  rw [hsig]

theorem getD_none_of_all {l : List (Option SigSt)} (h : ∀ g ∈ l, g = none) (k : Nat) : l.getD k none = none := by
  rw [List.getD_eq_getElem?_getD]
  cases hk : l[k]? with
  | none => rfl
  | some g => exact h g (List.mem_of_getElem? hk)

/-- Settles O50, by what holds the descriptor back, one after another. -/
theorem descriptorsCompleteWhenTheirWorkIsCoherent : Obligations.DescriptorsCompleteWhenTheirWorkIsCoherent := by
  unfold Obligations.DescriptorsCompleteWhenTheirWorkIsCoherent
  intro s d hi hd hl
  refine ⟨fun hp => ?_, fun hp hw => ?_, fun hp hw ho hs hf => ?_, fun hp hw ho hlate hacks hlines hchan hpar => ?_⟩
  · rw [exec_descriptorComplete_acts hi (State.completeDesc_early hd hp), State.deliverLocal_nil hl]
  · rw [exec_descriptorComplete_acts hi (State.completeDesc_writing hd hp hw)]
  · rw [exec_descriptorComplete_acts hi (State.completeDesc_fenced hd hp hw ho ⟨hs, hf⟩), State.deliverLocal_nil hl]
  · have hset : s.Settled d := ⟨hp, hw, ho, hlate, hacks, hlines, hchan, hpar⟩
    refine ⟨fun hend => ?_, fun g amt hs hf hsigs hc ha hop hpo hv hinj hwat hcl hwait => ?_⟩
    · have hnone : ∀ k, s.finalSignal d.id k = s := fun k =>
        State.finalSignal_none hd (hend.imp_right fun h => getD_none_of_all h.2 k)
      have hsig : s.finalSignals d.id = s := by rw [State.finalSignals_eq, hnone, hnone]
      have hopen : (d.sigs.any Option.isSome && d.status == 0) = false := by
        rcases hend with h | ⟨_, h⟩
        · simp [h]
        · have hany : d.sigs.any Option.isSome = false := List.any_eq_false.mpr fun g hg => by simp [h g hg]
          simp [hany]
      rw [exec_descriptorComplete_acts hi (hset.completes hd (hend.imp_right And.left) hsig hset rfl hd hopen),
        State.deliverLocal_nil (s := s.setDesc d.recorded) hl]
      rfl
    · have h0 : d.sigs.getD 0 none = some g := by rw [hsigs]; rfl
      have hadd := State.finalSignal_add ⟨hinj, hwait, hwat, hcl⟩ hd hs h0 hc ha hop hpo hv
      have hdone : (s.finalSignal d.id 0).desc d.id = some { d with sigs := d.sigs.set 0 none } := by
        rw [hadd]
        exact State.desc_onDesc_self (s := s.setBuoy _ _) (f := fun d => { d with sigs := d.sigs.set 0 none }) hd rfl
      have h1 : d.sigs.set 0 none = [none, none] := by rw [hsigs]; rfl
      have hsig : s.finalSignals d.id = s.finalSignal d.id 0 :=
        State.finalSignal_none hdone (.inr (congrArg (fun l : List (Option SigSt) => l.getD 1 none) h1))
      have hset' : (s.finalSignal d.id 0).Settled { d with sigs := d.sigs.set 0 none } :=
        ⟨hp, hw, by rw [hadd]; exact ho, hlate, hacks, hlines, hchan, hpar⟩
      have hopen : ((d.sigs.set 0 none).any Option.isSome && d.status == 0) = false := by rw [h1]; rfl
      have hfin := hset.completes hd (.inr hf) hsig hset' rfl hdone hopen
      rw [hadd, State.onDesc_setDesc (f := fun d => { d with sigs := d.sigs.set 0 none }) (by rfl) fun _ => rfl] at hfin
      rw [exec_descriptorComplete_acts hi hfin, State.deliverLocal_nil (by exact hl)]
      rw [h1]
      rfl

end Sys2Proof.Machine
end

section
/-! PROOFS. The begin of control descriptors (R90, R98 to R102, R119, R123, R130). -/

namespace Sys2Proof.Machine

variable {s t : State} {d : Desc} {c : Instr} {op : Nat} {run : State → Desc → State}

theorem whenIssuing_next {f : State → State} (h : s.issuing = true) (hf : f s = t) (hp : t.pending = s.pending) : whenIssuing f s = .next t := by
  subst hf
  rw [whenIssuing_acts h, ← hp]

/-- The status and word 1 of the checks of a control descriptor (R130). -/
def State.controlCheck (s : State) (d : Desc) : Nat × Word := Sys2Proof.Machine.beginControl d.entries (s.param d.queue)

/-- What a control descriptor does past its checks: the predicate decides. -/
def State.controlGo (s : State) (d : Desc) (run : State → Desc → State) : State :=
  match s.predicate d with
  | none => s.setDesc (endWith d 0x30 0)
  | some true => (s.setDesc { s.begun d with phase := .finishing, skipped := true }).useId
  | some false => run s.useId (s.begun d)

/-- What a control descriptor does whose turn it is. -/
theorem State.beginControl_of (hd : s.desc d.id = some d) (ho : opcodeOf d.entries = op) (hm : s.mayBegin d = true) :
    s.beginControl d.id op run =
      if (s.controlCheck d).1 = 0x10 then s.setDesc (endWith d (s.controlCheck d).1 (s.controlCheck d).2)
      else if s.hasGroup (s.groupOf d.queue) = false then s.setDesc (endWith d 0x12 0)
      else if (s.controlCheck d).1 ≠ 0 then s.setDesc (endWith d (s.controlCheck d).1 (s.controlCheck d).2)
      else s.controlGo d run := by
  unfold State.beginControl State.controlCheck
  rw [hd]
  dsimp only
  rw [ho, hm, beq_self_eq_true]
  simp only [Bool.and_self, Bool.not_true, Bool.false_eq_true, if_false, Bool.not_eq_true']
  rfl

theorem State.beginControl_malformed (hd : s.desc d.id = some d) (ho : opcodeOf d.entries = op) (hm : s.mayBegin d = true)
    (hc : (s.controlCheck d).1 = 0x10) : s.beginControl d.id op run = s.setDesc (endWith d 0x10 (s.controlCheck d).2) := by
  rw [State.beginControl_of hd ho hm, if_pos hc, hc]

theorem State.beginControl_absent (hd : s.desc d.id = some d) (ho : opcodeOf d.entries = op) (hm : s.mayBegin d = true)
    (hc : (s.controlCheck d).1 ≠ 0x10) (hg : s.hasGroup (s.groupOf d.queue) = false) :
    s.beginControl d.id op run = s.setDesc (endWith d 0x12 0) := by
  rw [State.beginControl_of hd ho hm, if_neg hc, if_pos hg]

theorem State.beginControl_refused (hd : s.desc d.id = some d) (ho : opcodeOf d.entries = op) (hm : s.mayBegin d = true)
    (hg : s.hasGroup (s.groupOf d.queue) = true) (hc : (s.controlCheck d).1 ≠ 0) :
    s.beginControl d.id op run = s.setDesc (endWith d (s.controlCheck d).1 (s.controlCheck d).2) := by
  rw [State.beginControl_of hd ho hm]
  have hne : ¬s.hasGroup (s.groupOf d.queue) = false := by simp [hg]
  rw [if_neg hne, if_pos hc, ite_self]


theorem State.beginControl_passes (hd : s.desc d.id = some d) (ho : opcodeOf d.entries = op) (hm : s.mayBegin d = true)
    (hg : s.hasGroup (s.groupOf d.queue) = true) (hc : (s.controlCheck d).1 = 0) :
    s.beginControl d.id op run = s.controlGo d run := by
  have hne : ¬s.hasGroup (s.groupOf d.queue) = false := by simp [hg]
  rw [State.beginControl_of hd ho hm, if_neg (by omega), if_neg hne, if_neg (not_not.mpr hc)]

/-- A command whose whole effect is the begin of a control descriptor. -/
def State.BeginsBy (s : State) (d : Desc) (c : Instr) (op : Nat) (run : State → Desc → State) : Prop :=
  exec c s = .next { s.beginControl d.id op run with pending := s.pending }

theorem State.BeginsBy.next (h : s.BeginsBy d c op run) (hb : s.beginControl d.id op run = t) (hp : t.pending = s.pending) :
    exec c s = .next t := by
  subst hb
  rw [h, ← hp]

/-- What PARAM_SET does once it runs (R119). -/
def State.runParamSet (s : State) (d : Desc) : State :=
  (s.onQueue d.queue (fun x => { x with params := setParams (d.entries.headD []) x.params })).runNothing d

/-- What a control descriptor does once it runs, by its opcode. -/
def controlRun (op : Nat) : State → Desc → State :=
  if op = 0x0C then State.runFence else if op = 0x0D then State.runParamSet else State.runNothing

theorem State.mayBegin_fresh (h : s.mayBegin d = true) : d.began = false := by
  simp only [State.mayBegin, Bool.and_eq_true, Bool.not_eq_true'] at h
  obtain ⟨⟨⟨_, hb⟩, _⟩, _⟩ := h
  exact hb

theorem State.fence_begins (hd : s.desc d.id = some d) (hm : s.mayBegin d = true) : s.fence d.id = s.beginControl d.id 0x0C State.runFence := by
  unfold State.fence
  rw [hd]
  dsimp only
  rw [State.mayBegin_fresh hm]
  rfl

theorem State.paramSet_begins (hd : s.desc d.id = some d) (ha : s.allBegun d = true) :
    s.paramSet d.id = s.beginControl d.id 0x0D State.runParamSet := by
  unfold State.paramSet
  rw [hd]
  exact if_pos ha

theorem State.paramSet_waits (hd : s.desc d.id = some d) (ha : s.allBegun d = false) : s.paramSet d.id = s := by
  unfold State.paramSet
  rw [hd]
  exact if_neg (by simp [ha])

/-- The commands of the control descriptors that do no more than begin them. -/
theorem State.beginsBy_of (hi : s.issuing = true) (hd : s.desc d.id = some d) (hm : s.mayBegin d = true)
    (hc : (c = Instr.nop d.id ∧ op = 0x00) ∨ (c = .signal d.id ∧ op = 0x0A) ∨ (c = .wait d.id ∧ op = 0x0B) ∨ (c = .mark d.id ∧ op = 0x0F) ∨
      (c = .fence d.id ∧ op = 0x0C) ∨ (c = .paramSet d.id ∧ op = 0x0D ∧ s.allBegun d = true)) : s.BeginsBy d c op (controlRun op) := by
  rcases hc with ⟨rfl, rfl⟩ | ⟨rfl, rfl⟩ | ⟨rfl, rfl⟩ | ⟨rfl, rfl⟩ | ⟨rfl, rfl⟩ | ⟨rfl, rfl, ha⟩
  · exact whenIssuing_acts (f := fun s => s.beginControl d.id 0x00 State.runNothing) hi
  · exact whenIssuing_acts (f := fun s => s.beginControl d.id 0x0A State.runNothing) hi
  · exact whenIssuing_acts (f := fun s => s.beginControl d.id 0x0B State.runNothing) hi
  · exact whenIssuing_acts (f := fun s => s.beginControl d.id 0x0F State.runNothing) hi
  · refine (whenIssuing_acts (f := fun s => s.fence d.id) hi).trans ?_
    rw [State.fence_begins hd hm]
    rfl
  · refine (whenIssuing_acts (f := fun s => s.paramSet d.id) hi).trans ?_
    rw [State.paramSet_begins hd ha]
    rfl

/-! ### What they do once they run -/

/-- The state in which a descriptor that begins has taken its identity. -/
theorem State.fenceMet_begun : (s.useId).fenceMet (s.begun d) = s.fenceMet d := rfl

theorem State.runFence_begun : State.runFence s.useId (s.begun d) =
    if s.fenceMet d = false then s.useId.setDesc { s.begun d with phase := .running }
    else if hRelease (headOf (d.entries.headD [])) = true ∧ (s.queue d.queue).lost = true then s.useId.setDesc (endWith (s.begun d) 0x31 0)
    else s.useId.setDesc { s.begun d with phase := .finishing } := by
  unfold State.runFence
  simp only [State.fenceMet_begun, Bool.not_eq_true', Bool.and_eq_true]
  rfl

theorem tmod_of_some {α : Type} {l : Tab α} {k : Nat} {a : α} (h : tget l k = some a) (f : α → α) : tmod l k f = tput l k (f a) := by
  unfold tmod
  rw [h]

theorem State.onQueue_of_some {q : Nat} {x : Queue} (h : tget s.queues q = some x) (f : Queue → Queue) :
    s.onQueue q f = { s with queues := tput s.queues q (f x) } := by
  rw [State.onQueue, tmod_of_some h]

theorem State.runParamSet_begun {x : Queue} (hx : tget s.queues d.queue = some x) : State.runParamSet s.useId (s.begun d) =
    ({ s.useId with queues := tput s.queues d.queue { x with params := setParams (d.entries.headD []) x.params } } : State).setDesc
      { s.begun d with phase := .finishing } := by
  unfold State.runParamSet
  exact congrArg (fun t : State => t.runNothing (s.begun d)) (State.onQueue_of_some (s := s.useId) hx _)

/-- A REPLAY begins with its group's base and count resolved (R123). -/
def State.replayBegun (s : State) (d : Desc) : Desc :=
  { s.begun d with phase := .running,
                   resolved := List.replicate 14 0 ++ [fieldVal d.entries (s.param d.queue) 14 0 64 8, fieldVal d.entries (s.param d.queue) 15 0 76 4] }

theorem exec_replay_begins (hi : s.issuing = true) (hd : s.desc d.id = some d) (hm : s.mayBegin d = true) (ho : opcodeOf d.entries = 0x0E)
    (hg : s.hasGroup (s.groupOf d.queue) = true) (hc : (s.controlCheck d).1 = 0) (hp : s.predicate d = some false) :
    exec (.replay d.id) s = .next { State.pump (State.pumpReplays (s.useId.setDesc (s.replayBegun d))) with pending := s.pending } := by
  refine (whenIssuing_acts (f := fun s => (s.beginControl d.id 0x0E State.runReplay).pump) hi).trans ?_
  have hb := State.beginControl_passes (run := State.runReplay) hd ho hm hg hc
  rw [hb, State.controlGo, hp]
  rfl

/-- Settles O46: the checks come first, in their order, then the predicate, then the work of the opcode. -/
theorem controlDescriptorsBeginInTurn : Obligations.ControlDescriptorsBeginInTurn := by
  unfold Obligations.ControlDescriptorsBeginInTurn
  intro s d hi hd hm
  refine ⟨fun c hc => ?_, fun ho ha => ?_, fun ho hg hc hp => ?_⟩
  · have hb := State.beginsBy_of hi hd hm hc
    have ho : opcodeOf d.entries = opcodeOf d.entries := rfl
    refine ⟨fun h => hb.next (State.beginControl_malformed hd ho hm h) rfl,
      fun h hg => hb.next (State.beginControl_absent hd ho hm h hg) rfl,
      fun hg => ⟨fun h => hb.next (State.beginControl_refused hd ho hm hg h) rfl, fun h hp => ?_, fun h hp => ?_, fun h hp => ?_⟩⟩
    all_goals have hpass := State.beginControl_passes (run := controlRun (opcodeOf d.entries)) hd ho hm hg h
    all_goals rw [State.controlGo, hp] at hpass
    · exact hb.next hpass rfl
    · exact hb.next hpass rfl
    · refine ⟨fun hop => ?_, fun hop => ⟨fun hf => ?_, fun hf hl => ?_, fun hf hl => ?_⟩, fun hop x hx => ?_⟩
      · have hrun : controlRun (opcodeOf d.entries) = State.runNothing := by
          unfold controlRun
          rw [if_neg (by intro e; rw [e] at hop; simp at hop), if_neg (by intro e; rw [e] at hop; simp at hop)]
        rw [hrun] at hpass hb
        exact hb.next hpass rfl
      · rw [hop] at hpass hb
        exact hb.next (hpass.trans (State.runFence_begun.trans (if_pos hf))) rfl
      · rw [hop] at hpass hb
        exact hb.next (hpass.trans (State.runFence_begun.trans ((if_neg (by simp [hf])).trans (if_neg hl)))) rfl
      · rw [hop] at hpass hb
        exact hb.next (hpass.trans (State.runFence_begun.trans ((if_neg (by simp [hf])).trans (if_pos hl)))) rfl
      · rw [hop] at hpass hb
        exact hb.next (hpass.trans (State.runParamSet_begun hx)) rfl
  · exact whenIssuing_next (f := fun s => s.paramSet d.id) hi (State.paramSet_waits hd ha) rfl
  · exact ⟨_, s.replayBegun d, exec_replay_begins hi hd hm ho hg hc hp, rfl, rfl, rfl, rfl, rfl, rfl⟩

end Sys2Proof.Machine
end

section
/-! PROOFS. The commands of the admin queue on the queues (R333 to R338, R610). -/

namespace Sys2Proof.Machine

variable {s t : State} {q : Nat} {c : AdminCmd} {rest : List AdminCmd}

/-! ### What leaves the queues as they are -/

theorem State.queue_of_queues (h : t.queues = s.queues) (q : Nat) : t.queue q = s.queue q := by rw [State.queue, h]; rfl

/-- The switches of the domains change what is asked of them alone. -/
theorem State.settleDomains_is (s : State) : ∃ x o, s.settleDomains = { s with sup := x, out := o } := by
  have key : ∀ (l : List Nat) (t : State), (∃ x o, t = { s with sup := x, out := o }) → ∃ x o,
      l.foldl (fun s d => if 88 ≤ d ∧ d < 120 then s else s.pdAsk d (b2n (s.domainWanted d))) t = { s with sup := x, out := o } := by
    intro l
    induction l with
    | nil => exact fun t h => h
    | cons d l ih =>
      rintro _ ⟨x, o, rfl⟩
      rw [List.foldl_cons]
      apply ih
      split
      · exact ⟨x, o, rfl⟩
      · exact ⟨_, _, rfl⟩
  exact key _ s ⟨s.sup, s.out, rfl⟩

theorem State.settleDomains_queues (s : State) : s.settleDomains.queues = s.queues := by
  obtain ⟨x, o, h⟩ := s.settleDomains_is
  rw [h]

theorem State.adminRecord_queues (s : State) (c : AdminCmd) (st : Nat) (w : Word) : (s.adminRecord c st w).queues = s.queues := by
  unfold State.adminRecord
  dsimp only
  split
  · split <;> rfl
  · split <;> rfl

theorem State.wantFetch_queues (s : State) (q : Nat) : (s.wantFetch q).queues = s.queues := by
  obtain ⟨l, h⟩ := s.wantFetch_is q
  rw [h]

/-! ### The command at the head of the list -/

/-- The head of the list of admin commands has not begun, and no record of one before it is outstanding. -/
structure State.AdminHead (s : State) (c : AdminCmd) : Prop where
  head : s.admin.cmds.head? = some c
  fresh : c.begun = false
  recorded : s.reqs.any (fun r => match r.owner with | .rcd d _ => d == 0 | _ => false) = false

/-- A command whose checks stop it ends with what they tell; one that passes runs. -/
def State.adminDone (s : State) (c : AdminCmd) (stop : Option AdminStop) (t : State) : State :=
  match stop with
  | some (st, w) => s.adminRecord c st w
  | none => t

theorem State.adminRun_head (h : s.AdminHead c) {code : Nat} (hop : leAt c.entry 0 1 = code) (check : State → Bytes → Option AdminStop)
    (run : State → AdminCmd → State) :
    s.adminRun code check run = State.pump (State.pumpReplays (s.adminDone c (check s c.entry) (run s c))) := by
  obtain ⟨hd, hb, hr⟩ := h
  obtain ⟨l, hl⟩ : ∃ l, s.admin.cmds = c :: l := by
    cases hc : s.admin.cmds with
    | nil => rw [hc] at hd; cases hd
    | cons a l => rw [hc] at hd; obtain rfl := Option.some.inj hd; exact ⟨l, rfl⟩
  unfold State.adminRun
  rw [hl]
  exact if_pos ⟨hop, by simp [hb], congrArg (!·) hr⟩

/-- An instruction is the admin command of a code, with its checks and its work (Table 9-3). -/
def AdminRow (i : Instr) (code : Nat) (check : State → Bytes → Option AdminStop) (run : State → AdminCmd → State) : Prop :=
  ∀ s, exec i s = whenIssuing (fun s => s.adminRun code check run) s

theorem adminRow_create : AdminRow .createQueue 0x40 State.createCheck State.createRun := fun _ => rfl
theorem adminRow_destroy : AdminRow .destroyQueue 0x41 (fun s e => s.adminGate e Queue.quiet) State.destroyRun := fun _ => rfl
theorem adminRow_enable : AdminRow .enableQueue 0x42 (fun s e => s.adminGate e (fun x => x.state == .disabled)) State.enableRun := fun _ => rfl
theorem adminRow_disable : AdminRow .disableQueue 0x43 State.disableCheck State.disableRun := fun _ => rfl
theorem adminRow_reset : AdminRow .resetQueue 0x44 (fun s e => s.adminGate e Queue.quiet) State.resetRun := fun _ => rfl
theorem adminRow_modify : AdminRow .modifyQueue 0x45 State.modifyCheck State.modifyRun := fun _ => rfl
theorem adminRow_resume : AdminRow .resumeStream 0x46 State.haltedCheck State.resumeRun := fun _ => rfl
theorem adminRow_abandon : AdminRow .abandonStream 0x47 State.haltedCheck State.abandonRun := fun _ => rfl

section
variable {i : Instr} {code : Nat} {check : State → Bytes → Option AdminStop} {run : State → AdminCmd → State}

theorem AdminRow.stops (hrow : AdminRow i code check run) (hi : s.issuing = true) (h : s.AdminHead c) (hop : leAt c.entry 0 1 = code)
    {st : Nat} {w : Word} (hc : check s c.entry = some (st, w)) :
    exec i s = .next { State.pump (State.pumpReplays (s.adminRecord c st w)) with pending := s.pending } := by
  rw [hrow, whenIssuing_acts hi, State.adminRun_head h hop, hc]
  rfl

theorem AdminRow.runs (hrow : AdminRow i code check run) (hi : s.issuing = true) (h : s.AdminHead c) (hop : leAt c.entry 0 1 = code)
    (hc : check s c.entry = none) : exec i s = .next { State.pump (State.pumpReplays (run s c)) with pending := s.pending } := by
  rw [hrow, whenIssuing_acts hi, State.adminRun_head h hop, hc]
  rfl

end

theorem State.adminGate_tenant {e : Bytes} {ok : Queue → Bool} (h : s.adminGate e ok = none) : leAt e 16 2 ≠ 0 := by
  intro h0
  unfold State.adminGate at h
  dsimp only at h
  split at h
  · cases h
  · rw [if_pos (.inl h0)] at h
    cases h

/-! ### The work of each command -/

theorem State.destroyRun_queue (hs : tsorted s.queues = true) : ((s.destroyRun c).queue (leAt c.entry 16 2)).state = .absent := by
  unfold State.destroyRun State.queue
  dsimp only
  rw [State.settleDomains_queues, State.adminRecord_queues]
  dsimp only
  rw [tget_tdel_self hs]
  rfl

/-- Reading ahead changes what a queue fetches ahead of its turn, and nothing else of it. -/
theorem State.readAhead_queue (s : State) (q : Nat) : ∃ n, (s.readAhead q).queue q = { s.queue q with spec := n } := by
  unfold State.readAhead
  split
  · exact ⟨(s.queue q).spec, rfl⟩
  · cases hx : tget s.queues q with
    | none =>
      refine ⟨(s.queue q).spec, ?_⟩
      simp [State.queue, State.onQueue, tmod, hx]
    | some x =>
      rw [State.onQueue_queue_self hx, State.queue_of_tget hx]
      split
      · exact ⟨_, rfl⟩
      · exact ⟨_, rfl⟩

theorem State.enableRun_queue {x : Queue} (hx : tget s.queues (leAt c.entry 16 2) = some x) :
    ∃ n, (s.enableRun c).queue (leAt c.entry 16 2) = { x with state := .enabled, idxAgain := true, spec := n } := by
  obtain ⟨n, hn⟩ := (s.onQueue (leAt c.entry 16 2) (fun x => { x with state := .enabled, idxAgain := true })).readAhead_queue (leAt c.entry 16 2)
  rw [State.onQueue_queue_self hx] at hn
  refine ⟨n, ?_⟩
  rw [State.enableRun, State.queue_of_queues (State.adminRecord_queues ..), State.queue_of_queues (State.wantFetch_queues ..), hn]

theorem State.disableRun_queue {x : Queue} (hx : tget s.queues (leAt c.entry 16 2) = some x) :
    (s.disableRun c).queue (leAt c.entry 16 2) = { x with
      lastRead := true, idxAgain := true, idleSig := if nbit (leAt c.entry 24 8) 15 then some (word (leAt c.entry 24 8)) else none } := by
  rw [State.disableRun, State.queue_of_queues (State.wantFetch_queues ..)]
  exact State.onQueue_queue_self (s := s.adminWait) hx _

theorem State.resetRun_queue {x : Queue} (hx : tget s.queues (leAt c.entry 16 2) = some x) :
    (s.resetRun c).queue (leAt c.entry 16 2) = resetQueueTo (leAt c.entry 28 4) x := by
  rw [State.resetRun, State.queue_of_queues (State.adminRecord_queues ..), State.onQueue_queue_self hx]

theorem State.modifyRun_queue {x : Queue} (hx : tget s.queues (leAt c.entry 16 2) = some x) :
    (s.modifyRun c).queue (leAt c.entry 16 2) = { x with
      weight := leAt c.entry 22 1, bulk := if nbit (leAt c.entry 25 1) 0 then leAt c.entry 21 1 == 1 else x.bulk } := by
  rw [State.modifyRun, State.queue_of_queues (State.adminRecord_queues ..), State.onQueue_queue_self hx]

/-! ### A new queue -/

/-- What CREATE_QUEUE gives a queue and nothing that its first accesses do takes from it. -/
structure Queue.SameRow (x y : Queue) : Prop where
  ring : y.ring = x.ring
  ctx : y.ctx = x.ctx
  cons : y.cons = x.cons
  log2 : y.log2 = x.log2
  weight : y.weight = x.weight

theorem Queue.SameRow.trans {x y z : Queue} (h : x.SameRow y) (h' : y.SameRow z) : x.SameRow z :=
  ⟨h'.ring.trans h.ring, h'.ctx.trans h.ctx, h'.cons.trans h.cons, h'.log2.trans h.log2, h'.weight.trans h.weight⟩

theorem State.sameRow_of_queues (h : t.queues = s.queues) (q : Nat) : (s.queue q).SameRow (t.queue q) := by
  rw [State.queue_of_queues h]
  exact ⟨rfl, rfl, rfl, rfl, rfl⟩

theorem State.queueFlash_queues (s : State) (q event detail index addr : Nat) : (s.queueFlash q event detail index addr).queues = s.queues := by
  obtain ⟨g, y, h⟩ := s.queueFlash_is q event detail index addr
  rw [h]

theorem State.enterError_sameRow (s : State) (q reason index status : Nat) : (s.queue q).SameRow ((s.enterError q reason index status).queue q) := by
  unfold State.enterError
  dsimp only
  split
  · rw [State.queue_of_queues (State.queueFlash_queues ..)]
    change (s.queue q).SameRow ((s.setQueue q _).queue q)
    rw [State.setQueue_queue_self]
    exact ⟨rfl, rfl, rfl, rfl, rfl⟩
  · exact ⟨rfl, rfl, rfl, rfl, rfl⟩

theorem State.startWalk_queues (s : State) (did : Option Nat) (queue : Nat) (mover : Option Nat) (lc : Bool) (tag va : Nat) :
    (s.startWalk did queue mover lc tag va).queues = s.queues := by
  unfold State.startWalk
  dsimp only
  split <;> rfl

theorem State.countEcc_cache_queues (s : State) : (s.countEcc 6 12 false).queues = s.queues := rfl

theorem ite_fst {α β : Type} {P : α → Prop} {b : Prop} [Decidable b] {x y : α × β} (hx : P x.1) (hy : P y.1) : P (if b then x else y).1 := by
  split
  · exact hx
  · exact hy

/-- A state that an injection may leave: its counts and its registers have moved. -/
def State.Injected (s t : State) : Prop := ∃ r x, t = { s with regs := r, sup := x }

theorem State.inject_is (s : State) (store unit : Nat) (ctx : Option Nat) : s.Injected (s.inject store unit ctx).1 := by
  unfold State.inject
  refine ite_fst (P := s.Injected) ?_ (ite_fst (P := s.Injected) ?_ (ite_fst (P := s.Injected) ?_ ?_))
  · exact ⟨s.regs, s.sup, rfl⟩
  · exact ⟨s.regs, _, rfl⟩
  · exact ⟨_, s.sup, rfl⟩
  · dsimp only
    split
    · exact ⟨_, _, rfl⟩
    · exact ⟨_, _, rfl⟩

/-- The caches of the queue manager's accesses belong to no unit: an error in them touches no queue. -/
theorem State.cacheParity_queues (s : State) (ctx va : Nat) : (s.cacheParity none ctx va).1.queues = s.queues := by
  unfold State.cacheParity
  dsimp only
  split
  · rfl
  · next r hr =>
    obtain ⟨f, x, hf⟩ := s.inject_is 6 12 (some ctx)
    have hq : (s.inject 6 12 (some ctx)).1.queues = s.queues := by rw [hf]
    change State.queues (Prod.fst (if (s.inject 6 12 (some ctx)).2 = .clean then _ else _)) = _
    split
    · exact hq
    · exact hq

/-- The first write of CONSUMER leaves a tenant queue's row as it is, whatever becomes of it. -/
theorem State.qmSend_cons_sameRow (hq : q ≠ 0) (va : Nat) (data : Bytes) :
    (s.queue q).SameRow ((s.qmSend (qmWrite q va data .consWrite)).queue q) := by
  unfold State.qmSend
  dsimp only [qmWrite, qmReads]
  rw [if_neg hq]
  split
  · refine State.sameRow_of_queues ?_ q
    rw [State.startWalk_queues]
  · dsimp only [State.qmLost]
    rw [if_neg hq]
    exact State.enterError_sameRow (s.latchFault ..) ..
  · have hp := s.cacheParity_queues (s.ctxOf q) va
    split
    · next v hcache _ =>
      rw [hcache] at hp
      refine State.sameRow_of_queues ?_ q
      rw [State.startWalk_queues]
      exact hp
    · next v hcache _ =>
      rw [hcache] at hp
      split
      · obtain ⟨r, hr⟩ := State.countAccess_is ..
        rw [hr]
        exact State.sameRow_of_queues hp q
      · exact State.sameRow_of_queues hp q
    · exact State.sameRow_of_queues rfl q

theorem State.queue_setReg (s : State) (k : Nat) (v : Word) (q : Nat) : (s.setReg k v).queue q = s.queue q := rfl

/-- A new queue whose CONSUMER is written keeps its row. -/
theorem State.consWritten_sameRow (hq : q ≠ 0) (x : Queue) (va : Nat) (data : Bytes) :
    x.SameRow (((((s.setQueue q x).setReg (rkey Reg.qmQcnt q) 0).qmSend (qmWrite q va data .consWrite))).queue q) := by
  have h := State.qmSend_cons_sameRow (s := (s.setQueue q x).setReg (rkey Reg.qmQcnt q) 0) hq va data
  rwa [State.queue_setReg, State.setQueue_queue_self] at h

theorem State.askIdx_sameRow (s : State) (q : Nat) :
    (s.queue q).SameRow (((s.onQueue q (fun x => { x with idxAgain := true })).wantFetch q).queue q) := by
  rw [State.queue_of_queues (State.wantFetch_queues ..)]
  cases hx : tget s.queues q with
  | none =>
    have hs : s.onQueue q (fun x => { x with idxAgain := true }) = s := by rw [State.onQueue, tmod, hx]
    rw [hs]
    exact ⟨rfl, rfl, rfl, rfl, rfl⟩
  | some x =>
    rw [State.onQueue_queue_self hx, State.queue_of_tget hx]
    exact ⟨rfl, rfl, rfl, rfl, rfl⟩

/-- CREATE_QUEUE with its domains on. -/
theorem State.createRun_queue (hq : leAt c.entry 16 2 ≠ 0)
    (hon : ((s.adminWait.settleDomains.groupDomains (leAt c.entry 20 1) ++ s.adminWait.settleDomains.liftDomains).all
      s.adminWait.settleDomains.domainOn) = true) :
    (createdQueue c.entry).SameRow ((s.createRun c).queue (leAt c.entry 16 2)) := by
  unfold State.createRun
  dsimp only
  rw [if_pos hon, State.queue_of_queues (State.adminRecord_queues ..)]
  generalize s.adminWait.settleDomains = t, createdQueue c.entry = x, leAt c.entry 16 2 = q at hq ⊢
  have hsent := State.consWritten_sameRow (s := t) hq x (x.idx + 32) (leBytes 4 x.cons)
  split
  · exact hsent.trans (State.askIdx_sameRow ..)
  · exact hsent

/-- Settles O43: each command is its checks and its work on the named queue. -/
theorem adminCommandsChangeTheirQueue : Obligations.AdminCommandsChangeTheirQueue := by
  unfold Obligations.AdminCommandsChangeTheirQueue
  intro s c rest hi hc hb hr
  have hh : s.AdminHead c := ⟨by rw [hc]; rfl, hb, hr⟩
  refine ⟨fun i st w h => ?_, fun x hx hs => ⟨fun hop hg => ?_, fun hop hg => ?_, fun hop hg => ?_, fun hop hg => ?_, fun hop hg => ?_⟩,
    fun hop hg hon => ?_⟩
  · simp only [Prod.mk.injEq] at h
    rcases h with ⟨rfl, hop, hstop⟩ | ⟨rfl, hop, hstop⟩ | ⟨rfl, hop, hstop⟩ | ⟨rfl, hop, hstop⟩ | ⟨rfl, hop, hstop⟩ | ⟨rfl, hop, hstop⟩ |
      ⟨rfl, hop, hstop⟩ | ⟨rfl, hop, hstop⟩
    · exact adminRow_create.stops hi hh hop hstop
    · exact adminRow_destroy.stops hi hh hop hstop
    · exact adminRow_enable.stops hi hh hop hstop
    · exact adminRow_disable.stops hi hh hop hstop
    · exact adminRow_reset.stops hi hh hop hstop
    · exact adminRow_modify.stops hi hh hop hstop
    · exact adminRow_resume.stops hi hh hop hstop
    · exact adminRow_abandon.stops hi hh hop hstop
  · exact ⟨s.destroyRun c, adminRow_destroy.runs hi hh hop hg, State.destroyRun_queue hs⟩
  · obtain ⟨n, hn⟩ := State.enableRun_queue hx
    exact ⟨s.enableRun c, adminRow_enable.runs hi hh hop hg, by rw [hn], by rw [hn], by rw [hn], by rw [hn]⟩
  · exact ⟨s.disableRun c, adminRow_disable.runs hi hh hop hg, State.disableRun_queue hx⟩
  · exact ⟨s.resetRun c, adminRow_reset.runs hi hh hop hg, State.resetRun_queue hx⟩
  · exact ⟨s.modifyRun c, adminRow_modify.runs hi hh hop hg, State.modifyRun_queue hx⟩
  · have hq : leAt c.entry 16 2 ≠ 0 := by
      unfold State.createCheck at hg
      cases hgate : s.adminGate c.entry (fun x => x.state == .absent) with
      | none => exact State.adminGate_tenant hgate
      | some r => rw [hgate] at hg; cases hg
    obtain ⟨hring, hctx, hcons, hlog, hweight⟩ := State.createRun_queue hq hon
    exact ⟨s.createRun c, adminRow_create.runs hi hh hop hg, hring, hctx, hcons, hlog, hweight⟩

end Sys2Proof.Machine
end

section
/-! PROOFS. Entries read from a ring, and entries of a recorded group (R126, R316, R335, R339, R613). -/

namespace Sys2Proof.Machine

variable {s t : State} {q i : Nat} {x : Queue} {data : Bytes} {d : Desc}

/-! ### Entries of a ring -/

/-- The read that an answer belongs to has gone: requests and arbitration have changed, and nothing else. -/
theorem State.answered_is (s : State) (r : MemReq) : ∃ l a, (s.passOn r).dropReq r.id = { s with reqs := l, drr := a } := by
  obtain ⟨l, a, h⟩ := s.passOn_is r
  rw [h]
  exact ⟨_, _, rfl⟩

/-- ENTRY_READ_RESPONSE while the block issues. -/
theorem exec_entryReadResponse_acts {r : MemReq} {err : Bool} (hi : s.issuing = true) (hx : (s.queue q).entOut = some i)
    (hf : s.reqs.find? (fun r => r.owner == .ent q i && r.answerable) = some r) :
    exec (.entryReadResponse q data err) s = .next { State.pump ((if r.failed err then ((s.passOn r).dropReq r.id).entLost q i
      else ((s.passOn r).dropReq r.id).entReturn q i (r.result data)).wantFetch q) with pending := s.pending } := by
  rw [exec_entryReadResponse, execEntryReadResponse, whenIssuing_acts hi, hx]
  dsimp only
  rw [hf]

/-- An entry of an ENABLED queue that reads one entry at a time is taken. -/
theorem State.entReturn_takes (hx : tget s.queues q = some x) (he : x.state = .enabled) (hs : x.entStale = false) (hb : s.boundedQ q = true) :
    s.entReturn q i data = (s.setQueue q { x with entOut := none }).takeEntry q i data := by
  unfold State.entReturn
  dsimp only
  rw [State.queue_of_tget hx, he, hs, if_neg (by simp), if_pos hb]

theorem idxAdd_self (hi : i < 2 ^ 32) : idxAdd i (2 ^ 32 - ([] : List Bytes).length) = i := by
  simp only [idxAdd, List.length_nil]
  omega

/-- A chain that passes the checks of its reading waits for admission (R316). -/
theorem State.chainFetched_sound {f : Nat} {es : List Bytes} (hx : tget s.queues q = some x) (hst : (fetchStatus es).1 = 0) (hm : marked es = false) :
    s.chainFetched q f es = { s with
      ids := s.ids + 1
      queues := tput s.queues q { x with chains := x.chains ++ [{ first := f, entries := es, stamp := s.ids, waited := false }] } } := by
  obtain ⟨w, hw⟩ : ∃ w, fetchStatus es = (0, w) := ⟨_, Prod.ext hst rfl⟩
  have hadd := State.onQueue_of_some hx (fun x => { x with chains := x.chains ++ [{ first := f, entries := es, stamp := s.ids, waited := false }] })
  unfold State.chainFetched
  rw [hm, hw]
  exact congrArg State.useId hadd

/-- Of an entry that ends its chain and passes the checks of its reading, the queue keeps a chain that waits (R316). -/
theorem State.takeEntry_chain (hq : q ≠ 0) (hx : s.queue q = x) (hp : x.part = []) (hi : i < 2 ^ 32) (hf : framed x i data = true)
    (hl : hLast (headOf data) = true) (hst : (fetchStatus [data]).1 = 0) (hm : marked [data] = false) : ∃ n, s.takeEntry q i data =
      { s with
        ids := s.ids + 1
        queues := tput (tput s.queues q { x with part := [], next := idxAdd i 1, pr := n }) q { x with
          part := [], next := idxAdd i 1, pr := n, chains := x.chains ++ [{ first := i, entries := [data], stamp := s.ids, waited := false }] } } := by
  refine ⟨if idxDist x.cons x.pr < idxDist x.cons (idxAdd i 1) then idxAdd i 1 else x.pr, ?_⟩
  unfold State.takeEntry
  rw [if_neg hq]
  dsimp only
  rw [hx, hp, idxAdd_self hi, if_pos hf, if_pos hl, if_neg hq]
  exact State.chainFetched_sound (s := s.setQueue q _) (tget_tput_self ..) hst hm

/-- An entry of a tenant queue that breaks the framing puts the queue into ERROR (R335). -/
theorem State.takeEntry_unframed (hq : q ≠ 0) (hx : s.queue q = x) (hp : x.part = []) (hi : i < 2 ^ 32) (hf : framed x i data = false)
    (hc : x.coversIdx i = true) : s.takeEntry q i data = s.enterError q 2 i 0 := by
  unfold State.takeEntry
  rw [if_neg hq]
  dsimp only
  rw [hx, hp, idxAdd_self hi, if_neg (by simp [hf]), if_neg hq, if_pos hc]

/-- One of the admin queue is fatal (R335). -/
theorem State.takeEntry_unframed_admin (hx : s.queue 0 = x) (hp : x.part = []) (hi : i < 2 ^ 32) (hf : framed x i data = false) :
    ∃ a, s.takeEntry 0 i data = ({ s with admin := a } : State).raiseFatal 0x01 i := by
  refine ⟨{ s.admin with recent := (s.admin.recent ++ [(i, data)]).drop (s.admin.recent.length - 15) }, ?_⟩
  unfold State.takeEntry
  rw [if_pos rfl]
  have hu : ({ s with admin := { s.admin with recent := (s.admin.recent ++ [(i, data)]).drop (s.admin.recent.length - 15) } } : State).queue 0 = x := hx
  generalize ({ s with admin := { s.admin with recent := (s.admin.recent ++ [(i, data)]).drop (s.admin.recent.length - 15) } } : State) = u at hu ⊢
  dsimp only
  rw [hu, hp, idxAdd_self hi, if_neg (by simp [hf]), if_pos rfl]

/-- An entry that a tenant queue cannot read puts it into ERROR (R335). -/
theorem State.entLost_covered (hq : q ≠ 0) (hx : tget s.queues q = some x) (hs : x.entStale = false) (hc : x.coversIdx i = true) :
    s.entLost q i = (s.onQueue q (fun x => { x with entOut := none, halfEntry := none, entStale := false })).enterError q 3 i 0 := by
  have hcov : ((s.onQueue q (fun x => { x with entOut := none, halfEntry := none, entStale := false })).queue q).coversIdx i = true := by
    rw [State.onQueue_queue_self hx]
    exact hc
  unfold State.entLost
  rw [if_neg hq]
  dsimp only
  rw [State.queue_of_tget hx, hs, if_neg (by simp), if_pos hcov]

theorem State.enterError_descs (s : State) (q reason index status : Nat) : (s.enterError q reason index status).descs = s.descs := by
  unfold State.enterError
  dsimp only
  split
  · obtain ⟨g, y, h⟩ := ((s.setQueue q { s.queue q with
      state := .error, errReason := reason, errStatus := status, errIndex := index }).evQm 0).queueFlash_is q 2 reason index 0
    rw [h]
    rfl
  · rfl

/-! ### Entries of a recorded group -/

/-- REPLAY_ENTRY_READ_RESPONSE while the block issues. -/
theorem exec_replayEntryReadResponse_acts {did : Nat} {r : MemReq} {err : Bool} (hi : s.issuing = true) (hd : s.desc did = some d)
    (hf : s.reqs.find? (fun r => r.owner == .replayEnt did && r.answerable) = some r) :
    exec (.replayEntryReadResponse did data err) s = .next { State.pump (State.pumpReplays (if r.failed err then
      ((s.passOn r).dropReq r.id).replayLost did false 0x30 (d.groupBase + 128 * (d.replayEnt + d.replayPart.length))
      else ((s.passOn r).dropReq r.id).replayTake d (r.result data))) with pending := s.pending } := by
  rw [exec_replayEntryReadResponse, execReplayEntryReadResponse, whenIssuing_acts hi, hf, hd]

/-- The first entry of a group that cannot be read ends the REPLAY with its address. -/
theorem State.replayLost_first {did va : Nat} (hd : s.desc did = some d) (hs : d.replayStatus = 0) :
    (s.replayLost did false 0x30 va).desc did =
      some { d with replayOut := false, replayStatus := 0x30, replayWord1 := word va, replayEnded := true } := by
  have h := State.desc_onDesc_self (f := fun d => if false = true then { d with replayOut := false, replayFault := some va, phase := .saving }
    else { d with replayOut := false, replayStatus := if d.replayStatus = 0 then 0x30 else d.replayStatus,
                  replayWord1 := if d.replayStatus = 0 then word va else d.replayWord1, replayEnded := true }) hd rfl
  rw [if_neg (by decide), if_pos hs, if_pos hs] at h
  exact h

/-- An entry that breaks the framing of its group ends the group with a descriptor of its own. -/
theorem State.replayTake_malformed (hbad : recordedOk d data = false) : ∃ e, e ∈ (s.replayTake d data).descs ∧ e.parent = some d.id ∧
    e.status = 0x10 ∧ e.phase = .finishing := by
  unfold State.replayTake
  dsimp only
  rw [if_neg (by simp [hbad])]
  exact ⟨_, List.mem_append_right _ List.mem_cons_self, rfl, rfl, rfl⟩

/-- A middle entry of a chain joins it. -/
theorem State.replayTake_middle (hd : s.desc d.id = some d) (hok : recordedOk d data = true) (hl : hLast (headOf data) = false) :
    (s.replayTake d data).desc d.id = some { d with replayOut := false, replayPart := d.replayPart ++ [data] } ∧
      (s.replayTake d data).descs.length = s.descs.length := by
  have hset : (s.setDesc { d with replayOut := false }).desc d.id = some { d with replayOut := false } := State.desc_setDesc_self (e := { d with replayOut := false }) hd
  unfold State.replayTake
  dsimp only
  rw [if_pos hok, if_neg (by simp [hl])]
  refine ⟨State.desc_onDesc_self (f := fun e => { e with replayPart := d.replayPart ++ [data] }) hset rfl, ?_⟩
  simp only [State.onDesc, State.setDesc, List.length_map]

/-- Settles O42, by what becomes of the entry that has been read. -/
theorem entriesAreFramedIntoChains : Obligations.EntriesAreFramedIntoChains := by
  unfold Obligations.EntriesAreFramedIntoChains
  refine ⟨fun s q i r x data hi hsort hx hout hstale hf hdata hok he hb hp hi32 => ?_, fun s d r data hi hd hf hdata hok hst => ?_⟩
  · obtain ⟨l, a, ht⟩ := s.answered_is r
    have hact := fun err => exec_entryReadResponse_acts (data := data) (err := err) hi ((congrArg Queue.entOut (State.queue_of_tget hx)).trans hout) hf
    rw [ht, hdata] at hact
    have hread : ({ s with reqs := l, drr := a } : State).entReturn q i data =
        (({ s with reqs := l, drr := a } : State).setQueue q { x with entOut := none }).takeEntry q i data := State.entReturn_takes hx he hstale hb
    have hgood := hact false
    rw [hok, if_neg (by decide), hread] at hgood
    have hq' := State.setQueue_queue_self ({ s with reqs := l, drr := a } : State) q { x with entOut := none }
    refine ⟨fun hfr hlast hq hst hm => ?_, fun hfr hq hc => ?_, fun hfr hq => ?_, fun hq hc hfail => ?_⟩
    · obtain ⟨n, hn⟩ := State.takeEntry_chain (x := { x with entOut := none }) hq hq' hp hi32 hfr hlast hst hm
      rw [hn] at hgood
      refine ⟨_, hgood, ?_⟩
      obtain ⟨o, ho⟩ := State.wantFetch_is _ q
      rw [ho]
      have hqueue := tget_tput_self (tput (tput s.queues q { x with entOut := none }) q { x with entOut := none, part := [], next := idxAdd i 1, pr := n }) q
        { x with entOut := none, part := [], next := idxAdd i 1, pr := n,
                 chains := x.chains ++ [{ first := i, entries := [data], stamp := s.ids, waited := false }] }
      rw [State.queue_of_tget hqueue]
      exact ⟨rfl, rfl, rfl, he, rfl, rfl⟩
    · rw [State.takeEntry_unframed (x := { x with entOut := none }) hq hq' hp hi32 hfr hc] at hgood
      refine ⟨_, hgood, ?_⟩
      rw [State.queue_of_queues (State.wantFetch_queues ..), State.enterError_queue_self (by rw [hq']; exact he), hq']
      refine ⟨rfl, rfl, rfl, rfl, ?_⟩
      obtain ⟨o, ho⟩ := State.wantFetch_is _ q
      rw [ho]
      exact State.enterError_descs ..
    · subst hq
      obtain ⟨b, hfatal⟩ := State.takeEntry_unframed_admin (x := { x with entOut := none }) hq' hp hi32 hfr
      rw [hfatal] at hgood
      refine ⟨_, hgood, ?_⟩
      obtain ⟨o, ho⟩ := State.wantFetch_is _ 0
      rw [ho]
      obtain ⟨hnormal, hnone, -⟩ := issuing_iff.mp hi
      obtain ⟨-, hmode⟩ := normal_iff.mp hnormal
      exact ⟨State.raiseFatal_fatal_of_none (s := { s.setQueue 0 { x with entOut := none } with admin := b, reqs := l, drr := a }) hnone (by
        change s.kp.mode ≠ _
        rw [hmode]
        decide) 0x01 i, rfl⟩
    · have hbad := hact true
      rw [hfail, if_pos rfl, State.entLost_covered (s := { s with reqs := l, drr := a }) hq hx hstale hc] at hbad
      refine ⟨_, hbad, ?_⟩
      have hq2 := State.onQueue_queue_self (s := { s with reqs := l, drr := a }) hx (fun x => { x with entOut := none, halfEntry := none, entStale := false })
      rw [State.queue_of_queues (State.wantFetch_queues ..), State.enterError_queue_self (by rw [hq2]; exact he), hq2]
      exact ⟨rfl, rfl, rfl⟩
  · obtain ⟨l, a, ht⟩ := s.answered_is r
    have hact := fun err => exec_replayEntryReadResponse_acts (data := data) (err := err) hi hd hf
    rw [ht, hdata] at hact
    have hgood := hact false
    rw [hok, if_neg (by decide)] at hgood
    refine ⟨fun hfail => ?_, fun hbad => ?_, fun hrec hlast => ?_⟩
    · have hbad := hact true
      rw [hfail, if_pos rfl] at hbad
      exact ⟨_, _, hbad, State.replayLost_first (s := { s with reqs := l, drr := a }) hd hst, rfl, rfl, rfl, rfl⟩
    · obtain ⟨e, hmem, he⟩ := State.replayTake_malformed (s := { s with reqs := l, drr := a }) hbad
      exact ⟨_, e, hgood, hmem, he⟩
    · obtain ⟨hd', hlen⟩ := State.replayTake_middle (s := { s with reqs := l, drr := a }) hd hrec hlast
      exact ⟨_, _, hgood, hd', rfl, rfl, hlen⟩

end Sys2Proof.Machine
end

section
/-! PROOFS. Streams that halt, are resumed or abandoned (R278, R294, R298, R301 to R305). -/

namespace Sys2Proof.Machine

variable {s t : State} {d : Desc} {c : AdminCmd} {rest : List AdminCmd}

/-! ### Where an address leads -/

/-- A route depends on the die and on the retirement of ports and banks. -/
theorem State.routePa_congr (hd : t.die = s.die) (hm : t.reg Reg.hmRetiredMport = s.reg Reg.hmRetiredMport)
    (hb : t.reg Reg.hmRetiredBank = s.reg Reg.hmRetiredBank) (pa : Nat) : t.routePa pa = s.routePa pa := by
  have hn : t.nMports = s.nMports := by rw [State.nMports, hd]; rfl
  have hport : t.hasMport = s.hasMport := by
    funext p
    rw [State.hasMport, State.mportFuse, State.mportRetired, hd, hm, hn]
    rfl
  have hbank : t.hasBank = s.hasBank := by
    funext b
    rw [State.hasBank, State.bankFuse, State.bankRetired, State.nBanks, hd, hb]
    rfl
  have hxp : t.xpOf = s.xpOf := by
    funext r
    rw [State.xpOf, hd]
    rfl
  have hsize : t.bankBytes = s.bankBytes := by rw [State.bankBytes, State.grade, hd]; rfl
  unfold State.routePa
  rw [hport, hbank, hxp, hd, hn, hsize]

theorem mvCnt_ne_retired (g : Nat) : Reg.hmRetiredMport ≠ Reg.mvCnt g ∧ Reg.hmRetiredBank ≠ Reg.mvCnt g := by
  simp only [Reg.mvCnt, Reg.hmRetiredMport, Reg.hmRetiredBank]
  omega

/-! ### The halt -/

theorem exec_streamHalt_acts (hi : s.issuing = true) (did : Nat) :
    exec (.streamHalt did) s = .next { State.pump (s.halt did) with pending := s.pending } :=
  whenIssuing_acts (f := fun s => (s.halt did).pump) hi

theorem State.halt_waits (hd : s.desc d.id = some d) (hp : d.phase = .faulted) (h : s.streamOut d.id = true ∨ s.blocked d = false) :
    s.halt d.id = s := by
  have hgo : (d.phase == .faulted && !s.streamOut d.id && s.blocked d) = false := by rcases h with h | h <;> simp [h]
  unfold State.halt
  rw [hd]
  dsimp only
  rw [hgo, hp]
  rfl

/-- Whether a halted stream keeps its staging (R202). -/
def State.haltHold (s : State) (d : Desc) : Bool := d.geo.wholeLimb && d.staged && fld (s.act (Reg.lnCfg (s.groupOf d.queue))) 9 0 != 0

/-- A stream that has halted, before its record is written (R301). -/
def State.haltedForm (s : State) (d : Desc) : Desc :=
  { d.loseCores (s.haltHold d) with
    phase := .saving, mover := none, liftSlot := none, liftWait := false, holdLeft := s.haltHold d, staged := s.haltHold d, stagingWait := false,
    ins := if s.haltHold d then d.ins else d.ins.filter (fun u => u.unit.obj == 3), results := [], recent := [], runs := [], wr := none,
    stagedLimbs := s.limbsStaged d, outDone := false, haltedAt := s.ids, resumeStamp := 0 }

/-- The state in which it has halted. -/
def State.haltedAt (s : State) (d : Desc) : State :=
  (((s.setDesc (s.haltedForm d)).useId).useFree).bump (Reg.mvCnt (s.groupOf d.queue)) 47 32

/-- The request that writes its saved-position record (R298). -/
def State.saveReq (s : State) (d : Desc) (dest : Dest) : MemReq :=
  mkReq dest ((s.queue d.queue).save + 256 * d.recIdx) 256 .write (.save d.id) ctlMaster d.queue 0xFFFF none (s.isLc d.queue)
    (s.saveRecord { d with holdLeft := s.haltHold d }) (List.replicate 256 true)

theorem State.halt_saves {dest : Dest} (hd : s.desc d.id = some d) (hp : d.phase = .faulted) (ho : s.streamOut d.id = false)
    (hb : s.blocked d = true) (hr : s.routePa ((s.queue d.queue).save + 256 * d.recIdx) = some dest) :
    s.halt d.id = (s.haltedAt d).addReq (s.saveReq d dest) := by
  have hgo : (d.phase == .faulted && !s.streamOut d.id && s.blocked d) = true := by simp [hp, ho, hb]
  obtain ⟨hm, hbank⟩ := mvCnt_ne_retired (s.groupOf d.queue)
  have hroute : (s.haltedAt d).routePa ((s.queue d.queue).save + 256 * d.recIdx) = some dest := by
    rw [State.routePa_congr (s := s) (t := s.haltedAt d) rfl ((State.reg_bump_ne _ _ _ hm).trans rfl) ((State.reg_bump_ne _ _ _ hbank).trans rfl), hr]
  unfold State.halt
  rw [hd]
  dsimp only
  rw [hgo, if_pos rfl]
  unfold State.haltedAt State.haltedForm State.haltHold at hroute
  unfold State.haltStream
  dsimp only
  rw [hroute]
  rfl

/-! ### Resuming and abandoning -/

/-- The read of a saved-position record (Table 8-3, step 5). -/
def State.saveRead (s : State) (d : Desc) (dest : Dest) : MemReq :=
  mkReq dest ((s.queue d.queue).save + 256 * d.recIdx) 256 .read (.saveRead d.id) ctlMaster d.queue 0xFFFF none (s.isLc d.queue) [] []

theorem State.resumeRun_one {dest : Dest} (hc : s.admin.cmds = c :: rest) (hh : s.haltedAtSlot (leAt c.entry 16 2) (leAt c.entry 28 4) = [d])
    (ho : opcodeOf d.entries ≠ 0x0E) (hr : s.routePa ((s.queue d.queue).save + 256 * d.recIdx) = some dest) :
    s.resumeRun c = s.adminWait.addReq (s.saveRead d dest) := by
  have hone : s.adminWait.resumeOne d = s.adminWait.addReq (s.saveRead d dest) := by
    unfold State.resumeOne
    rw [if_neg ho]
    dsimp only
    rw [show (s.adminWait.queue d.queue).save = (s.queue d.queue).save from rfl, State.routePa_congr (t := s.adminWait) (s := s) rfl rfl rfl, hr]
    rfl
  have hcmds : (s.adminWait.addReq (s.saveRead d dest)).admin.cmds = { c with begun := true } :: rest := by
    change s.adminWait.admin.cmds = _
    unfold State.adminWait
    rw [hc]
  have hout : (s.adminWait.addReq (s.saveRead d dest)).reqs.any (fun r => match r.owner with | .saveRead _ => true | _ => false) = true := by
    change (s.reqs ++ _).any _ = true
    rw [List.any_append]
    exact Bool.or_true _
  unfold State.resumeRun
  rw [hh, List.foldl_cons, List.foldl_nil, hone]
  unfold State.resumeRead
  rw [hcmds]
  refine if_neg fun h => ?_
  obtain ⟨_, _, h⟩ := h
  rw [Bool.not_eq_true'] at h
  exact absurd (hout.symm.trans h) (by decide)

theorem State.adminRecord_descs (s : State) (c : AdminCmd) (st : Nat) (w : Word) : (s.adminRecord c st w).descs = s.descs := by
  unfold State.adminRecord
  dsimp only
  split
  · split <;> rfl
  · split <;> rfl

/-- A stream that is abandoned (R305). -/
def Desc.abandoned (d : Desc) : Desc := { endWith d.dropStaging 0x21 (word ((d.fault.map (·.va)).getD 0)) with chan := none }

theorem State.abandonRun_one (hh : s.haltedAtSlot (leAt c.entry 16 2) (leAt c.entry 28 4) = [d]) (ho : opcodeOf d.entries ≠ 0x0E)
    (hch : d.chan = none) : s.abandonRun c = (s.setDesc d.abandoned).adminRecord c 0 0 := by
  have hone : s.abandonOne d = s.setDesc d.abandoned := by
    unfold State.abandonOne
    rw [if_neg ho]
    dsimp only
    rw [hch]
    rfl
  unfold State.abandonRun
  rw [hh, List.foldl_cons, List.foldl_nil, hone]

/-! ### Placement -/

theorem Desc.foldl_want_is (us : List FUnit) (e : Desc) : ∃ l, us.foldl Desc.want e = { e with ins := l } := by
  induction us generalizing e with
  | nil => exact ⟨e.ins, rfl⟩
  | cons u us ih =>
    obtain ⟨l, h⟩ := ih (e.want u)
    exact ⟨l, h⟩

/-- A resumed stream that had begun runs again from its saved position, in the epoch given. -/
theorem Desc.runAgain_keeps (d : Desc) (epoch : Nat) : (d.runAgain epoch).id = d.id ∧ (d.runAgain epoch).mover = d.mover ∧
    (d.runAgain epoch).pos = d.pos ∧ (d.runAgain epoch).fault = d.fault ∧ (d.runAgain epoch).geo = d.geo ∧
    (d.runAgain epoch).phase = .running ∧ (d.runAgain epoch).epoch = epoch ∧ (d.runAgain epoch).began = d.began := by
  unfold Desc.runAgain
  dsimp only
  obtain ⟨l, h⟩ := Desc.foldl_want_is d.sideAgain _
  rw [h]
  exact ⟨rfl, rfl, rfl, rfl, rfl, rfl, rfl, rfl⟩

theorem Desc.resumed_began (m epoch : Nat) (h : d.began = true) : d.resumed m epoch =
    ({ d with mover := some m, fault := none, faultIsHalt := false, faultCause := 0, results := [], resumeStamp := 0, slotWaited := false } : Desc).runAgain
      epoch := if_pos h

theorem Desc.resumed_fresh (m epoch : Nat) (h : d.began = false) : d.resumed m epoch =
    { d with mover := some m, fault := none, faultIsHalt := false, faultCause := 0, results := [], resumeStamp := 0, slotWaited := false,
             phase := .ready } := if_neg (by simp [h])

theorem Desc.resumed_keeps (d : Desc) (m epoch : Nat) : (d.resumed m epoch).id = d.id ∧ (d.resumed m epoch).mover = some m ∧
    (d.resumed m epoch).pos = d.pos ∧ (d.resumed m epoch).fault = none ∧ (d.resumed m epoch).geo = d.geo := by
  cases h : d.began with
  | true =>
    rw [Desc.resumed_began m epoch h]
    obtain ⟨hid, hm, hp, hf, hg, -⟩ := Desc.runAgain_keeps
      { d with mover := some m, fault := none, faultIsHalt := false, faultCause := 0, results := [], resumeStamp := 0, slotWaited := false } epoch
    exact ⟨hid, hm, hp, hf, hg⟩
  | false =>
    rw [Desc.resumed_fresh m epoch h]
    exact ⟨rfl, rfl, rfl, rfl, rfl⟩

/-- A resumed stream in its turn takes a slot of the mover that is picked; beside it only a count of limbs changes. -/
theorem State.placeResumed_placed {m : Nat} (hd : s.desc d.id = some d) (hp : d.phase = .resuming) (hst : d.resumeStamp ≠ 0)
    (hg : s.hasGroup (s.groupOf d.queue) = true) (ht : s.resumeTurn d = true) (hm : s.pickMover (s.groupOf d.queue) = some m) :
    ∃ r, s.placeResumed d.id = { s.setDesc (d.resumed m s.commit.epoch) with regs := r } := by
  have hgo : (d.phase != .resuming || d.resumeStamp == 0) = false := by simp [hp, hst]
  unfold State.placeResumed
  rw [hd]
  dsimp only
  rw [hgo, hg, ht, hm]
  dsimp only
  rw [if_neg (by decide), if_neg (by decide)]
  split
  · exact ⟨s.regs, rfl⟩
  · exact ⟨_, rfl⟩

/-- Settles O44: the halt with its record, then resuming, abandoning and placement. -/
theorem streamsHaltResumeAndEnd : Obligations.StreamsHaltResumeAndEnd := by
  unfold Obligations.StreamsHaltResumeAndEnd
  refine ⟨fun s d hi hd hp => ⟨fun h => ?_, fun dest ho hb hs hr => ?_⟩,
    fun s c rest d dest hi hc hb hrec hchk hh ho => ⟨fun hop hr => ?_, fun hop hch hd => ?_⟩, fun s d m hi hd hp hst hg ht hm => ?_⟩
  · rw [exec_streamHalt_acts hi, State.halt_waits hd hp h]
  · have hdesc : (s.haltedAt d).desc d.id = some (s.haltedForm d) := State.desc_setDesc_self (e := s.haltedForm d) hd
    have hcount := State.regFld_bump (s := ((s.setDesc (s.haltedForm d)).useId).useFree) hs (k := Reg.mvCnt (s.groupOf d.queue))
      (hi := 47) (lo := 32) (by decide)
    rw [exec_streamHalt_acts hi, State.halt_saves hd hp ho hb hr]
    obtain ⟨held, he⟩ := (s.haltedAt d).addReq_is (s.saveReq d dest)
    exact ⟨_, { s.saveReq d dest with id := (s.haltedAt d).ids, held := held }, s.haltedForm d, rfl, by rw [he]; rfl, rfl, rfl, rfl, rfl, rfl, rfl,
      hdesc, rfl, rfl, rfl, rfl, rfl, rfl, rfl, rfl, rfl, rfl, hcount⟩
  · have hhead : s.AdminHead c := ⟨by rw [hc]; rfl, hb, hrec⟩
    obtain ⟨held, he⟩ := s.adminWait.addReq_is (s.saveRead d dest)
    refine ⟨_, { s.saveRead d dest with id := s.adminWait.ids, held := held }, adminRow_resume.runs hi hhead hop hchk, ?_⟩
    rw [State.resumeRun_one hc hh ho hr]
    exact ⟨by rw [he]; rfl, rfl, rfl, rfl, rfl, rfl⟩
  · have hhead : s.AdminHead c := ⟨by rw [hc]; rfl, hb, hrec⟩
    refine ⟨_, d.abandoned, adminRow_abandon.runs hi hhead hop hchk, ?_, rfl, rfl, rfl, rfl⟩
    rw [State.abandonRun_one hh ho hch, State.desc_of_descs (State.adminRecord_descs ..)]
    exact State.desc_setDesc_self (e := d.abandoned) hd
  · obtain ⟨r, hplace⟩ := State.placeResumed_placed hd hp hst hg ht hm
    obtain ⟨hid, hmover, hpos, hfault, hgeo⟩ := d.resumed_keeps m s.commit.epoch
    refine ⟨_, d.resumed m s.commit.epoch, whenIssuing_acts (f := fun s => (s.placeResumed d.id).settleCores.pump.wakeReady) hi, ?_, hmover, hpos,
      hfault, hgeo, by rw [hplace]; rfl, fun h => ?_, fun h => ?_⟩
    · rw [hplace]
      have hset := State.desc_setDesc_self (s := s) (e := d.resumed m s.commit.epoch) (d := d) (by rw [hid]; exact hd)
      rw [hid] at hset
      exact hset
    · rw [Desc.resumed_began _ _ h]
      obtain ⟨-, -, -, -, -, hphase, hepoch, hbegan⟩ := Desc.runAgain_keeps
        { d with mover := some m, fault := none, faultIsHalt := false, faultCause := 0, results := [], resumeStamp := 0, slotWaited := false } s.commit.epoch
      exact ⟨hphase, hepoch, hbegan.trans h⟩
    · rw [Desc.resumed_fresh _ _ h]
      exact ⟨rfl, h⟩

end Sys2Proof.Machine
end

section
/-! PROOFS. Admission (R97, R276, R278, R279, R281, R298, R376). -/

namespace Sys2Proof.Machine

variable {s t u : State} {q : Nat} {a : Adm} {d : Desc}

/-! ### What the places of requests change -/

/-- A queue but for the place of its request, and a descriptor but for its own (R281). -/
def Queue.unasked (x : Queue) : Queue := { x with slotAsk := 0 }
def Desc.unstamped (d : Desc) : Desc := { d with resumeStamp := 0 }

/-- Two states that differ in the places of requests for a slot. -/
structure Stamps (s t : State) : Prop where
  rest : ∃ qs ds n, t = { s with queues := qs, descs := ds, ids := n }
  queues : ∀ q, (tget t.queues q).map Queue.unasked = (tget s.queues q).map Queue.unasked
  descs : t.descs.map Desc.unstamped = s.descs.map Desc.unstamped

theorem Stamps.refl (s : State) : Stamps s s := ⟨⟨s.queues, s.descs, s.ids, rfl⟩, fun _ => rfl, rfl⟩

theorem Stamps.trans (h : Stamps s t) (h' : Stamps t u) : Stamps s u := by
  obtain ⟨⟨qs, ds, n, e⟩, hq, hd⟩ := h
  obtain ⟨⟨qs', ds', n', e'⟩, hq', hd'⟩ := h'
  refine ⟨⟨qs', ds', n', ?_⟩, fun q => (hq' q).trans (hq q), hd'.trans hd⟩
  rw [e', e]

theorem Stamps.foldl {α : Type} {f : State → α → State} (hf : ∀ u x, Stamps u (f u x)) (l : List α) (s : State) : Stamps s (l.foldl f s) := by
  induction l generalizing s with
  | nil => exact .refl s
  | cons x l ih => exact (hf s x).trans (ih (f s x))

theorem tget_map_snd {α : Type} (l : Tab α) (f : Nat × α → α) (k : Nat) : tget (l.map (fun p => (p.1, f p))) k = (tget l k).map (fun x => f (k, x)) := by
  induction l with
  | nil => rfl
  | cons p l ih =>
    obtain ⟨j, x⟩ := p
    rw [List.map_cons, tget_cons, tget_cons, ih]
    by_cases h : j = k
    · rw [if_pos h, if_pos h, h]
      rfl
    · rw [if_neg h, if_neg h]

theorem Stamps.mapQueues (f : Nat × Queue → Queue) (hf : ∀ p, (f p).unasked = p.2.unasked) :
    Stamps s { s with queues := s.queues.map (fun p => (p.1, f p)) } := by
  refine ⟨⟨_, s.descs, s.ids, rfl⟩, fun q => ?_, rfl⟩
  dsimp only
  rw [tget_map_snd, Option.map_map]
  exact Option.map_congr fun x _ => hf (q, x)

theorem Stamps.onQueue (f : Queue → Queue) (hf : ∀ x, (f x).unasked = x.unasked) : Stamps s (s.onQueue q f) := by
  refine ⟨⟨_, s.descs, s.ids, rfl⟩, fun r => ?_, rfl⟩
  change (tget (tmod s.queues q f) r).map _ = _
  unfold tmod
  split
  · rfl
  · next x hx =>
    rw [tget_tput]
    split
    · next h =>
      rw [h, hx]
      exact congrArg some (hf x)
    · rfl

theorem Stamps.onDesc {did : Nat} (f : Desc → Desc) (hf : ∀ d, (f d).unstamped = d.unstamped) : Stamps s (s.onDesc did f) := by
  refine ⟨⟨s.queues, _, s.ids, rfl⟩, fun _ => rfl, ?_⟩
  change (s.descs.map _).map _ = _
  rw [List.map_map]
  refine List.map_congr_left fun e _ => ?_
  rw [Function.comp]
  split
  · exact hf e
  · rfl

theorem Stamps.useId : Stamps s s.useId := ⟨⟨s.queues, s.descs, _, rfl⟩, fun _ => rfl, rfl⟩

theorem State.stampRequests_stamps (s : State) : Stamps s s.stampRequests := by
  unfold State.stampRequests
  dsimp only
  refine Stamps.trans ?_ (.foldl (fun u x => ?_) _ _)
  · refine Stamps.trans ?_ (.foldl (fun u x => ?_) _ _)
    · refine Stamps.mapQueues _ fun p => ?_
      split <;> rfl
    · split
      · exact .trans (.onQueue (fun x => { x with slotAsk := u.ids }) fun _ => rfl) .useId
      · exact .refl u
  · exact .trans (.onDesc (fun d => { d with resumeStamp := u.ids }) fun _ => rfl) .useId

theorem Stamps.group (h : Stamps s t) (q : Nat) : t.groupOf q = s.groupOf q := by
  have hq := congrArg (Option.map Queue.group) (h.queues q)
  rw [Option.map_map, Option.map_map] at hq
  exact congrArg (·.getD 0) hq

theorem Stamps.limit (h : Stamps s t) (q : Nat) : (t.queue q).limit = (s.queue q).limit := by
  have key : ∀ u : State, (u.queue q).limit = ((tget u.queues q).map (fun x => x.unasked.limit)).getD Queue.blank.limit := fun u => by
    rw [State.queue]
    cases tget u.queues q <;> rfl
  rw [key, key]
  have hq := congrArg (Option.map Queue.limit) (h.queues q)
  rw [Option.map_map, Option.map_map] at hq
  exact congrArg (·.getD Queue.blank.limit) hq

/-- Each descriptor is still there, under its queue and its record. -/
theorem Stamps.desc {e : Desc} (h : Stamps s t) (he : e ∈ s.descs) : ∃ e' ∈ t.descs, e'.queue = e.queue ∧ e'.recIdx = e.recIdx := by
  have hmem : e.unstamped ∈ t.descs.map Desc.unstamped := h.descs ▸ List.mem_map_of_mem he
  obtain ⟨e', he', heq⟩ := List.mem_map.mp hmem
  have hqueue : e'.unstamped.queue = e.unstamped.queue := by rw [heq]
  have hrec : e'.unstamped.recIdx = e.unstamped.recIdx := by rw [heq]
  exact ⟨e', he', hqueue, hrec⟩

/-! ### What ADMIT does -/

theorem State.nextAdm_queue (h : s.nextAdm q = some a) : a.queue = q := by
  unfold State.nextAdm at h
  dsimp only at h
  split at h
  · split at h
    · obtain rfl := Option.some.inj h; rfl
    · cases h
  · split at h
    · split at h
      · obtain rfl := Option.some.inj h; rfl
      · cases h
    · cases h

theorem exec_admission_acts (hi : s.issuing = true) (hinj : bit (s.reg Reg.tpInj) 63 = false) (q : Nat) :
    exec (.admission q) s = .next { State.pump (State.pumpReplays (s.stampRequests.admitNext q)) with pending := s.pending } := by
  have hecc : s.controlEcc q = s := by rw [State.controlEcc, State.inject_disarmed hinj]
  refine (whenIssuing_acts (f := fun s => ((((s.controlEcc q).stampRequests).admitNext q).pumpReplays).pump) hi).trans ?_
  dsimp only
  rw [hecc]

/-- A descriptor that ends at its admission. -/
def Adm.ended (a : Adm) (st : Nat) (w : Word) : Desc :=
  { Desc.blank with queue := a.queue, first := a.first, entries := a.entries, parent := a.parent, iter := a.iter, ent := a.ent,
                    phase := .finishing, status := st, word1 := w }

theorem State.admitNext_none (h : s.nextAdm q = none) : s.admitNext q = s := by
  unfold State.admitNext
  rw [h]

theorem State.admitNext_fails {st : Nat} {w : Word} (h : s.nextAdm q = some a) (hf : s.admitFail q a.entries = some (st, w)) :
    s.admitNext q = (s.takeAdm a).addDesc (a.ended st w) := by
  unfold State.admitNext
  rw [h]
  dsimp only
  rw [hf, ← State.nextAdm_queue h]
  rfl

theorem State.admitNext_enters (h : s.nextAdm q = some a) (hf : s.admitFail q a.entries = none) (hw : waitsIn a.entries = [])
    (hs : isStream a.entries = false) : s.admitNext q = s.enter a none := by
  unfold State.admitNext
  rw [h]
  dsimp only
  rw [hf, hw, hs]
  rfl

theorem State.admitNext_places {m : Nat} (h : s.nextAdm q = some a) (hf : s.admitFail q a.entries = none) (hw : waitsIn a.entries = [])
    (hs : isStream a.entries = true) (hg : s.hasGroup (s.groupOf q) = true) (ht : s.slotTurn a = true)
    (hm : s.pickMover (s.groupOf q) = some m) : s.admitNext q = s.enter a (some m) := by
  unfold State.admitNext
  rw [h]
  dsimp only
  rw [hf, hw, hs, hg, ht, hm]
  rfl

/-! ### The new descriptor -/

theorem State.settled_self (s : State) : s.settled s = s := by
  have hg : s.grown s = [] := by
    rw [State.grown, List.map_eq_nil_iff, List.filter_eq_nil_iff]
    intro p _
    simp
  rw [State.settled, hg]
  cases s.settleFuel <;> rfl

/-- A descriptor without waits registers none. -/
theorem State.registerWaits_none {did : Nat} (hd : s.desc did = some d) (hw : d.waits = []) : s.registerWaits did = s := by
  have hclaim : s.registerClaim did = s := by
    unfold State.registerClaim
    rw [hd]
    dsimp only
    rw [hw]
    rfl
  unfold State.registerWaits
  rw [hd]
  dsimp only
  rw [hw, hclaim]
  exact s.settled_self

/-- A descriptor that is added under a fresh identity is found under it. -/
theorem State.desc_addDesc (hs : ∀ e ∈ s.descs, e.id < s.ids) (d : Desc) : (s.addDesc d).desc s.ids = some { d with id := s.ids, order := s.ids } := by
  have hnone : s.descs.find? (fun e => e.id == s.ids) = none := by
    rw [List.find?_eq_none]
    intro e he
    have hlt := hs e he
    simpa using hlt.ne
  change (s.descs ++ [_]).find? _ = _
  rw [List.find?_append, hnone, Option.none_or, List.find?_cons, beq_self_eq_true]

theorem State.takeAdm_is (h : a.parent = none) : ∃ qs, s.takeAdm a = { s with queues := qs } := by
  unfold State.takeAdm
  rw [h]
  exact ⟨_, rfl⟩

theorem State.freshDesc_waits (hw : waitsIn a.entries = []) (m : Option Nat) : (s.freshDesc a m).waits = [] ∧ (s.freshDesc a m).phase = .ready := by
  unfold State.freshDesc
  rw [hw]
  exact ⟨rfl, rfl⟩

/-- A descriptor without waits is added last, and beside it only its queue changes. -/
theorem State.enter_adds (hids : s.idsRise = true) (hp : a.parent = none) (hw : waitsIn a.entries = [])
    (hlend : bit (s.reg Reg.byLendStat) (s.groupOf a.queue) = false) (m : Option Nat) :
    ∃ qs, s.enter a m = { s with queues := qs, descs := s.descs ++ [{ s.freshDesc a m with id := s.ids, order := s.ids }], ids := s.ids + 1 } := by
  obtain ⟨qs, hq⟩ := State.takeAdm_is (s := s) hp
  obtain ⟨-, hlt⟩ := State.idsRise_iff.mp hids
  have hwake : (({ s with queues := qs } : State).addDesc (s.freshDesc a m)).wakeGroup (s.groupOf a.queue) =
      ({ s with queues := qs } : State).addDesc (s.freshDesc a m) := if_neg (by
    rw [show (({ s with queues := qs } : State).addDesc (s.freshDesc a m)).reg Reg.byLendStat = s.reg Reg.byLendStat from rfl, hlend]
    decide)
  refine ⟨qs, ?_⟩
  unfold State.enter
  dsimp only
  rw [hq, hwake]
  exact State.registerWaits_none (State.desc_addDesc (s := { s with queues := qs }) hlt _) (State.freshDesc_waits hw m).1

theorem of_searchUp {f : Nat → Bool} {n k i : Nat} (h : searchUp f n k = some i) : f i = true := by
  induction n generalizing k with
  | zero => cases h
  | succ n ih =>
    unfold searchUp at h
    split at h
    · next hk =>
      obtain rfl := Option.some.inj h
      exact hk
    · exact ih h

/-- A record index below the limit is one that no descriptor of the queue holds (R298). -/
theorem State.freeRecord_free {e : Desc} (hr : s.freeRecord q < noRecord) (he : e ∈ s.descs) (hq : e.queue = q) : e.recIdx ≠ s.freeRecord q := by
  unfold State.freeRecord at hr ⊢
  cases h : searchUp (fun r => !s.descs.any (fun d => d.queue == q && d.recIdx == r)) noRecord 0 with
  | none => rw [h] at hr; exact absurd hr (lt_irrefl _)
  | some r =>
    have hfree := of_searchUp h
    rw [Bool.not_eq_true', List.any_eq_false] at hfree
    have hne := hfree e he
    rw [Option.getD_some]
    simpa [hq] using hne

theorem State.freeRecord_of_slotTurn (h : s.slotTurn a = true) : s.freeRecord a.queue < (s.queue a.queue).limit := by
  simp only [State.slotTurn, Bool.and_eq_true] at h
  obtain ⟨⟨hreq, _⟩, _⟩ := h
  obtain ⟨b, hb⟩ := Option.isSome_iff_exists.mp hreq
  have hok := (Option.filter_eq_some_iff.mp hb).2
  simp only [Bool.and_eq_true, State.limitRoom, decide_eq_true_eq] at hok
  obtain ⟨⟨_, _, hlimit⟩, _⟩ := hok
  exact hlimit

/-- Settles O45: the places of requests first, then the next chain by its checks. -/
theorem admissionTakesTheNextChain : Obligations.AdmissionTakesTheNextChain := by
  unfold Obligations.AdmissionTakesTheNextChain
  intro s q hi hinj hids
  have hact := exec_admission_acts hi hinj q
  have hst := s.stampRequests_stamps
  have hwids : s.stampRequests.idsRise = true := (Keeps.stampRequests (calm := false) (.refl s)).idsRise hids
  obtain ⟨qs, ds, n, hrest⟩ := hst.rest
  have hreg : s.stampRequests.reg Reg.byLendStat = s.reg Reg.byLendStat := by rw [hrest]; rfl
  have hwin : s.stampRequests.win = s.win := by rw [hrest]
  have hgroup := hst.group q
  have hhas : s.stampRequests.hasGroup (s.groupOf q) = s.hasGroup (s.groupOf q) := by rw [hrest]; rfl
  dsimp only
  generalize s.stampRequests = w at *
  refine ⟨fun hn => ?_, fun a st x hn hf => ?_, fun a hn hf hw hs hp hlend => ?_, fun a m hn hf hw hs hp hg ht hm hlend => ?_⟩
  · rw [hact, State.admitNext_none hn]
  · rw [State.admitNext_fails hn hf] at hact
    refine ⟨_, { a.ended st x with id := (w.takeAdm a).ids, order := (w.takeAdm a).ids }, hact, List.mem_append_right _ List.mem_cons_self, rfl, rfl, rfl, rfl,
      rfl, ?_⟩
    refine Eq.trans ?_ hwin
    unfold State.takeAdm
    split <;> rfl
  · obtain rfl := State.nextAdm_queue hn
    obtain ⟨qs', henter⟩ := State.enter_adds hwids hp hw (by rw [hreg, hgroup, hlend]) none
    rw [State.admitNext_enters hn hf hw hs, henter] at hact
    obtain ⟨hwaits, hphase⟩ := State.freshDesc_waits (s := w) hw none
    exact ⟨_, _, hact, rfl, rfl, rfl, rfl, hphase, rfl, hwaits, hwin⟩
  · obtain rfl := State.nextAdm_queue hn
    obtain ⟨qs', henter⟩ := State.enter_adds hwids hp hw (by rw [hreg, hgroup, hlend]) (some m)
    rw [State.admitNext_places hn hf hw hs (by rw [hgroup, hhas, hg]) ht (by rw [hgroup, hm]), henter] at hact
    have hlimit := State.freeRecord_of_slotTurn ht
    rw [hst.limit] at hlimit
    refine ⟨_, _, hact, rfl, rfl, rfl, (State.freshDesc_waits hw (some m)).2, rfl, hlimit, fun hmax e he hq => ?_⟩
    obtain ⟨e', he', hqueue, hrec⟩ := hst.desc he
    rw [← hrec]
    exact State.freeRecord_free (hlimit.trans_le hmax) he' (hqueue.trans hq)

end Sys2Proof.Machine
end

section
/-! PROOFS. Answers of memory: reads, acknowledgements and the atomic stage (R176, R178, R416, R417, R434, R531). -/

namespace Sys2Proof.Machine

variable {s t : State} {r : MemReq} {d : Desc} {i did obj va off : Nat} {data : Bytes}

/-! ### The commands -/

theorem exec_memoryReadResponse_acts {poison : Bool} (hs : s.serving = true) (hr : s.req i = some r) (hp : r.plainRead = true)
    (ht : s.inTurn r = true) : exec (.memoryReadResponse i data poison false) s = .next { State.wakeReady (State.pump (State.settleCores
      (State.pumpReplays ((s.passOn r).memRead r data poison false)))) with pending := s.pending } := by
  rw [exec_memoryReadResponse, execMemoryReadResponse, whenServing_acts hs, hr]
  dsimp only
  rw [hp, ht]
  rfl

/-- The reads that MEMORY_READ_RESPONSE answers. -/
theorem MemReq.plainRead_src (hk : r.kind = .read) (hb : r.toBank = false) (hh : r.held = false) (ho : r.owner = .src did obj va off) :
    r.plainRead = true := by simp [MemReq.plainRead, hk, hb, hh, ho]

theorem MemReq.plainRead_flush {e : Nat} (hk : r.kind = .read) (hb : r.toBank = false) (hh : r.held = false) (ho : r.owner = .flush e) :
    r.plainRead = true := by simp [MemReq.plainRead, hk, hb, hh, ho]

theorem exec_memoryWriteAck_waits (hr : s.req i = some r) (h : s.inTurn r = false ∨ r.posted = true) :
    exec (.memoryWriteAck i) s = .next s := by
  have hgo : ((r.kind == .write) && !r.toBank && !r.posted && !r.held && s.inTurn r) = false := by rcases h with h | h <;> simp [h]
  rw [exec_memoryWriteAck, execMemoryWriteAck, whenServing, hr]
  dsimp only
  rw [hgo]
  split <;> rfl

theorem exec_memoryWriteAck_acts (hs : s.serving = true) (hr : s.req i = some r) (hk : r.kind = .write) (hb : r.toBank = false)
    (hh : r.held = false) (hp : r.posted = false) (ht : s.inTurn r = true) :
    exec (.memoryWriteAck i) s = .next { State.pump (State.pumpReplays ((s.passOn r).writeDone r)) with pending := s.pending } := by
  have hgo : ((r.kind == .write) && !r.toBank && !r.posted && !r.held && s.inTurn r) = true := by simp [hk, hb, hh, hp, ht]
  rw [exec_memoryWriteAck, execMemoryWriteAck, whenServing_acts hs, hr]
  dsimp only
  rw [hgo]
  rfl

theorem exec_atomicRmw_acts {old : Bytes} {err : Bool} (hn : s.normal = true) (hr : s.req i = some r) (hk : r.kind = .rmw)
    (hb : r.toBank = false) (hh : r.held = false) (ht : s.inTurn r = true) :
    exec (.atomicRmw i old err) s = .next { State.pump ((s.passOn r).atomicStep r old err) with pending := s.pending } := by
  have hgo : ((r.kind == .rmw) && !r.toBank && !r.held && s.inTurn r) = true := by simp [hk, hb, hh, ht]
  rw [exec_atomicRmw, execAtomicRmw, whenNormal_acts hn, hr]
  dsimp only
  rw [hgo]
  rfl

/-! ### The check of a port's answer -/

theorem State.portEcc_clean (harm : bit (s.reg Reg.tpInj) 63 = false) (r : MemReq) : s.portEcc r false false = (s, false, false) := by
  unfold State.portEcc
  split
  · rw [State.inject_disarmed harm]
    rfl
  · rfl

/-- A poisoned answer counts; the routes stay as they are. -/
theorem State.portEcc_poison (harm : bit (s.reg Reg.tpInj) 63 = false) (hlim : fld (s.act Reg.hmCfg) 31 24 = 0) (r : MemReq) :
    ∃ f w, s.portEcc r true false = ({ s with regs := f, sup := { s.sup with ueWin := w } }, true, false) ∧
      ∀ pa, ({ s with regs := f, sup := { s.sup with ueWin := w } } : State).routePa pa = s.routePa pa := by
  unfold State.portEcc
  split
  · next p hp =>
    rw [State.inject_disarmed harm]
    obtain ⟨f, w, h, -, hreg⟩ := State.countEcc_is hlim 10 p
    refine ⟨f, w, ?_, fun pa => State.routePa_congr (s := s) (t := { s with regs := f, sup := { s.sup with ueWin := w } }) rfl
      (hreg _ (by decide) (by decide) (by decide)) (hreg _ (by decide) (by decide) (by decide)) pa⟩
    change (s.countEcc 10 p true, true, false) = _
    rw [h]
  · exact ⟨s.regs, s.sup.ueWin, rfl, fun _ => rfl⟩

/-! ### Reads of streams -/

/-- A stream without an index list to check has nothing to check. -/
theorem State.scanList_none (hd : s.desc did = some d) (hs : d.geo.scans = false) (n : Nat) : State.scanList did n s = s := by
  cases n with
  | zero => rfl
  | succ n =>
    unfold State.scanList
    rw [hd]
    exact if_pos (by simp [hs])

theorem State.takeSeeds_none (hd : s.desc did = some d) (hs : d.geo.seedCount = 0) : s.takeSeeds did = s := by
  unfold State.takeSeeds
  rw [hd]
  exact if_pos (.inl hs)

/-- The data of a part join its unit, once. -/
def InUnit.join (off : Nat) (data : Bytes) (u : InUnit) : InUnit :=
  if u.parts.any (fun p => p.1 == off) then u else { u with parts := u.parts ++ [(off, data)] }

theorem State.srcReturn_joins (harm : bit (s.reg Reg.tpInj) 63 = false) (hd : s.desc did = some d) (hp : d.phase = .running)
    (hs : d.geo.scans = false) (hz : d.geo.seedCount = 0) :
    s.srcReturn did obj va off data = s.setDesc (d.onUnit obj va (InUnit.join off data)) := by
  obtain rfl := State.desc_id hd
  have hd' : (s.setDesc (d.onUnit obj va (InUnit.join off data))).desc d.id = some (d.onUnit obj va (InUnit.join off data)) :=
    State.desc_setDesc_self (e := d.onUnit obj va (InUnit.join off data)) hd
  have hgo : (!(d.phase == .running || d.phase == .faulted)) = false := by simp [hp]
  unfold State.srcReturn
  rw [hd]
  refine (if_neg (by simp [hgo])).trans ?_
  unfold InUnit.join at hd' ⊢
  dsimp only
  split
  · rfl
  · split
    · rfl
    · rw [State.inject_disarmed (by exact harm)]
      dsimp only
      rw [State.scanList_none hd' hs, State.takeSeeds_none hd' hz]

theorem State.memRead_src (harm : bit (s.reg Reg.tpInj) 63 = false) (ho : r.owner = .src did obj va off) :
    s.memRead r data false false = (s.dropReq r.id).srcReturn did obj va off (fitTo r.len data) := by
  unfold State.memRead
  rw [State.portEcc_clean harm, ho]
  rfl

/-- The first poisoned answer asks for its piece again (R531). -/
theorem State.memRead_again {dest : Dest} (harm : bit (s.reg Reg.tpInj) 63 = false) (hlim : fld (s.act Reg.hmCfg) 31 24 = 0)
    (ho : r.owner = .src did obj va off) (ha : r.again = false) (hroute : s.routePa r.pa = some dest) :
    ∃ held, (s.memRead r data true false).reqs =
        (s.dropReq r.id).reqs ++ [{ r with dest := dest, held := held, sent := false, again := true }] ∧
      (s.memRead r data true false).descs = s.descs := by
  obtain ⟨f, w, h, hpa⟩ := State.portEcc_poison harm hlim r
  have hre : s.memRead r data true false = ({ s with regs := f, sup := { s.sup with ueWin := w } } : State).reissue { r with again := true } := by
    unfold State.memRead
    rw [h, ho, ha]
    rfl
  rw [hre]
  unfold State.reissue
  dsimp only
  rw [hpa, hroute]
  exact ⟨_, rfl, rfl⟩

/-- The second one ends the stream at the unit. -/
theorem State.memRead_fails (harm : bit (s.reg Reg.tpInj) 63 = false) (hlim : fld (s.act Reg.hmCfg) 31 24 = 0)
    (ho : r.owner = .src did obj va off) (ha : r.again = true) (hd : s.desc did = some d) (hp : d.phase = .running) :
    (s.memRead r data true false).desc did = some (endWith d 0x30 (word va)) ∧ (s.memRead r data true false).reqs = (s.dropReq r.id).reqs := by
  obtain ⟨f, w, h, -⟩ := State.portEcc_poison harm hlim r
  have hd' : (({ s with regs := f, sup := { s.sup with ueWin := w } } : State).dropReq r.id).desc did = some d := hd
  have hany : ((({ s with regs := f, sup := { s.sup with ueWin := w } } : State).dropReq r.id).desc did).any
      (fun d => d.phase == .running || d.phase == .faulted) = true := by rw [hd', Option.any_some, hp]; rfl
  have hre : s.memRead r data true false = (({ s with regs := f, sup := { s.sup with ueWin := w } } : State).dropReq r.id).dataCheck did va := by
    unfold State.memRead
    rw [h, ho, ha]
    exact if_pos hany
  have hend : (if d.ended then d else endWith d 0x30 (word va)) = endWith d 0x30 (word va) := if_neg (by simp [Desc.ended, hp])
  rw [hre, ← hend]
  exact ⟨State.desc_onDesc_self (f := fun d => if d.ended then d else endWith d 0x30 (word va)) hd' (by rw [hend]; rfl), rfl⟩

theorem State.memRead_flush {e : Nat} (ho : r.owner = .flush e) (hdest : r.dest = .ext e) :
    s.memRead r data false false = s.flushDone e r := by
  unfold State.memRead State.portEcc
  rw [ho, hdest]
  rfl

theorem State.passOn_ext {e : Nat} (hdest : r.dest = .ext e) : s.passOn r = s := by
  unfold State.passOn
  rw [hdest]

/-! ### Writes and the atomic stage -/

theorem State.runAllLate_none (h : ∀ d ∈ s.descs, d.late = []) : s.runAllLate = s := by
  have hnone : s.descs.filter (fun d => !d.late.isEmpty) = [] := List.filter_eq_nil_iff.mpr fun d hd => by simp [h d hd]
  rw [State.runAllLate, hnone]
  rfl

theorem State.freeIdx_unfed (h : ∀ d, s.desc did = some d → d.geo.fed = false) : s.freeIdx did = s := by
  unfold State.freeIdx
  split
  · rfl
  · next d hd => exact if_neg (by simp [h d hd])

/-- A write that nothing waits for leaves the outstanding accesses. -/
theorem State.writeDone_dst {pos : Nat} (ho : r.owner = .dst did obj va pos) (hl : ∀ d ∈ s.descs, d.late = [])
    (hf : ∀ d, s.desc did = some d → d.geo.fed = false) : s.writeDone r = s.dropReq r.id := by
  unfold State.writeDone
  rw [ho]
  dsimp only
  rw [State.runAllLate_none (s := s.dropReq r.id) hl, State.freeIdx_unfed (s := s.dropReq r.id) hf]

theorem State.atomicStep_sum {pos : Nat} {old : Bytes} (ho : r.owner = .rmw did pos) : s.atomicStep r old false =
    ({ s with reqs := s.reqs.map (fun q => if q.id = r.id then { q with kind := .write, data := (r.sumOf old).1 } else q) } : State).onDesc did
      (fun d => { d with replaced := d.replaced + (r.sumOf old).2 }) := by
  unfold State.atomicStep State.addReplaced
  rw [ho]
  rfl

/-- A stream that has not ended ends with DATA_CHECK, and no signal of a slice waits any more. -/
theorem State.failStream_live {w : Nat} (hd : s.desc did = some d) (hl : ∀ e ∈ s.descs, e.late = []) (he : d.ended = false) :
    (s.failStream did (faultStatus 1) w).desc did = some (endWith d 0x30 (word w)) ∧
      ∀ e ∈ (s.failStream did (faultStatus 1) w).descs, e.late = [] := by
  have hend : (if d.ended && d.status != 0 then d else endWith d (faultStatus 1) (word w)) = endWith d 0x30 (word w) := if_neg (by simp [he])
  constructor
  · rw [← hend]
    exact State.desc_onDesc_self (f := fun d => if d.ended && d.status != 0 then d else endWith d (faultStatus 1) (word w)) hd (by rw [hend]; rfl)
  · intro e he
    obtain ⟨x, hx, rfl⟩ := List.mem_map.mp he
    split
    · dsimp only
      split
      · exact hl x hx
      · rfl
    · exact hl x hx

/-- A stream whose unit the atomic stage cannot read. -/
theorem State.atomicStep_fails {pos : Nat} {old : Bytes} (ho : r.owner = .rmw did pos) (hl : ∀ d ∈ s.descs, d.late = [])
    (hd : s.desc did = some d) (he : d.ended = false) :
    ∃ w, (s.atomicStep r old true).desc did = some (endWith { d with rmwOut := false } 0x30 w) ∧
      (s.atomicStep r old true).reqs = (s.dropReq r.id).reqs := by
  have hd1 : ((s.dropReq r.id).onDesc did (fun d => { d with rmwOut := false })).desc did = some { d with rmwOut := false } :=
    State.desc_onDesc_self (s := s.dropReq r.id) (f := fun d => { d with rmwOut := false }) hd rfl
  have hl1 : ∀ e ∈ ((s.dropReq r.id).onDesc did (fun d => { d with rmwOut := false })).descs, e.late = [] := fun e he => by
    obtain ⟨x, hx, rfl⟩ := List.mem_map.mp he
    split
    · exact hl x hx
    · exact hl x hx
  have hre : s.atomicStep r old true = (((s.dropReq r.id).onDesc did (fun d => { d with rmwOut := false })).failStream did (faultStatus 1)
      ((s.dropReq r.id).unitVa did pos)).runAllLate := by
    unfold State.atomicStep State.lostAccess
    rw [if_pos rfl, ho]
    rfl
  have hreqs : ((s.dropReq r.id).onDesc did (fun d => { d with rmwOut := false })).reqs = (s.dropReq r.id).reqs := rfl
  generalize (s.dropReq r.id).onDesc did (fun d => { d with rmwOut := false }) = u at hd1 hl1 hre hreqs
  generalize (s.dropReq r.id).unitVa did pos = w at hre
  obtain ⟨hfail, hl2⟩ := State.failStream_live (w := w) hd1 hl1 he
  rw [State.runAllLate_none hl2] at hre
  exact ⟨word w, by rw [hre]; exact hfail, by rw [hre]; exact hreqs⟩

/-- Settles O49, by the access that is answered. -/
theorem memoryAnswersReachTheirStreams : Obligations.MemoryAnswersReachTheirStreams := by
  unfold Obligations.MemoryAnswersReachTheirStreams
  intro s i r hr hb hh harm hlim hlate
  obtain ⟨l, a, hpass⟩ := s.passOn_is r
  refine ⟨fun did obj va off d data hs ht hk ho hd hp => ?_, fun e data hs ht hk ho hdest => ?_, fun hk h => exec_memoryWriteAck_waits hr h,
    fun did obj va pos hs hk ho ht hpo hfed => ?_, fun did pos old d hn hk ho ht hd => ⟨?_, fun he => ?_⟩⟩
  · have hact := fun bad => exec_memoryReadResponse_acts (data := data) (poison := bad) hs hr (MemReq.plainRead_src hk hb hh ho) ht
    refine ⟨fun hscan hseed => ?_, fun dest hag hroute => ?_, fun hag => ?_⟩
    · have hjoin : (s.passOn r).memRead r data false false =
          ((s.passOn r).dropReq r.id).setDesc (d.onUnit obj va (InUnit.join off (fitTo r.len data))) := by
        rw [State.memRead_src (by rw [hpass]; exact harm) ho]
        exact State.srcReturn_joins (by rw [hpass]; exact harm) (by rw [hpass]; exact hd) hp hscan hseed
      exact (hact false).trans (by rw [hjoin]; rfl)
    · obtain ⟨held, hreqs, hdescs⟩ := State.memRead_again (s := s.passOn r) (data := data) (by rw [hpass]; exact harm) (by rw [hpass]; exact hlim) ho hag
        (by rw [hpass]; exact hroute)
      exact ⟨_, held, hact true, hreqs, hdescs.trans (by rw [hpass])⟩
    · obtain ⟨hdesc, hreqs⟩ := State.memRead_fails (s := s.passOn r) (data := data) (by rw [hpass]; exact harm) (by rw [hpass]; exact hlim) ho hag
        (by rw [hpass]; exact hd) hp
      exact ⟨_, _, hact true, hdesc, rfl, rfl, rfl, hreqs⟩
  · refine (exec_memoryReadResponse_acts hs hr (MemReq.plainRead_flush hk hb hh ho) ht).trans ?_
    rw [State.passOn_ext hdest, State.memRead_flush ho hdest]
    rfl
  · rw [exec_memoryWriteAck_acts hs hr hk hb hh hpo ht, State.writeDone_dst ho (by rw [hpass]; exact hlate) (by rw [hpass]; exact hfed)]
  · rw [exec_atomicRmw_acts hn hr hk hb hh ht, State.atomicStep_sum ho]
  · obtain ⟨w, hdesc, hreqs⟩ := State.atomicStep_fails (s := s.passOn r) (old := old) ho (by rw [hpass]; exact hlate) (by rw [hpass]; exact hd) he
    exact ⟨_, _, exec_atomicRmw_acts hn hr hk hb hh ht, hdesc, rfl, rfl, rfl, hreqs⟩

end Sys2Proof.Machine
end

section
/-! PROOFS. A cycle of a mover with one stream (R282, R284, R497, R575). -/

namespace Sys2Proof.Machine

variable {s t : State} {d e : Desc} {m : Nat} {p : XPart} {dest : Dest}

/-! ### Descriptors under rising identities -/

theorem State.eq_of_id {x y : Desc} (h : s.idsRise = true) (hx : x ∈ s.descs) (hy : y ∈ s.descs) (hid : x.id = y.id) : x = y := by
  obtain ⟨hp, -⟩ := State.idsRise_iff.mp h
  have hnd : (s.descs.map Desc.id).Nodup := hp.imp fun hlt => hlt.ne
  exact List.inj_on_of_nodup_map hnd hx hy hid

theorem State.desc_of_mem (h : s.idsRise = true) (hd : d ∈ s.descs) : s.desc d.id = some d := by
  cases hf : s.desc d.id with
  | none => exact absurd (List.find?_eq_none.mp hf d hd) (by simp)
  | some y => rw [State.eq_of_id h (State.desc_mem hf) hd (State.desc_id hf)]

theorem State.setDesc_setDesc {f : Desc} (h : f.id = e.id) : (s.setDesc e).setDesc f = s.setDesc f := by
  rw [State.setDesc_eq s e]
  unfold State.setDesc State.onDesc
  dsimp only
  rw [List.map_map, h]
  congr 1
  refine List.map_congr_left fun x _ => ?_
  by_cases hx : x.id = e.id
  · simp [hx]
  · simp [hx]

/-- A change of the one stream of a mover leaves it there alone. -/
theorem State.onMover_setDesc (h : s.idsRise = true) (ho : s.onMover m = [d]) (hid : e.id = d.id) (hm : e.mover = d.mover) :
    (s.setDesc e).onMover m = [e] := by
  have hd : d ∈ s.onMover m := by rw [ho]; exact List.mem_cons_self
  obtain ⟨hmem, hdm⟩ := List.mem_filter.mp hd
  have hpred : ∀ x ∈ s.descs, ((fun d => d.mover == some m) ∘ fun x => if x.id = e.id then e else x) x = (x.mover == some m) := fun x hx => by
    rw [Function.comp]
    split
    · next hxe => rw [State.eq_of_id h hx hmem (hxe.trans hid), hm]
    · rfl
  unfold State.onMover State.setDesc at *
  dsimp only at ho ⊢
  rw [List.filter_map, List.filter_congr hpred, ho, List.map_singleton, if_pos hid.symm]

/-- A FENCE holds a stream, or does not, whatever has changed of the stream itself. -/
theorem State.fenced_setDesc (hid : e.id = d.id) (hq : e.queue = d.queue) (hk : ∀ c, e.key c = d.key c) : (s.setDesc e).fenced e = s.fenced d := by
  have hqueue : (s.setDesc e).queue = s.queue := rfl
  unfold State.fenced State.before
  dsimp only
  rw [hqueue, hid, hq, hk]
  unfold State.setDesc
  dsimp only
  rw [List.any_filter, List.any_filter, List.any_map]
  congr 1
  funext x
  by_cases hx : x.id = e.id
  · simp [hx, hid]
  · simp [hx]

/-! ### What a stream prepares -/

theorem State.wakeReady_none (h : s.reg Reg.byLendStat = 0) : s.wakeReady = s := by
  refine List.foldl_fixed' (fun g => ?_) (List.range 12)
  have hb : bit (s.reg Reg.byLendStat) g = false := by rw [h]; simp [bit]
  rw [hb]
  rfl

theorem State.planReads_none (hd : s.desc d.id = some d) (h : d.pending.isSome = true ∨ s.mayRead d = false) (n : Nat) :
    State.planReads d.id n s = s := by
  cases n with
  | zero => rfl
  | succ n =>
    unfold State.planReads
    rw [hd]
    exact if_pos (by rcases h with h | h <;> simp [h])

theorem State.prepRead_barred (hd : s.desc d.id = some d) (h : s.mayRead d = false) : s.prepRead d.id = s := by
  unfold State.prepRead
  rw [State.planReads_none hd (.inr h)]
  dsimp only
  rw [hd]
  exact if_pos (by simp [h])

theorem State.prepRead_planned {u : InUnit} {parts : List XPart} {rs : List Range} (hd : s.desc d.id = some d) (hu : d.pending = some u)
    (hl : s.lookRead d u.unit = .ok parts rs) : s.prepRead d.id = s := by
  unfold State.prepRead
  rw [State.planReads_none hd (.inl (by rw [hu]; rfl))]
  dsimp only
  rw [hd]
  dsimp only
  split
  · rfl
  · rw [hu]
    dsimp only
    rw [hl]

theorem State.makeNext_none (hd : s.desc d.id = some d) (h : s.mayWrite d = false ∨ d.wr.isSome = true) (n : Nat) : State.makeNext d.id n s = s := by
  cases n with
  | zero => rfl
  | succ n =>
    unfold State.makeNext
    rw [hd]
    exact if_pos (by rcases h with h | h <;> simp [h])

theorem State.prepWrite_barred (hd : s.desc d.id = some d) (h : s.mayWrite d = false) : s.prepWrite d.id = s := by
  unfold State.prepWrite
  rw [State.makeNext_none hd (.inl h)]
  dsimp only
  rw [hd]
  dsimp only
  split
  · rfl
  · exact if_pos (by simp [h])

theorem State.prepWrite_made {u : OutUnit} (hd : s.desc d.id = some d) (hu : d.wr = some u) (hp : u.parts ≠ []) (hc : ∀ x ∈ u.parts, x.chip = none) :
    s.prepWrite d.id = s := by
  have hchips : u.parts.filterMap (·.chip) = [] := List.filterMap_eq_nil_iff.mpr hc
  have hparts : u.parts.isEmpty = false := by simpa using hp
  unfold State.prepWrite
  rw [State.makeNext_none hd (.inr (by rw [hu]; rfl))]
  dsimp only
  rw [hd]
  dsimp only
  rw [hu]
  dsimp only
  split
  · rfl
  · rw [hparts, hchips]
    rfl

/-- The one stream of a mover that has nothing to prepare. -/
theorem State.moverPrep_none (ho : s.onMover m = [d]) (hd : s.desc d.id = some d) (hw : d.wakes = []) (hl : d.late = []) (hlines : d.lines = [])
    (hr : s.prepRead d.id = s) (hp : s.prepWrite d.id = s) : s.moverPrep m = s := by
  have hwake : s.askWakes d.id = s := by
    unfold State.askWakes
    rw [hd, Option.map_some, hw]
    rfl
  have hlate : State.runLate d.id 64 s = s := by
    unfold State.runLate
    rw [hd]
    dsimp only
    rw [hl]
  have hseal : s.sealIdle d.id = s := by
    unfold State.sealIdle
    rw [hd]
    dsimp only
    rw [hlines]
    rfl
  unfold State.moverPrep
  rw [ho, List.map_singleton]
  simp only [List.foldl_cons, List.foldl_nil, hwake, hr, hp, hlate, hseal]

/-! ### What it issues -/

theorem State.readyRead_barred (h : s.mayRead d = false) : s.readyRead d = none := by
  unfold State.readyRead
  exact if_pos (by simp [h])

theorem State.readyRead_piece {u : InUnit} {parts : List XPart} {rs : List Range} (hm : s.mayRead d = true) (hw : s.wakeHolds d.id true = false)
    (hu : d.pending = some u) (hl : s.lookRead d u.unit = .ok parts rs) (hp : pieceAt parts u.issued = some p)
    (hf : s.readsFit d (ceilDiv p.len 128) = true) (hb : s.bankFull d.id p.pa = false) : s.readyRead d = some (u, parts, p, rs) := by
  unfold State.readyRead
  rw [if_neg (by simp [hm, hw]), hu]
  dsimp only
  rw [hl]
  dsimp only
  rw [hp, Option.bind_some, if_pos (by simp [hf, hb])]

theorem State.readyWrite_barred (h : s.mayWrite d = false) : s.readyWrite d = none := by
  unfold State.readyWrite
  split
  · rfl
  · exact if_pos (by simp [h])

/-- A piece of a unit lies where its part does. -/
theorem pieceAt_chip {parts : List XPart} {off : Nat} (h : pieceAt parts off = some p) (hc : ∀ x ∈ parts, x.chip = none) : p.chip = none := by
  induction parts generalizing off with
  | nil => cases h
  | cons x l ih =>
    unfold pieceAt at h
    split at h
    · obtain rfl := Option.some.inj h
      exact hc x List.mem_cons_self
    · exact ih h fun y hy => hc y (List.mem_cons_of_mem _ hy)

theorem State.readyWrite_piece {u : OutUnit} (hm : s.mayWrite d = true) (hu : d.wr = some u) (ht : d.geo.toPort = false)
    (hp : pieceAt u.parts u.issued = some p) (hc : p.chip = none) (hw : s.wakeHolds d.id false = false) (hb : s.bankFull d.id p.pa = false) :
    s.readyWrite d = some p := by
  unfold State.readyWrite
  rw [hu]
  dsimp only
  rw [if_neg (by simp [hm]), if_neg (by simp [ht]), hp]
  dsimp only
  rw [hc]
  exact if_neg (by simp [hw, hb])

theorem State.cacheParity_clean (harm : bit (s.reg Reg.tpInj) 63 = false) (mover : Option Nat) (ctx va : Nat) :
    s.cacheParity mover ctx va = (s, false) := by
  unfold State.cacheParity
  dsimp only
  split
  · rfl
  · rw [State.inject_disarmed harm]
    rfl

/-- A state in which a stream has changed, registers count, and one access more is out. -/
def State.issued (s : State) (e : Desc) (f : RegFile) (r : MemReq) : State :=
  { s.setDesc e with regs := f, reqs := s.reqs ++ [r], ids := s.ids + 1 }

/-- The read of a piece of a unit (R282, R575). -/
def State.pieceRead (s : State) (d : Desc) (u : InUnit) (p : XPart) (dest : Dest) : MemReq :=
  mkReq dest p.pa p.len .read (.src d.id u.unit.obj u.unit.va u.issued) (s.masterOf d) d.queue (s.ctxOf d.queue)
    (some (s.tagOf (s.ctxOf d.queue))) (s.isLc d.queue) [] []

theorem State.issueRead_piece {u : InUnit} {parts : List XPart} {rs : List Range} (harm : bit (s.reg Reg.tpInj) 63 = false)
    (hd : s.desc d.id = some d) (hr : s.readyRead d = some (u, parts, p, rs)) (hroute : s.routePa p.pa = some dest) :
    ∃ f held, s.issueRead d.id = s.issued (d.readIssued u parts p.len) f { s.pieceRead d u p dest with id := s.ids, held := held } := by
  have hpar : (if u.issued = 0 then s.cacheParity d.mover (s.ctxOf d.queue) u.unit.va else (s, false)) = (s, false) := by
    rw [State.cacheParity_clean harm, ite_self]
  obtain ⟨f, hf⟩ := (s.setDesc (d.readIssued u parts p.len)).countAccess_is rs (u.unit.va + u.issued) p.len
  obtain ⟨held, hh⟩ := ({ s.setDesc (d.readIssued u parts p.len) with regs := f } : State).addReq_is (s.pieceRead d u p dest)
  refine ⟨f, held, ?_⟩
  unfold State.issueRead
  rw [hd]
  dsimp only
  rw [hr]
  dsimp only
  rw [hpar, hroute]
  dsimp only
  rw [hf]
  exact hh

/-- The write of a piece of a unit (R282, R575). -/
def State.pieceWrite (s : State) (d : Desc) (u : OutUnit) (p : XPart) (dest : Dest) : MemReq :=
  { mkReq dest p.pa p.len .write (.dst d.id u.obj u.va d.pos) (s.masterOf d) d.queue (s.ctxOf d.queue) (some u.tag) (s.isLc d.queue)
      ((u.data.drop u.issued).take p.len) ((u.enables.drop u.issued).take p.len) with unit := u.id, form := s.addFormOf d }

/-- A stream that has issued a piece of its unit. -/
def Desc.pieceOut (d : Desc) (u : OutUnit) (p : XPart) : Desc := { d with wr := some { u with issued := u.issued + p.len }, rmwOut := false }

theorem State.localPart_piece {u : OutUnit} (hop : d.geo.op ≠ 4) (hen : ((u.enables.drop u.issued).take p.len).any id = true)
    (hroute : s.routePa p.pa = some dest) :
    ∃ f held, s.localPart d u p = s.issued (d.pieceOut u p) f { s.pieceWrite d u p dest with id := s.ids, held := held } := by
  have hadd : (d.geo.op == 4 && u.obj == 1) = false := by simp [hop]
  obtain ⟨f, hf⟩ := (s.setDesc (d.pieceOut u p)).countAccess_is u.ranges (u.va + u.issued) p.len
  obtain ⟨held, hh⟩ := ({ s.setDesc (d.pieceOut u p) with regs := f } : State).addReq_is (s.pieceWrite d u p dest)
  refine ⟨f, held, ?_⟩
  have hpa : (s.setDesc (d.pieceOut u p)).routePa p.pa = some dest := (State.routePa_congr (s := s) rfl rfl rfl p.pa).trans hroute
  unfold State.localPart
  dsimp only
  simp only [hadd, Bool.false_and, Bool.false_eq_true, if_false, hen, Bool.not_true, Bool.or_false]
  unfold Desc.pieceOut at hpa hf hh ⊢
  rw [hpa]
  dsimp only
  rw [hf]
  exact hh

/-! ### The last piece of a unit -/

theorem State.setDesc_onDesc {f : Desc → Desc} (h : (f e).id = e.id) : (s.setDesc e).onDesc e.id f = s.setDesc (f e) := by
  unfold State.onDesc State.setDesc
  dsimp only
  rw [List.map_map, h]
  congr 1
  refine List.map_congr_left fun x _ => ?_
  by_cases hx : x.id = e.id
  · simp [hx]
  · simp [hx]

/-- A stream that has changed is still the same stream of its mover. -/
structure Desc.SameStream (d e : Desc) : Prop where
  id : e.id = d.id
  mover : e.mover = d.mover
  geo : e.geo = d.geo

theorem State.issued_setDesc {f : RegFile} {r : MemReq} {x : Desc} (h : x.id = e.id) : (s.issued e f r).setDesc x = s.issued x f r := by
  have hset : (s.issued e f r).setDesc x = { (s.setDesc e).setDesc x with regs := f, reqs := s.reqs ++ [r], ids := s.ids + 1 } := rfl
  rw [hset, State.setDesc_setDesc h]
  rfl

theorem State.issued_regs {f g : RegFile} {r : MemReq} : ({ s.issued e f r with regs := g } : State) = s.issued e g r := rfl

theorem State.desc_issued {f : RegFile} {r : MemReq} (hd : s.desc d.id = some d) (h : e.id = d.id) : (s.issued e f r).desc d.id = some e := by
  have hself : (s.setDesc e).desc e.id = some e := State.desc_setDesc_self (h.symm ▸ hd)
  rw [← h]
  exact hself

theorem State.bump_unless (s : State) (c : Prop) [Decidable c] (k hi lo n : Nat) : ∃ f, (if c then s else s.bump k hi lo n) = { s with regs := f } := by
  split
  · exact ⟨_, rfl⟩
  · exact ⟨_, rfl⟩

theorem State.takeNotes_is {did : Nat} (hd : s.desc did = some d) (z : Bool) (n : Notes) :
    ∃ f a b, s.takeNotes did z n = { s.setDesc { d with noted := a, replaced := b } with regs := f } := by
  obtain ⟨f, hf⟩ := s.bump_unless (n.sat = 0) (Reg.mvXformCnt (s.groupOf d.queue)) 31 0 n.sat
  obtain ⟨f', hf'⟩ := ({ s with regs := f } : State).bump_unless (n.nan = 0) (Reg.mvXformCnt (s.groupOf d.queue)) 47 32 n.nan
  unfold State.takeNotes
  rw [hd]
  dsimp only
  rw [hf, hf']
  cases d.liftSlot with
  | none => exact ⟨_, _, _, rfl⟩
  | some u =>
    dsimp only
    split
    · exact ⟨_, _, _, rfl⟩
    · split
      · exact ⟨_, _, _, rfl⟩
      · exact ⟨_, _, _, rfl⟩

theorem Desc.passTile_is (d : Desc) (i : List Nat) : ∃ c, d.passTile i = { d with cores := c } := by
  unfold Desc.passTile
  dsimp only
  split
  · split
    · split
      · exact ⟨_, rfl⟩
      · exact ⟨_, rfl⟩
    · exact ⟨_, rfl⟩
  · exact ⟨_, rfl⟩

theorem State.prune_is (s : State) (d : Desc) : ∃ a b, s.prune d = { d with runs := a, ins := b } := by
  unfold State.prune
  dsimp only
  split
  · exact ⟨_, _, rfl⟩
  · exact ⟨_, _, rfl⟩

theorem State.sliceSignals_none {did : Nat} (hd : s.desc did = some d) (h : d.sigs = [none, none]) (done : Nat) : s.sliceSignals did done = s := by
  simp [State.sliceSignals, hd, h]

/-- A stream that is past a unit. -/
structure Desc.PastUnit (d e : Desc) : Prop extends d.SameStream e where
  pos : e.pos = d.geo.headFrom (d.pos + 1)
  wr : e.wr = none

theorem State.prune_past (s : State) (d : Desc) :
    ∃ e, s.prune { d.passTile (d.geo.indexAt d.pos) with pos := d.geo.headFrom (d.pos + 1), outDone := false, wr := none } = e ∧
      d.PastUnit e ∧ e.sigs = d.sigs := by
  obtain ⟨c, hc⟩ := d.passTile_is (d.geo.indexAt d.pos)
  obtain ⟨a, b, hp⟩ := s.prune_is { d with cores := c, pos := d.geo.headFrom (d.pos + 1), outDone := false, wr := none }
  rw [hc]
  dsimp only
  rw [hp]
  exact ⟨_, rfl, ⟨⟨rfl, rfl, rfl⟩, rfl, rfl⟩, rfl⟩

/-- A unit whose last piece has gone out, of a stream without signals, is behind its stream. -/
theorem State.pastUnit_is {did : Nat} (hd : s.desc did = some d) (hs : d.sigs = [none, none]) (hf : d.geo.fed = false) :
    ∃ e, s.pastUnit did = s.setDesc e ∧ d.PastUnit e := by
  obtain ⟨x, hx, hpast, hsigs⟩ := s.prune_past d
  obtain rfl : d.id = did := State.desc_id hd
  have hd' : (s.setDesc x).desc d.id = some x := by
    rw [← hpast.id]
    exact State.desc_setDesc_self (by rw [hpast.id]; exact hd)
  have hsl (n : Nat) := State.sliceSignals_none hd' (hsigs.trans hs) n
  have hfree : (s.setDesc x).freeIdx d.id = s.setDesc x :=
    State.freeIdx_unfed fun y hy => by rw [← Option.some.inj (hd'.symm.trans hy), hpast.geo]; exact hf
  unfold State.pastUnit
  rw [hd]
  dsimp only
  rw [hx, hsl, hfree]
  split
  · rw [← hpast.id]
    refine ⟨_, State.setDesc_onDesc (f := fun d => if d.ended then d else { d with phase := .finishing }) ?_, ?_⟩
    · split <;> rfl
    · split
      · exact hpast
      · exact ⟨⟨hpast.id, hpast.mover, hpast.geo⟩, hpast.pos, hpast.wr⟩
  · exact ⟨x, rfl, hpast⟩

/-- What the issue of a piece leaves of its stream: the unit is out in part, or the stream is past it. -/
structure Desc.WroteOn (d : Desc) (u : OutUnit) (n : Nat) (e : Desc) : Prop extends d.SameStream e where
  mid : u.issued + n < u.data.length → e.pos = d.pos ∧ e.wr = some { u with issued := u.issued + n }
  last : u.data.length ≤ u.issued + n → e.pos = d.geo.headFrom (d.pos + 1) ∧ e.wr = none

theorem State.issueWrite_barred {did : Nat} (hd : s.desc did = some d) (h : s.readyWrite d = none) : s.issueWrite did = s := by
  unfold State.issueWrite
  rw [hd]
  dsimp only
  rw [h]

theorem State.issueWrite_piece {u : OutUnit} (hd : s.desc d.id = some d) (hu : d.wr = some u) (hr : s.readyWrite d = some p) (ht : d.geo.toPort = false)
    (hc : p.chip = none) (hop : d.geo.op ≠ 4) (hen : ((u.enables.drop u.issued).take p.len).any id = true) (hroute : s.routePa p.pa = some dest)
    (hlast : u.data.length ≤ u.issued + p.len → d.ended = false ∧ u.obj ≠ 5 ∧ d.sigs = [none, none] ∧ d.geo.fed = false) :
    ∃ f held e, s.issueWrite d.id = s.issued e f { s.pieceWrite d u p dest with id := s.ids, held := held } ∧ d.WroteOn u p.len e := by
  obtain ⟨f, held, hlocal⟩ := s.localPart_piece hop hen hroute
  suffices hw : ∀ r, s.localPart d u p = s.issued (d.pieceOut u p) f r → ∃ f e, s.issueWrite d.id = s.issued e f r ∧ d.WroteOn u p.len e by
    obtain ⟨f, e, he, hon⟩ := hw _ hlocal
    exact ⟨f, held, e, he, hon⟩
  intro r hlocal
  have hdesc (f : RegFile) (e : Desc) (he : e.id = d.id) := State.desc_issued (f := f) (r := r) hd he
  have hact : s.issueWrite d.id = if decide (u.data.length ≤ u.issued + p.len) = true then
        (if u.obj = 5 ∨ d.ended = true then (s.issued (d.pieceOut u p) f r).setDesc { d.pieceOut u p with wr := none }
         else ((s.issued (d.pieceOut u p) f r).takeNotes d.id u.zeroTile u.notes).pastUnit d.id)
      else s.issued (d.pieceOut u p) f r := by
    unfold State.issueWrite
    rw [hd]
    dsimp only
    rw [hr, hu, ht]
    dsimp only
    rw [hc]
    dsimp only
    rw [if_neg Bool.false_ne_true, hlocal, hdesc f (d.pieceOut u p) rfl]
    rfl
  rw [hact]
  split
  · next hle =>
    obtain ⟨hend, hobj, hs, hf⟩ := hlast (of_decide_eq_true hle)
    rw [if_neg (by rintro (h | h); exacts [hobj h, absurd (h.symm.trans hend) (by decide)])]
    obtain ⟨g, a, b, hn⟩ := State.takeNotes_is (hdesc f (d.pieceOut u p) rfl) u.zeroTile u.notes
    have hn' : (s.issued (d.pieceOut u p) f r).takeNotes d.id u.zeroTile u.notes =
        s.issued { d.pieceOut u p with noted := a, replaced := b } g r := by
      rw [hn, State.issued_setDesc (by rfl), State.issued_regs]
    obtain ⟨e, he, hpast⟩ := State.pastUnit_is (hdesc g { d.pieceOut u p with noted := a, replaced := b } rfl) hs hf
    have heid : e.id = d.id := hpast.id
    refine ⟨g, e, ?_, ⟨heid, hpast.mover, hpast.geo⟩, fun h => ?_, fun _ => ⟨hpast.pos, hpast.wr⟩⟩
    · rw [hn', he]
      exact State.issued_setDesc heid
    · exact absurd (of_decide_eq_true hle) (by omega)
  · next hlt => exact ⟨f, _, rfl, ⟨rfl, rfl, rfl⟩, fun _ => ⟨rfl, rfl⟩, fun h => absurd (decide_eq_true h) hlt⟩

/-! ### The cycle -/

/-- A read does not change whether its stream may write. -/
theorem State.mayWrite_readIssued (u : InUnit) (parts : List XPart) (n : Nat) :
    (s.setDesc (d.readIssued u parts n)).mayWrite (d.readIssued u parts n) = s.mayWrite d := by
  unfold State.mayWrite
  rw [State.fenced_setDesc (d := d) (e := d.readIssued u parts n) rfl rfl fun _ => rfl]
  rfl

theorem Desc.askCores_is (s : State) (d : Desc) : ∃ b, s.askCores d = { d with coreWait := b } := by
  unfold State.askCores
  split
  · exact ⟨_, rfl⟩
  · exact ⟨_, rfl⟩

theorem State.desc_settleCores {did : Nat} (hd : s.desc did = some d) : ∃ b, s.settleCores.desc did = some { d with coreWait := b } := by
  obtain ⟨b, hb⟩ := Desc.askCores_is s d
  have hid (x : Desc) : (s.askCores x).id = x.id := by
    obtain ⟨b, hb⟩ := Desc.askCores_is s x
    rw [hb]
  refine ⟨b, ?_⟩
  have hmap : (s.descs.map s.askCores).find? (fun x => x.id == did) = (s.descs.find? (fun x => x.id == did)).map s.askCores := by
    rw [List.find?_map]
    congr 1
    refine congrArg (fun q => s.descs.find? q) (funext fun x => ?_)
    rw [Function.comp, hid]
  have hd' : s.descs.find? (fun x => x.id == did) = some d := hd
  exact hmap.trans (by rw [hd', Option.map_some, hb])

theorem State.pumpFlush_none (h : ∀ r ∈ s.reqs, r.posted = false) : s.pumpFlush = s := by
  refine List.foldl_fixed' (fun e => ?_) (s.xpOf 1)
  have hany : s.reqs.any (fun r => r.posted && r.dest == .ext e && s.postedAwaited r &&
      !s.reqs.any (fun f => f.owner == .flush e && r.id < f.id)) = false := List.any_eq_false.mpr fun r hr => by simp [h r hr]
  rw [hany]
  rfl

/-- What a mover does in a cycle of its own, in a state where nothing else waits. -/
theorem exec_moverIssueCycle_acts (hi : s.issuing = true) (hm : s.hasMover m = true) (hl : s.reg Reg.byLendStat = 0) (ht : s.moverCycle m = t)
    (hpend : t.pending = s.pending)
    (hp : ∀ r ∈ t.reqs, r.posted = false) (hloop : t.fab.loop = []) : exec (.moverIssueCycle m) s = .next t.settleCores := by
  rw [exec_moverIssueCycle]
  unfold execMoverIssueCycle
  refine whenIssuing_next (f := fun s => if s.moverRuns m then (s.wakeReady.moverCycle m).pumpFlush.deliverLocal.settleCores else s) hi ?_ hpend
  have hrun : s.moverRuns m = true := by simp [State.moverRuns, hm]
  rw [hrun, if_pos rfl, State.wakeReady_none hl, ht, State.pumpFlush_none hp, State.deliverLocal_nil hloop]

/-- The reads of a cycle. -/
def State.moverReads (s : State) (m : Nat) : State :=
  let (s, r) := s.arbitrate (moverPoint m) 256 ((s.onMover m).filterMap (fun d => (s.readyRead d).map (fun r => s.candOf d r.2.2.1.len)))
  match r with
  | some c => s.issueRead c.id
  | none => s

/-- The writes of a cycle, and those of the streams that deliver beside it. -/
def State.moverWrites (s : State) (m : Nat) : State :=
  let (s, w) := s.arbitrate (moverWritePoint m) 256
    (((s.onMover m).filter (fun d => !d.geo.besides)).filterMap (fun d => (s.readyWrite d).map (fun p => s.candOf d p.len)))
  let s := match w with
    | some c => s.issueWrite c.id
    | none => s
  (((s.onMover m).filter (fun d => d.geo.besides)).map (·.id)).foldl State.issueWrite s

theorem State.moverCycle_eq (s : State) (m : Nat) : s.moverCycle m = ((s.moverPrep m).moverReads m).moverWrites m := by
  unfold State.moverCycle State.moverWrites State.moverReads
  generalize s.moverPrep m = t
  generalize ht : t.arbitrate (moverPoint m) 256 ((t.onMover m).filterMap (fun d => (t.readyRead d).map (fun r => t.candOf d r.2.2.1.len))) = x
  obtain ⟨y, r⟩ := x
  cases r with
  | none => simp only [ht] <;> rfl
  | some c => simp only [ht] <;> rfl

theorem State.moverReads_none (ho : s.onMover m = [d]) (h : s.readyRead d = none) : ∃ a, s.moverReads m = { s with drr := a } := by
  obtain ⟨a, ha⟩ := s.arbitrate_nil (moverPoint m) 256
  refine ⟨a, ?_⟩
  unfold State.moverReads
  rw [ho, List.filterMap_cons_none (by rw [h]; rfl), List.filterMap_nil, ha]

theorem State.moverReads_one {x : InUnit × List XPart × XPart × List Range} (ho : s.onMover m = [d]) (h : s.readyRead d = some x) :
    ∃ a, s.moverReads m = ({ s with drr := a } : State).issueRead d.id := by
  obtain ⟨a, ha⟩ := s.arbitrate_one (moverPoint m) (quantum := 256) (by decide) (s.candOf d x.2.2.1.len)
  refine ⟨a, ?_⟩
  unfold State.moverReads
  rw [ho, List.filterMap_cons_some (by rw [h]; rfl), List.filterMap_nil, ha]
  rfl

theorem State.moverWrites_none (ho : s.onMover m = [d]) (hd : s.desc d.id = some d) (h : s.readyWrite d = none) :
    ∃ a, s.moverWrites m = { s with drr := a } := by
  obtain ⟨a, ha⟩ := s.arbitrate_nil (moverWritePoint m) 256
  have hcands : ((s.onMover m).filter (fun d => !d.geo.besides)).filterMap (fun d => (s.readyWrite d).map (fun p => s.candOf d p.len)) = [] := by
    refine List.filterMap_eq_nil_iff.mpr fun x hx => ?_
    rw [ho, List.mem_filter, List.mem_singleton] at hx
    rw [hx.1, h]
    rfl
  refine ⟨a, ?_⟩
  unfold State.moverWrites
  rw [hcands, ha]
  dsimp only
  have ho' : ({ s with drr := a } : State).onMover m = [d] := ho
  rw [ho', List.filter_singleton]
  cases d.geo.besides
  · rfl
  · exact State.issueWrite_barred (s := { s with drr := a }) hd h

theorem State.moverWrites_one (ho : s.onMover m = [d]) (hb : d.geo.besides = false) (h : s.readyWrite d = some p)
    (hafter : ∀ a, ∃ e, (({ s with drr := a } : State).issueWrite d.id).onMover m = [e] ∧ e.geo = d.geo) :
    ∃ a, s.moverWrites m = ({ s with drr := a } : State).issueWrite d.id := by
  obtain ⟨a, ha⟩ := s.arbitrate_one (moverWritePoint m) (quantum := 256) (by decide) (s.candOf d p.len)
  obtain ⟨e, ho', hg⟩ := hafter a
  have hid : (s.candOf d p.len).id = d.id := rfl
  refine ⟨a, ?_⟩
  unfold State.moverWrites
  rw [ho, List.filter_cons_of_pos (by rw [hb]; rfl), List.filter_nil, List.filterMap_cons_some (by rw [h]; rfl), List.filterMap_nil, ha]
  dsimp only
  rw [hid, ho', List.filter_cons_of_neg (by rw [hg, hb]; decide)]
  rfl

/-- A cycle in which the one stream reads. -/
theorem State.moverCycle_read {u : InUnit} {parts : List XPart} {rs : List Range} (hid : s.idsRise = true) (ho : s.onMover m = [d])
    (hd : s.desc d.id = some d) (hprep : s.moverPrep m = s) (harm : bit (s.reg Reg.tpInj) 63 = false) (hr : s.readyRead d = some (u, parts, p, rs))
    (hroute : s.routePa p.pa = some dest) (hw : s.mayWrite d = false) :
    ∃ f held a, s.moverCycle m = { s.issued (d.readIssued u parts p.len) f { s.pieceRead d u p dest with id := s.ids, held := held } with drr := a } := by
  obtain ⟨a, ha⟩ := State.moverReads_one ho hr
  obtain ⟨f, held, hiss⟩ := State.issueRead_piece (s := { s with drr := a }) harm hd hr hroute
  obtain ⟨b, hb⟩ := State.moverWrites_none (m := m)
    (s := ({ s with drr := a } : State).issued (d.readIssued u parts p.len) f { s.pieceRead d u p dest with id := s.ids, held := held })
    (State.onMover_setDesc (e := d.readIssued u parts p.len) hid ho rfl rfl) (State.desc_issued (s := { s with drr := a }) (d := d) hd rfl)
    (State.readyWrite_barred ((State.mayWrite_readIssued u parts p.len).trans hw))
  refine ⟨f, held, b, ?_⟩
  rw [State.moverCycle_eq, hprep, ha, hiss]
  exact hb

/-- A cycle in which the one stream writes. -/
theorem State.moverCycle_write {u : OutUnit} (hid : s.idsRise = true) (ho : s.onMover m = [d])
    (hd : s.desc d.id = some d) (hprep : s.moverPrep m = s) (hrd : s.mayRead d = false) (hr : s.readyWrite d = some p) (ht : d.geo.toPort = false)
    (hu : d.wr = some u)
    (hc : p.chip = none) (hop : d.geo.op ≠ 4) (hen : ((u.enables.drop u.issued).take p.len).any id = true) (hroute : s.routePa p.pa = some dest)
    (hlast : u.data.length ≤ u.issued + p.len → d.ended = false ∧ u.obj ≠ 5 ∧ d.sigs = [none, none] ∧ d.geo.fed = false) :
    ∃ f held e a, s.moverCycle m = { s.issued e f { s.pieceWrite d u p dest with id := s.ids, held := held } with drr := a } ∧ d.WroteOn u p.len e := by
  have hiss (a) := State.issueWrite_piece (s := { s with drr := a }) hd hu hr ht hc hop hen hroute hlast
  obtain ⟨a, ha⟩ := State.moverReads_none ho (State.readyRead_barred hrd)
  obtain ⟨b, hb⟩ := State.moverWrites_one (s := { s with drr := a }) (m := m) ho (by simp [Geo.besides, ht]) hr fun b => by
    obtain ⟨f, held, e, h, hon⟩ := hiss b
    exact ⟨e, by rw [h]; exact State.onMover_setDesc hid ho hon.id hon.mover, hon.geo⟩
  obtain ⟨f, held, e, h, hon⟩ := hiss b
  refine ⟨f, held, e, b, ?_, hon⟩
  rw [State.moverCycle_eq, hprep, ha, hb]
  exact h

/-- After a cycle that issues one access, the stream keeps what it has become, and its work on the cores is asked for. -/
theorem exec_moverIssueCycle_issued {f : RegFile} {r : MemReq} {a : Tab Drr} (hi : s.issuing = true) (hm : s.hasMover m = true)
    (hl : s.reg Reg.byLendStat = 0) (hloop : s.fab.loop = []) (hp : ∀ r ∈ s.reqs, r.posted = false) (hr : r.posted = false)
    (hd : s.desc d.id = some d) (he : e.id = d.id) (h : s.moverCycle m = { s.issued e f r with drr := a }) :
    ∃ t b, exec (.moverIssueCycle m) s = .next t ∧ t.reqs = s.reqs ++ [r] ∧ t.desc d.id = some { e with coreWait := b } ∧
      t.win = s.win ∧ t.queues = s.queues ∧ t.sync = s.sync ∧ t.fab = s.fab ∧ t.cfg = s.cfg ∧ t.kp = s.kp := by
  have hposted : ∀ q ∈ s.reqs ++ [r], q.posted = false := fun q hq => by
    rcases List.mem_append.mp hq with hq | hq
    · exact hp q hq
    · rw [List.mem_singleton.mp hq, hr]
  have hd' : ({ s.issued e f r with drr := a } : State).desc d.id = some e := State.desc_issued (f := f) (r := r) hd he
  obtain ⟨b, hb⟩ := State.desc_settleCores hd'
  exact ⟨_, b, exec_moverIssueCycle_acts hi hm hl h rfl hposted hloop, rfl, hb, rfl, rfl, rfl, rfl, rfl, rfl⟩

/-- Settles O48: with nothing to prepare, the one stream of a mover is the one that its cycle serves, and the piece that it is at goes out. -/
theorem moversIssueReadsAndWrites : Obligations.MoversIssueReadsAndWrites := by
  intro s m d p dest hi hid hm ho hloop harm hl hp hw hlate hlines hroute hlen hpa hb
  have hmem : d ∈ s.onMover m := by rw [ho]; exact List.mem_cons_self
  have hd : s.desc d.id = some d := State.desc_of_mem hid (List.mem_filter.mp hmem).1
  refine ⟨fun u parts rs hread hwrite hu hlook hpiece hwake hfit => ?_,
    fun u hread hwrite hu hparts hchips ht hop hpiece hwake hen hlast => ?_⟩
  · have hprep := State.moverPrep_none ho hd hw hlate hlines (State.prepRead_planned hd hu hlook) (State.prepWrite_barred hd hwrite)
    obtain ⟨f, held, a, h⟩ := State.moverCycle_read hid ho hd hprep harm (State.readyRead_piece hread hwake hu hlook hpiece hfit hb) hroute hwrite
    obtain ⟨t, b, hex, hreqs, hdesc, hsame⟩ := exec_moverIssueCycle_issued (r := { s.pieceRead d u p dest with id := s.ids, held := held })
      (e := d.readIssued u parts p.len) hi hm hl hloop hp rfl hd rfl h
    exact ⟨t, _, _, hex, hreqs, rfl, rfl, rfl, rfl, rfl, hdesc, rfl, rfl, hsame⟩
  · have hprep := State.moverPrep_none ho hd hw hlate hlines (State.prepRead_barred hd hread) (State.prepWrite_made hd hu hparts hchips)
    have hc : p.chip = none := pieceAt_chip hpiece hchips
    obtain ⟨f, held, e, a, h, hon⟩ := State.moverCycle_write hid ho hd hprep hread
      (State.readyWrite_piece hwrite hu ht hpiece hc hwake hb) ht hu hc hop hen hroute hlast
    have hposted : MemReq.posted { s.pieceWrite d u p dest with id := s.ids, held := held } = false := by
      have : ¬ tier2Base ≤ p.pa := by omega
      simp [MemReq.posted, State.pieceWrite, mkReq, this]
    obtain ⟨t, b, hex, hreqs, hdesc, hsame⟩ := exec_moverIssueCycle_issued hi hm hl hloop hp hposted hd hon.id h
    exact ⟨t, _, _, hex, hreqs, rfl, rfl, rfl, rfl, rfl, rfl, rfl, hdesc, hon.mid, hon.last, hsame⟩

end Sys2Proof.Machine
end

section
/-! PROOFS. What waits for a link goes on (R459 to R461, R464, R474, R475): a step of the fabric that touches neither memory nor window. -/

namespace Sys2Proof.Machine

variable {s t : State} {x y z : Link}

/-- A link that has taken other blocks, and whose blocks may have lost their line, but that is otherwise as it was. -/
def Link.Same (x y : Link) : Prop :=
  ∃ queue replay owed, y = { x with queue := queue, replay := replay, owed := owed } ∧ (x.replay = [] → replay = [])

theorem Link.Same.refl (x : Link) : x.Same x := ⟨_, _, _, rfl, id⟩

theorem Link.Same.trans (h : x.Same y) (h' : y.Same z) : x.Same z := by
  obtain ⟨q, r, o, rfl, hr⟩ := h
  obtain ⟨q', r', o', rfl, hr'⟩ := h'
  exact ⟨q', r', o', rfl, fun hx => hr' (hr hx)⟩

/-- A link once a line is gone: what it has not sent of the line, and the line of what it has, are forgotten. -/
def Link.cutLine (n : Nat) (x : Link) : Link :=
  { x with queue := x.queue.filter (fun i => i.line != some n),
           replay := x.replay.map (fun i => if i.line = some n then { i with line := none } else i) }

/-- What waits for a link has gone on: lines and blocks have moved, streams of lost lines have ended, and nothing else has changed. -/
structure State.Settles (s t : State) : Prop where
  rest : ∃ f d q r, t = { s with fab := f, descs := d, queues := q, regs := r }
  queue : ∀ q, { t.queue q with lost := (s.queue q).lost } = s.queue q
  link : ∀ l, (s.link l).Same (t.link l)
  reg : ∀ k, k ≠ Reg.fbEvent → k ≠ Reg.fbEventCnt → t.reg k = s.reg k
  event : ∀ b, b < 64 → bit (s.reg Reg.fbEvent) b = true → bit (t.reg Reg.fbEvent) b = true
  sorted : tsorted s.regs = true → tsorted t.regs = true
  sources : t.fab.inb.map (fun p => p.2.src) = s.fab.inb.map (fun p => p.2.src)

theorem State.queue_lost (q p : Nat) : ∃ b, (t.onQueue q (fun y => { y with lost := true })).queue p = { t.queue p with lost := b } := by
  by_cases h : p = q
  · subst h
    cases hx : tget t.queues p with
    | none => exact ⟨_, congrArg (fun x : Option Queue => x.getD Queue.blank) (by simp [State.onQueue, tmod, hx])⟩
    | some x =>
      refine ⟨true, (State.queue_of_tget (tget_tmod_self hx _)).trans ?_⟩
      rw [State.queue_of_tget hx]
  · exact ⟨_, State.queue_onQueue_ne h _⟩

namespace State.Settles

theorem refl (s : State) : s.Settles s := ⟨⟨_, _, _, _, rfl⟩, fun _ => rfl, fun _ => .refl _, fun _ _ _ => rfl, fun _ _ h => h, id, rfl⟩

theorem ite {u : State} {c : Prop} [Decidable c] (ht : s.Settles t) (hu : s.Settles u) : s.Settles (if c then t else u) := by
  split
  · exact ht
  · exact hu

theorem foldl {α : Type} {f : State → α → State} {l : List α} (h : ∀ {t x}, s.Settles t → s.Settles (f t x)) (hk : s.Settles t) :
    s.Settles (l.foldl f t) := by
  induction l generalizing t with
  | nil => exact hk
  | cons x l ih => exact ih (h hk)

theorem fab (hk : s.Settles t) {f : Fabric} (hf : f.inb.map (fun p => p.2.src) = t.fab.inb.map (fun p => p.2.src))
    (h : ∀ l, (t.link l).Same (({ t with fab := f } : State).link l)) : s.Settles { t with fab := f } := by
  obtain ⟨⟨_, _, _, _, rfl⟩, hq, hl, hr, he, hs, hi⟩ := hk
  exact ⟨⟨_, _, _, _, rfl⟩, hq, fun l => (hl l).trans (h l), hr, he, hs, hf.trans hi⟩

/-- A change of the fabric that leaves its links. -/
theorem links (hk : s.Settles t) {f : Fabric} (h : f.links = t.fab.links) (hf : f.inb = t.fab.inb) : s.Settles { t with fab := f } :=
  hk.fab (by rw [hf]) fun l => by
    have : ({ t with fab := f } : State).link l = t.link l := by
      unfold State.link
      dsimp only
      rw [h]
    rw [this]
    exact .refl _

/-- A change of every link. -/
theorem mapLinks (hk : s.Settles t) {f : Fabric} {g : Link → Link} (hf : f.links = t.fab.links.map (fun p => (p.1, g p.2)))
    (hi : f.inb.map (fun p => p.2.src) = t.fab.inb.map (fun p => p.2.src)) (hg : ∀ x : Link, x.Same (g x)) :
    s.Settles { t with fab := f } := by
  refine hk.fab hi fun l => ?_
  unfold State.link
  dsimp only
  rw [hf, tget_map_snd _ fun p => g p.2]
  cases tget t.fab.links l with
  | none => exact .refl _
  | some x => exact hg x

theorem onDesc (hk : s.Settles t) {did : Nat} {f : Desc → Desc} : s.Settles (t.onDesc did f) := by
  obtain ⟨⟨_, _, _, _, rfl⟩, hq, hl, hr, he, hs, hi⟩ := hk
  exact ⟨⟨_, _, _, _, rfl⟩, hq, hl, hr, he, hs, hi⟩

/-- A queue has lost a write (R440). -/
theorem lost (hk : s.Settles t) {q : Nat} : s.Settles { t with queues := tmod t.queues q (fun y => { y with lost := true }) } := by
  obtain ⟨⟨_, _, _, _, rfl⟩, hq, hl, hr, he, hs, hi⟩ := hk
  refine ⟨⟨_, _, _, _, rfl⟩, fun p => ?_, hl, hr, he, hs, hi⟩
  obtain ⟨b, hb⟩ := State.queue_lost q p
  refine Eq.trans ?_ (hq p)
  exact congrArg (fun x : Queue => { x with lost := (s.queue p).lost }) hb

theorem evFb (hk : s.Settles t) {b : Nat} (hb : b < 64) : s.Settles (t.evFb b) := by
  obtain ⟨⟨_, _, _, _, rfl⟩, hq, hl, hr, he, hs, hi⟩ := hk
  refine ⟨⟨_, _, _, _, rfl⟩, hq, hl, fun k h1 h2 => (State.reg_evFb_ne b h1 h2).trans (hr k h1 h2), fun i hb' h => ?_,
    fun h => State.tsorted_event (hs h) .., hi⟩
  unfold State.evFb
  rw [State.bit_event _ (by decide) (resetOf_events (by decide) _) hb hb', he i hb' h, Bool.or_true]

theorem setLink (hk : s.Settles t) {l : Nat} {x : Link} (h : (t.link l).Same x) : s.Settles (t.setLink l x) := by
  refine hk.fab rfl fun j => ?_
  unfold State.link at *
  dsimp only
  rw [tget_tput]
  split
  · next e => rw [e]; exact h
  · exact .refl _

theorem setLine (hk : s.Settles t) {n : Nat} {x : OutLine} : s.Settles (t.setLine n x) := hk.links rfl rfl

theorem linkPush (hk : s.Settles t) {l : Nat} {it : LinkItem} : s.Settles (t.linkPush l it) := hk.setLink ⟨_, _, _, rfl, id⟩

theorem owe (hk : s.Settles t) {l : Option Nat} : s.Settles (t.owe l) := by
  cases l with
  | none => exact hk
  | some l => exact hk.setLink ⟨_, _, _, rfl, id⟩

theorem loopBlock (hk : s.Settles t) {b : LinkBlock} : s.Settles (t.loopBlock b) := hk.links rfl rfl

theorem loopLine (hk : s.Settles t) {n : Nat} {x : OutLine} : s.Settles (t.loopLine n x) := by
  unfold State.loopLine
  exact .ite hk (.foldl (fun hk => hk.loopBlock) hk.setLine)

theorem dropLine (hk : s.Settles t) {n : Nat} : s.Settles (t.dropLine n) := by
  unfold State.dropLine
  split
  · exact hk
  · exact onDesc (hk.mapLinks (g := Link.cutLine n) (by rfl) (by rfl) fun x => ⟨_, _, _, rfl, fun h => List.map_eq_nil_iff.mpr h⟩)

theorem loseLine (hk : s.Settles t) {n status va : Nat} : s.Settles (t.loseLine n status va) := by
  unfold State.loseLine
  split
  · exact hk
  · exact .dropLine (.onDesc (.ite hk.lost hk))

theorem pumpLine (hk : s.Settles t) {n fuel : Nat} : s.Settles (State.pumpLine n fuel t) := by
  induction fuel generalizing t with
  | zero => exact hk
  | succ fuel ih =>
    unfold State.pumpLine
    split
    · exact hk
    · refine .ite hk.loopLine ?_
      split
      · exact .ite hk hk.loseLine
      · refine .ite (.ite hk (hk.evFb (by decide))) ?_
        dsimp only
        split
        · exact hk.setLine
        · refine .ite hk.setLine ?_
          split
          · exact hk.setLine
          · exact ih (.linkPush (.setLine hk.setLine))

theorem sendWaiting (hk : s.Settles t) {it : LinkItem} : s.Settles (t.sendWaiting it) := by
  unfold State.sendWaiting
  refine .ite (.owe hk.loopBlock) ?_
  split
  · split
    · exact hk.loseLine
    · exact .ite (hk.evFb (by decide)) hk
  · split
    · exact hk.links rfl rfl
    · exact .owe hk.linkPush

theorem sendBlock (hk : s.Settles t) {it : LinkItem} : s.Settles (t.sendBlock it) := by
  unfold State.sendBlock
  refine .sendWaiting ?_
  split
  · exact .ite hk (hk.evFb (by decide))
  · exact hk

theorem pumpTransit (hk : s.Settles t) : s.Settles t.pumpTransit := .foldl (fun hk => hk.sendWaiting) (hk.links rfl rfl)

theorem settleFabric (hk : s.Settles t) : s.Settles t.settleFabric := .foldl (fun hk => hk.pumpLine) hk.pumpTransit

theorem wantBeacon (hk : s.Settles t) {l : Nat} : s.Settles (t.wantBeacon l) := .ite hk.linkPush hk

theorem wantBeacons (hk : s.Settles t) : s.Settles t.wantBeacons := .foldl (fun hk => hk.wantBeacon) hk

end State.Settles

/-! ### A link fails -/

theorem State.link_setLink_self (l : Nat) (x : Link) : (s.setLink l x).link l = x := by simp [State.link]

theorem State.link_setLink_ne {l j : Nat} (h : j ≠ l) (x : Link) : (s.setLink l x).link j = s.link j := by simp [State.link, tget_tput_ne h]

theorem State.setLink_setLink (l : Nat) (x y : Link) : (s.setLink l x).setLink l y = s.setLink l y := by
  unfold State.setLink
  dsimp only
  rw [tput_tput]

/-- A link that has gone down: what it holds of its neighbour and its lock is kept. -/
def Link.gone (x : Link) (st : LinkState) (cause : Nat) : Link :=
  { Link.blank with state := st, cause := cause, nbrValid := x.nbrValid, nbrLink := x.nbrLink, nbrChip := x.nbrChip, nbrEpoch := x.nbrEpoch,
                    locked := x.locked }

/-- A link without the blocks of its queue that a test names. -/
def Link.without (p : LinkItem → Bool) (x : Link) : Link := { x with queue := x.queue.filter (fun i => !p i) }

/-- Beside the link itself, a link that goes down touches blocks that wait. -/
theorem State.dropLink_settles (s : State) (l : Nat) (st : LinkState) (cause : Nat) :
    (s.setLink l ((s.link l).gone st cause)).Settles (s.dropLink l st cause) :=
  (State.Settles.refl (s.setLink l ((s.link l).gone st cause))).mapLinks (g := Link.without fun i => lineKind (blockKind i.block) &&
    (((s.link l).replay.filter (fun i => lineKind (blockKind i.block))).map (fun i => blockLine i.block)).contains (blockLine i.block))
    rfl (List.map_map ..) fun _ => ⟨_, _, _, rfl, id⟩

/-- A link has failed (R451, R474). -/
structure State.LinkFailed (s : State) (l cause : Nat) (t : State) : Prop where
  rest : ∃ e k f d q r, t = { s with free := e, kp := k, fab := f, descs := d, queues := q, regs := r }
  queue : ∀ q, { t.queue q with lost := (s.queue q).lost } = s.queue q
  link : ((s.link l).gone .failed cause).Same (t.link l)
  others : ∀ j, j ≠ l → (s.link j).Same (t.link j)
  reg : ∀ k, k ∉ [Reg.fbEvent, Reg.fbEventCnt, Reg.kpEvent, Reg.kpEventCnt, Reg.fbLinkCnt l] → t.reg k = s.reg k
  event : ∀ b, b < 64 → b = 0 ∨ bit (s.reg Reg.fbEvent) b = true → bit (t.reg Reg.fbEvent) b = true
  count : tsorted s.regs = true → t.regFld (Reg.fbLinkCnt l) 63 48 = (s.regFld (Reg.fbLinkCnt l) 63 48 + 1) % 2 ^ 16
  log : ∃ r, t.kp.log.getLast? = some r ∧ r.kind = 0x09 ∧ r.object = l
  sources : t.fab.inb.map (fun p => p.2.src) = s.fab.inb.map (fun p => p.2.src)

/-- The failure is counted and recorded. -/
theorem State.failure_noted (s : State) (l : Nat) :
    ∃ e k r, (s.bump (Reg.fbLinkCnt l) 63 48).logObj 0x09 keeperOrigin l (leBytes 20 (Config.openValue 6 (s.bump (Reg.fbLinkCnt l) 63 48).free)) =
        { s with free := e, kp := k, regs := r } ∧
      (∃ x, k.log.getLast? = some x ∧ x.kind = 0x09 ∧ x.object = l) ∧
      (∀ j, j ∉ [Reg.kpEvent, Reg.kpEventCnt, Reg.fbLinkCnt l] → rget s.grade r j = s.reg j) ∧
      (tsorted s.regs = true → fld (rget s.grade r (Reg.fbLinkCnt l)) 63 48 = (s.regFld (Reg.fbLinkCnt l) 63 48 + 1) % 2 ^ 16) := by
  obtain ⟨r, log, x, o, h, hx, hreg, -⟩ := (s.bump (Reg.fbLinkCnt l) 63 48).logObj_is 0x09 keeperOrigin l (leBytes 20 (Config.openValue 6 (s.bump (Reg.fbLinkCnt l) 63 48).free))
  have h1 : Reg.fbLinkCnt l ≠ Reg.kpEvent := by simp only [Reg.fbLinkCnt, Reg.kpEvent]; omega
  have h2 : Reg.fbLinkCnt l ≠ Reg.kpEventCnt := by simp only [Reg.fbLinkCnt, Reg.kpEventCnt]; omega
  refine ⟨_, _, r, h, ⟨x, by simp, by rw [hx], by rw [hx]⟩, fun j hj => ?_, fun hs => ?_⟩
  · simp only [List.mem_cons, List.not_mem_nil, or_false, not_or] at hj
    exact (hreg j hj.1 hj.2.1).trans (State.reg_bump_ne _ _ _ hj.2.2)
  · exact (congrArg (fld · 63 48) (hreg _ h1 h2)).trans (State.regFld_bump hs (by decide))

theorem State.failLink_fails {l : Nat} (h : (s.link l).state ≠ .failed) (cause : Nat) : s.LinkFailed l cause (s.failLink l cause) := by
  have hne : ((s.link l).state == .failed) = false := by simpa using h
  obtain ⟨u, hu⟩ : ∃ u, (s.dropLink l .failed cause).evFb 0 = u := ⟨_, rfl⟩
  have hsu : (s.setLink l ((s.link l).gone .failed cause)).Settles u := hu ▸ (s.dropLink_settles l .failed cause).evFb (by decide)
  have hbit : bit (u.reg Reg.fbEvent) 0 = true := hu ▸ State.bit_evFb (by decide)
  obtain ⟨e, k, r, hv, hlog, hreg, hcount⟩ := u.failure_noted l
  have hact : s.failLink l cause = State.settleFabric { u with free := e, kp := k, regs := r } := by
    unfold State.failLink
    rw [hne]
    dsimp only
    rw [hu, hv]
    rfl
  rw [hact]
  have hvt := State.Settles.settleFabric (.refl { u with free := e, kp := k, regs := r })
  generalize State.settleFabric { u with free := e, kp := k, regs := r } = t at hvt
  have hvfb : ∀ j ∈ [Reg.fbEvent, Reg.fbEventCnt], ({ u with free := e, kp := k, regs := r } : State).reg j = u.reg j := fun j hj => by
    refine hreg j fun hj' => ?_
    simp only [Reg.fbEvent, Reg.fbEventCnt, Reg.kpEvent, Reg.kpEventCnt, Reg.fbLinkCnt, List.mem_cons, List.not_mem_nil, or_false] at hj hj'
    omega
  have hcnt : Reg.fbLinkCnt l ≠ Reg.fbEvent ∧ Reg.fbLinkCnt l ≠ Reg.fbEventCnt := by
    simp only [Reg.fbLinkCnt, Reg.fbEvent, Reg.fbEventCnt]
    omega
  refine ⟨?_, fun q => ?_, ?_, fun j hj => ?_, fun j hj => ?_, fun b hb h => hvt.event b hb ?_, fun hs => ?_, ?_, hvt.sources.trans hsu.sources⟩
  · obtain ⟨f, d, q, r, h⟩ := hsu.rest
    obtain ⟨f', d', q', r', h'⟩ := hvt.rest
    rw [h', h]
    exact ⟨_, _, _, _, _, _, rfl⟩
  · refine Eq.trans ?_ (hsu.queue q)
    exact congrArg (fun x : Queue => { x with lost := (s.queue q).lost }) (hvt.queue q)
  · have h := hsu.link l
    rw [State.link_setLink_self] at h
    exact h.trans (hvt.link l)
  · have h := hsu.link j
    rw [State.link_setLink_ne hj] at h
    exact h.trans (hvt.link j)
  · simp only [List.mem_cons, List.not_mem_nil, or_false, not_or] at hj
    obtain ⟨h1, h2, h3, h4, h5⟩ := hj
    exact (hvt.reg j h1 h2).trans ((hreg j (by simp [h3, h4, h5])).trans (hsu.reg j h1 h2))
  · rw [hvfb _ (by decide)]
    rcases h with rfl | h
    · exact hbit
    · exact hsu.event b hb h
  · have h1 : t.reg (Reg.fbLinkCnt l) = rget u.grade r (Reg.fbLinkCnt l) := hvt.reg _ hcnt.1 hcnt.2
    have h2 : u.reg (Reg.fbLinkCnt l) = s.reg (Reg.fbLinkCnt l) := hsu.reg _ hcnt.1 hcnt.2
    unfold State.regFld at hcount ⊢
    rw [h1, hcount (hsu.sorted hs), h2]
  · obtain ⟨f', d', q', r', h'⟩ := hvt.rest
    rw [h']
    exact hlog

/-! ### Links train -/

/-- A link that starts to train, with its first beacon to send. -/
def State.trained (s : State) (l : Nat) (locked : Bool) : State :=
  s.setLink l { Link.blank with
    state := .training, nbrValid := (s.link l).nbrValid, nbrLink := (s.link l).nbrLink, nbrChip := (s.link l).nbrChip,
    nbrEpoch := (s.link l).nbrEpoch, locked := locked, credits := 32, queue := [s.beaconFor l] }

theorem State.train_is {l : Nat} (h : s.hasLink l = true) : s.train l = s.trained l (s.link l).locked := by
  have hb (x : Link) (hx : x.state = .training) : (s.setLink l x).beacons l = true := by
    have hl : (s.setLink l x).hasLink l = true := h
    simp [State.beacons, hl, State.link_setLink_self, hx]
  have hbeacon (x : Link) : (s.setLink l x).beaconFor l = s.beaconFor l := rfl
  unfold State.train State.wantBeacon
  dsimp only
  rw [hb _ rfl, if_pos rfl, hbeacon]
  unfold State.linkPush
  rw [State.link_setLink_self]
  exact State.setLink_setLink ..

theorem State.lockLink_is {l : Nat} (h : s.hasLink l = true) (ha : s.adminDown l = false) :
    s.lockLink l = if (s.link l).state = .down then s.trained l true else s.setLink l { s.link l with locked := true } := by
  have ht : (s.setLink l { s.link l with locked := true }).trained l true = s.trained l true := by
    unfold State.trained
    rw [State.link_setLink_self]
    exact State.setLink_setLink ..
  have htrain := State.train_is (s := s.setLink l { s.link l with locked := true }) (l := l) h
  rw [State.link_setLink_self, ht] at htrain
  unfold State.lockLink
  rw [if_pos (by simp [h, ha])]
  dsimp only
  rw [State.link_setLink_self, htrain]
  cases (s.link l).state <;> rfl

theorem State.resendFrom_zero {l : Nat} (h : (s.link l).replay ≠ []) : s.resendFrom l 0 =
    if (s.link l).replay.any (fun b => decide (8 ≤ b.sends)) = true then s.failLink l 2 else s.setLink l { s.link l with resend := some 0 } := by
  have he : ((s.link l).replay.drop 0).isEmpty = false := by simpa using h
  unfold State.resendFrom
  dsimp only
  rw [he]
  rfl

/-- A period without progress (R451). -/
def State.timedOut (s : State) (l : Nat) : State :=
  (s.bump (Reg.fbLinkCnt l) 47 32).setLink l { s.link l with timeouts := (s.link l).timeouts + 1 }

theorem State.ackTimeout_is {l : Nat} (hup : (s.link l).state = .up) (hr : (s.link l).replay ≠ []) :
    s.ackTimeout l = if 2 ≤ (s.link l).timeouts then (s.timedOut l).failLink l 3 else (s.timedOut l).resendFrom l 0 := by
  unfold State.ackTimeout
  dsimp only
  rw [if_pos (by simp [hup, hr])]
  refine if_congr (by omega) rfl rfl

/-- A link whose period has passed sends again from the oldest block, or fails (R450, R451). -/
theorem State.timedOut_resend (s : State) {l : Nat} (hr : (s.link l).replay ≠ []) : (s.timedOut l).resendFrom l 0 =
    if (s.link l).replay.any (fun b => decide (8 ≤ b.sends)) = true then (s.timedOut l).failLink l 2
    else (s.bump (Reg.fbLinkCnt l) 47 32).setLink l { s.link l with timeouts := (s.link l).timeouts + 1, resend := some 0 } := by
  have hlink : (s.timedOut l).link l = { s.link l with timeouts := (s.link l).timeouts + 1 } := State.link_setLink_self ..
  refine (State.resendFrom_zero (by rw [hlink]; exact hr)).trans ?_
  rw [hlink]
  refine if_congr Iff.rfl rfl ?_
  exact State.setLink_setLink ..

/-- What the failure of a link leaves (R451), told of the state before its cause. -/
def State.Failed (s : State) (l cause : Nat) (t : State) : Prop :=
  (t.link l).state = .failed ∧ (t.link l).cause = cause ∧ (t.link l).replay = [] ∧
    t.regFld (Reg.fbLinkCnt l) 63 48 = (s.regFld (Reg.fbLinkCnt l) 63 48 + 1) % 2 ^ 16 ∧ bit (t.reg Reg.fbEvent) 0 = true ∧
    (∃ r, t.kp.log.getLast? = some r ∧ r.kind = 0x09 ∧ r.object = l) ∧ t.reqs = s.reqs ∧ t.win = s.win ∧
    (∀ q, { t.queue q with lost := (s.queue q).lost } = s.queue q) ∧ t.sync = s.sync ∧ t.cfg = s.cfg

theorem State.LinkFailed.failed {l cause : Nat} (h : s.LinkFailed l cause t) (hs : tsorted s.regs = true) : s.Failed l cause t := by
  obtain ⟨q, r, o, hx, hr⟩ := h.link
  obtain ⟨_, _, _, _, _, _, hrest⟩ := h.rest
  refine ⟨by rw [hx]; rfl, by rw [hx]; rfl, ?_, h.count hs, h.event 0 (by decide) (.inl rfl), h.log, by rw [hrest], by rw [hrest], h.queue,
    by rw [hrest], by rw [hrest]⟩
  rw [hx]
  exact hr rfl

theorem State.LinkFailed.pending {l cause : Nat} (h : s.LinkFailed l cause t) : t.pending = s.pending := by
  obtain ⟨_, _, _, _, _, _, hrest⟩ := h.rest
  rw [hrest]

/-- A link whose blocks have made no progress fails, from the state of its last timeout (R451). -/
theorem State.timedOut_failed {l : Nat} (hup : (s.link l).state = .up) (hs : tsorted s.regs = true) (cause : Nat) :
    s.Failed l cause ((s.timedOut l).failLink l cause) ∧ ((s.timedOut l).failLink l cause).pending = s.pending := by
  have hlink : (s.timedOut l).link l = { s.link l with timeouts := (s.link l).timeouts + 1 } := State.link_setLink_self ..
  have hfail := (s.timedOut l).failLink_fails (l := l) (by rw [hlink, hup]; decide) cause
  obtain ⟨h1, h2, h3, hcnt, hrest⟩ := hfail.failed (State.tsorted_bump hs ..)
  have hcount : (s.timedOut l).regFld (Reg.fbLinkCnt l) 63 48 = s.regFld (Reg.fbLinkCnt l) 63 48 :=
    State.regFld_bump_ne hs (by decide) (by decide)
  exact ⟨⟨h1, h2, h3, hcount ▸ hcnt, hrest⟩, hfail.pending⟩

/-- Settles O55, by what a failing link leaves and what a training one begins with. -/
theorem linksTrainAndFail : Obligations.LinksTrainAndFail := by
  intro s l
  refine ⟨fun hi hl ha => ⟨fun h => ?_, fun h => ?_⟩, fun hi hl hs h => ?_, fun hi h => ?_, fun hi hup hr hs => ⟨fun h => ?_, fun h hn => ?_, fun h he => ?_⟩,
    fun hi => ⟨fun h => ?_, fun h => ?_⟩, fun p hn => ⟨fun h => ?_, fun hp hl h => ?_⟩⟩
  · exact whenIssuing_next (f := fun s => s.lockLink l) hi ((State.lockLink_is hl ha).trans (if_pos h)) rfl
  · exact whenIssuing_next (f := fun s => s.lockLink l) hi ((State.lockLink_is hl ha).trans (if_neg h)) rfl
  · have hlink : (s.setLink l { s.link l with locked := false }).link l = { s.link l with locked := false } := State.link_setLink_self ..
    have hne : (s.link l).state ≠ .down ∧ (s.link l).state ≠ .failed := by
      simp only [List.mem_cons, List.not_mem_nil, or_false] at h
      rcases h with h | h | h <;> exact ⟨by rw [h]; decide, by rw [h]; decide⟩
    have hfail := State.failLink_fails (s := s.setLink l { s.link l with locked := false }) (l := l) (by rw [hlink]; exact hne.2) 1
    have hact : s.loseLock l = (s.setLink l { s.link l with locked := false }).failLink l 1 := if_neg (by simp [hne.1, hl])
    obtain ⟨q, r, o, hx, hr⟩ := hfail.link
    exact ⟨_, whenIssuing_next (f := fun s => s.loseLock l) hi hact hfail.pending, hfail.failed hs, by rw [hx, hlink]; rfl⟩
  · exact whenIssuing_next (f := fun s => s.loseLock l) hi (if_pos (by simp [h])) rfl
  · obtain ⟨hfail, hpend⟩ := State.timedOut_failed (l := l) hup hs 3
    exact ⟨_, whenIssuing_next (f := fun s => s.ackTimeout l) hi ((State.ackTimeout_is hup hr).trans (if_pos h)) hpend, hfail⟩
  · have hact := (State.ackTimeout_is hup hr).trans ((if_neg (by omega)).trans ((s.timedOut_resend hr).trans (if_neg ?_)))
    · exact whenIssuing_next (f := fun s => s.ackTimeout l) hi hact rfl
    · simpa using hn
  · obtain ⟨hfail, hpend⟩ := State.timedOut_failed (l := l) hup hs 2
    have hact := (State.ackTimeout_is hup hr).trans ((if_neg (by omega)).trans ((s.timedOut_resend hr).trans (if_pos ?_)))
    · exact ⟨_, whenIssuing_next (f := fun s => s.ackTimeout l) hi hact hpend, hfail⟩
    · simpa using he
  · exact whenIssuing_next (f := fun s => s.wantBeacon l) hi (if_pos h) rfl
  · exact whenIssuing_next (f := fun s => s.wantBeacon l) hi (if_neg (by simp [h])) rfl
  · refine whenNormal_next (f := fun s => if fromCompute p then s else s.restoreLink l) hn ?_ rfl
    unfold State.restoreLink
    rcases h with h | h <;> simp [h]
  · refine whenNormal_next (f := fun s => if fromCompute p then s else s.restoreLink l) hn ?_ rfl
    refine (if_neg (by simp [hp])).trans ?_
    unfold State.restoreLink
    rw [if_pos (by simp [hl, h])]
    exact State.train_is hl

end Sys2Proof.Machine
end

section
/-! PROOFS. What a link does with a block before its kind matters (R447 to R450, R457, R465). -/

namespace Sys2Proof.Machine

variable {s t : State} {l k : Nat} {b : LinkBlock} {f : State → Tag → State}

/-! ### The checks of a block -/

theorem State.receive_barred (h : s.hasLink l = false ∨ carries (s.link l).state k = false) : s.receive l k b f = s := by
  unfold State.receive
  exact if_pos (by rcases h with h | h <;> simp [h])

section
variable (hl : s.hasLink l = true) (hc : carries (s.link l).state k = true) (harm : bit (s.reg Reg.tpInj) 63 = false)
include hl hc harm

theorem State.receive_other (hg : crcGood b = true) (ht : tagSound b = true) (hk : (tagFields b).kind ≠ k) : s.receive l k b f = s := by
  unfold State.receive
  refine (if_neg (by simp [hl, hc])).trans ?_
  rw [State.inject_disarmed harm]
  refine (if_neg (by simp [hg, ht])).trans ?_
  exact if_pos hk

theorem State.receive_bad (h : crcGood b = false ∨ tagSound b = false) : s.receive l k b f = s.crcFailure l := by
  unfold State.receive
  refine (if_neg (by simp [hl, hc])).trans ?_
  rw [State.inject_disarmed harm]
  exact if_pos (by rcases h with h | h <;> simp [h])

end

theorem State.storeRefuses_not {tag : Tag} (harm : bit (s.reg Reg.tpInj) 63 = false) (h : (s.storeRefuses l tag).2 = false) :
    s.storeRefuses l tag = (s, false) := by
  refine Prod.ext ?_ h
  unfold State.storeRefuses
  dsimp only
  rw [State.inject_disarmed harm]
  simp only [apply_ite Prod.fst, ite_self]

theorem State.receive_sound (h : soundBlock s l k b) : s.receive l k b f = (f (tookBlock s l k b) (tagFields b)).settleFabric := by
  obtain ⟨hl, hc, harm, hg, ht, hk, hseq, hroom⟩ := h
  have hstore : (if s.fab.idValid && (tagFields b).dst == s.fab.chipId then s.storeRefuses l (tagFields b) else (s, false)) = (s, false) := by
    rw [State.storeRefuses_not harm hroom, ite_self]
  unfold State.receive
  refine (if_neg (by simp [hl, hc])).trans ?_
  rw [State.inject_disarmed harm]
  refine (if_neg (by simp [hg, ht])).trans ((if_neg (not_not.mpr hk)).trans ((if_neg (not_not.mpr hseq)).trans ?_))
  rw [hstore]
  rfl

theorem whenIssuing_receive (hi : s.issuing = true) (h : soundBlock s l k b) :
    whenIssuing (fun s => s.receive l k b f) s = .next { (f (tookBlock s l k b) (tagFields b)).settleFabric with pending := s.pending } := by
  rw [whenIssuing_acts hi, State.receive_sound h]

/-! ### A discarded block -/

/-- A corrected error, or a discarded block, under no limit of them (R529, R536). -/
theorem State.countEcc_corrected (h : fld (s.act Reg.hmCfg) 63 32 = 0) (store unit : Nat) :
    ∃ r w, s.countEcc store unit false = { s with regs := r, sup := { s.sup with ceWin := w } } ∧
      ∀ j, j ≠ Reg.hmEcc store → rget s.grade r j = s.reg j := by
  have hreg (j : Nat) (hj : j ≠ Reg.hmEcc store) : ((s.setFld (Reg.hmEcc store) 63 48 unit).bump (Reg.hmEcc store) 31 0).reg j = s.reg j :=
    (State.reg_bump_ne _ _ _ hj).trans (State.reg_setFld_ne _ _ _ _ hj)
  have hact : ((s.setFld (Reg.hmEcc store) 63 48 unit).bump (Reg.hmEcc store) 31 0).act Reg.hmCfg = s.act Reg.hmCfg := rfl
  have he : s.countEcc store unit false = ((s.setFld (Reg.hmEcc store) 63 48 unit).bump (Reg.hmEcc store) 31 0).limitCheck store unit false := rfl
  rw [he]
  unfold State.limitCheck
  split
  · exact ⟨_, s.sup.ceWin, rfl, hreg⟩
  · dsimp only
    rw [if_neg Bool.false_ne_true, hact, if_neg (fun hc => hc.1 h)]
    exact ⟨_, _, rfl, hreg⟩

theorem State.link_discardBlock : (s.discardBlock l).link l = { s.link l with nackSent := true, queue := ((s.discardBlock l).link l).queue } ∧
    ((s.discardBlock l).link l).queue.length = (s.link l).queue.length + (if (s.link l).nackSent then 0 else 1) := by
  unfold State.discardBlock
  dsimp only
  cases h : (s.link l).nackSent with
  | true =>
    refine ⟨?_, by simp⟩
    rw [if_pos rfl, ← h]
  | false =>
    rw [if_neg Bool.false_ne_true]
    unfold State.linkPush
    rw [State.link_setLink_self, State.link_setLink_self]
    exact ⟨rfl, by simp⟩

theorem State.discardBlock_is : ∃ x, s.discardBlock l = { s with fab := { s.fab with links := x } } := by
  unfold State.discardBlock
  dsimp only
  split
  · exact ⟨_, rfl⟩
  · exact ⟨_, rfl⟩

/-- What a block that is discarded for its CRC or its tag leaves (R447, R450). -/
theorem State.crcFailure_leaves (hcfg : fld (s.act Reg.hmCfg) 63 32 = 0) (hs : tsorted s.regs = true) :
    (s.crcFailure l).regFld (Reg.fbLinkCnt l) 15 0 = (s.regFld (Reg.fbLinkCnt l) 15 0 + 1) % 2 ^ 16 ∧
      (s.crcFailure l).link l = { s.link l with nackSent := true, queue := ((s.crcFailure l).link l).queue } ∧
      ((s.crcFailure l).link l).queue.length = (s.link l).queue.length + (if (s.link l).nackSent then 0 else 1) ∧
      ∃ x r w, s.crcFailure l = { s with fab := { s.fab with links := x }, regs := r, sup := { s.sup with ceWin := w } } := by
  obtain ⟨r, w, he, hreg⟩ := State.countEcc_corrected (s := s.bump (Reg.fbLinkCnt l) 15 0) hcfg 11 l
  have hact : s.crcFailure l = ({ s with regs := r, sup := { s.sup with ceWin := w } } : State).discardBlock l := congrArg (·.discardBlock l) he
  obtain ⟨hlink, hlen⟩ := State.link_discardBlock (s := { s with regs := r, sup := { s.sup with ceWin := w } }) (l := l)
  obtain ⟨x, hx⟩ := State.discardBlock_is (s := { s with regs := r, sup := { s.sup with ceWin := w } }) (l := l)
  refine ⟨?_, by rw [hact]; exact hlink, by rw [hact]; exact hlen, x, r, w, hact.trans hx⟩
  rw [hact, hx]
  have hne : Reg.fbLinkCnt l ≠ Reg.hmEcc 11 := by
    simp only [Reg.fbLinkCnt, Reg.hmEcc]
    omega
  exact (congrArg (fld · 15 0) (hreg _ hne)).trans (State.regFld_bump hs (by decide))

/-! ### What each kind does -/

/-- Every command of a received block but LINE_ACK and FOG. -/
theorem exec_received {c : Instr} (hc : (c, k) ∈ [(Instr.linkIdle l b, 0), (.linkData l b, 1), (.linkDataMasked l b, 2), (.linkAdd l b, 3),
      (.linkSignal l b, 4), (.beacon l b, 6), (.nack l b, 8), (.close l b, 9), (.busy l b, 10)]) :
    ∃ f, exec c s = whenIssuing (fun s => s.receive l k b f) s := by
  simp only [List.mem_cons, List.not_mem_nil, or_false, Prod.mk.injEq] at hc
  rcases hc with ⟨rfl, rfl⟩ | ⟨rfl, rfl⟩ | ⟨rfl, rfl⟩ | ⟨rfl, rfl⟩ | ⟨rfl, rfl⟩ | ⟨rfl, rfl⟩ | ⟨rfl, rfl⟩ | ⟨rfl, rfl⟩ | ⟨rfl, rfl⟩
  all_goals exact ⟨_, rfl⟩

/-- Settles O57, one check of a block after the other. -/
theorem receivedBlocksAreCheckedFirst : Obligations.ReceivedBlocksAreCheckedFirst := by
  intro s l k b c hi hc
  obtain ⟨f, hf⟩ := exec_received (s := s) hc
  refine ⟨fun h => ?_, fun hl hcar harm => ⟨fun hg ht hk => ?_, fun h hcfg hs => ?_⟩, fun h => ?_, fun h => ⟨fun hne hsends => ?_, fun hsends hup => ?_⟩⟩
  · exact hf.trans (whenIssuing_next (f := fun s => s.receive l k b f) hi (State.receive_barred h) rfl)
  · exact hf.trans (whenIssuing_next (f := fun s => s.receive l k b f) hi (State.receive_other hl hcar harm hg ht hk) rfl)
  · obtain ⟨hcount, hlink, hlen, x, r, w, hx⟩ := State.crcFailure_leaves (l := l) hcfg hs
    refine ⟨_, hf.trans (whenIssuing_next (f := fun s => s.receive l k b f) hi (State.receive_bad hl hcar harm h) (by rw [hx])),
      hcount, by rw [hlink], by rw [hlink], by rw [hlink], hlen, ?_⟩
    rw [hx]
    exact ⟨rfl, rfl, rfl, rfl, rfl, rfl⟩
  · exact whenIssuing_receive (f := fun s _ => s) hi h
  · have hact : (tookBlock s l 8 b).resendFrom l 0 = (tookBlock s l 8 b).setLink l { (tookBlock s l 8 b).link l with resend := some 0 } :=
      (State.resendFrom_zero hne).trans (if_neg (by simpa using hsends))
    exact (whenIssuing_receive (f := fun s _ => s.takeNack l) hi h).trans (by unfold State.takeNack; rw [hact])
  · obtain ⟨i, hi', hs⟩ := hsends
    have hact : (tookBlock s l 8 b).resendFrom l 0 = (tookBlock s l 8 b).failLink l 2 :=
      (State.resendFrom_zero (List.ne_nil_of_mem hi')).trans (if_pos (List.any_eq_true.mpr ⟨i, hi', decide_eq_true hs⟩))
    have hfail := State.failLink_fails (s := tookBlock s l 8 b) (l := l) (by rw [hup]; decide) 2
    obtain ⟨_, _, _, hlink, -⟩ := hfail.link.trans ((State.Settles.refl _).settleFabric.link l)
    refine ⟨_, whenIssuing_receive (f := fun s _ => s.takeNack l) hi h, ?_⟩
    unfold State.takeNack
    rw [hact]
    exact ⟨(congrArg Link.state hlink).trans rfl, (congrArg Link.cause hlink).trans rfl⟩

end Sys2Proof.Machine
end

section
/-! PROOFS. Beacons and fog (R453 to R456, R478, R479). -/

namespace Sys2Proof.Machine

variable {s t u : State} {l : Nat} {b : LinkBlock}

/-! ### Beacons -/

/-- A link with the neighbour that a beacon names (R453). -/
def Link.heard (x : Link) (b : LinkBlock) : Link :=
  { x with nbrValid := true, nbrChip := leAt b.payload 0 4 % 2 ^ 20, nbrLink := leAt b.payload 10 1, nbrEpoch := leAt b.payload 8 2 }

/-- Whether a beacon bears the ID of this chip (R456). -/
def State.clashes (s : State) (b : LinkBlock) : Bool :=
  (leAt b.payload 0 4).testBit 31 && s.fab.idValid && leAt b.payload 0 4 % 2 ^ 20 == s.fab.chipId

/-- The state that a beacon brings, whose chip ID clashes with this chip's or does not (R454). -/
def State.heardState (s : State) (b : LinkBlock) (clash : Bool) : LinkState :=
  if leAt b.payload 4 4 = s.actFld Reg.fbSystem 63 32 ∧ !clash then .up else .isolated

/-- An event of the fabric that may be noted. -/
def State.evFbIf (s : State) (c : Bool) (b : Nat) : State := if c then s.evFb b else s

theorem State.evFbIf_settles (s : State) (c : Bool) {b : Nat} (hb : b < 64) : s.Settles (s.evFbIf c b) := .ite ((State.Settles.refl s).evFb hb) (.refl s)

theorem State.evFbIf_regs (s : State) (c : Bool) (b : Nat) : ∃ r, s.evFbIf c b = { s with regs := r } := by
  unfold State.evFbIf
  split
  · exact ⟨_, rfl⟩
  · exact ⟨_, rfl⟩

/-- Whether a beacon tells something new of the neighbour (R453). -/
def Link.changes (x : Link) (b : LinkBlock) : Bool :=
  !x.nbrValid || x.nbrChip != leAt b.payload 0 4 % 2 ^ 20 || x.nbrLink != leAt b.payload 10 1 || x.nbrEpoch != leAt b.payload 8 2

/-- A chip ID is derived from a beacon (R455). -/
def State.deriveId (s : State) (l : Nat) (b : LinkBlock) : State :=
  if (leAt b.payload 0 4).testBit 31 && bit (s.act Reg.fbChip) 62 && l == s.actFld Reg.fbSystem 22 16 && !s.fab.derived then
    let s := s.setChipId ((leAt b.payload 0 4 % 2 ^ 20 + s.actFld Reg.fbChip 39 20) % 2 ^ 20) 0x20
    { s with fab := { s.fab with derived := true } }
  else s

/-- The link takes the state that a beacon brings, and announces it (R453, R454). -/
def State.heardAs (s : State) (l : Nat) (st : LinkState) : State :=
  if (s.link l).state == st then s.setLink l { s.link l with state := st } else (s.setLink l { s.link l with state := st }).wantBeacon l

/-- The neighbour of a link is recorded, and a chip ID may be derived (R453, R455). -/
def State.metNeighbour (s : State) (l : Nat) (b : LinkBlock) : State :=
  ((s.evFbIf ((s.link l).changes b) 1).setLink l ((s.link l).heard b)).deriveId l b

theorem State.takeBeacon_eq : s.takeBeacon l b = (((s.metNeighbour l b).evFbIf ((s.metNeighbour l b).clashes b) 7).heardAs l
    (((s.metNeighbour l b).evFbIf ((s.metNeighbour l b).clashes b) 7).heardState b ((s.metNeighbour l b).clashes b))) := by
  rfl

theorem State.Settles.trans (h : s.Settles t) (h' : t.Settles u) : s.Settles u := by
  obtain ⟨_, _, _, _, hrest⟩ := h.rest
  obtain ⟨_, _, _, _, hrest'⟩ := h'.rest
  refine ⟨⟨_, _, _, _, by rw [hrest', hrest]⟩, fun q => ?_, fun j => (h.link j).trans (h'.link j), fun k h1 h2 => (h'.reg k h1 h2).trans (h.reg k h1 h2),
    fun i hi hb => h'.event i hi (h.event i hi hb), fun hs => h'.sorted (h.sorted hs), h'.sources.trans h.sources⟩
  exact Eq.trans (congrArg (fun x : Queue => { x with lost := (s.queue q).lost }) (h'.queue q)) (h.queue q)

theorem State.Settles.reqs (h : s.Settles t) : t.reqs = s.reqs := by
  obtain ⟨_, _, _, _, hrest⟩ := h.rest
  rw [hrest]

theorem State.Settles.win (h : s.Settles t) : t.win = s.win := by
  obtain ⟨_, _, _, _, hrest⟩ := h.rest
  rw [hrest]

theorem State.Settles.sync (h : s.Settles t) : t.sync = s.sync := by
  obtain ⟨_, _, _, _, hrest⟩ := h.rest
  rw [hrest]

theorem State.Settles.pending (h : s.Settles t) : t.pending = s.pending := by
  obtain ⟨_, _, _, _, hrest⟩ := h.rest
  rw [hrest]

/-- What a link becomes does not matter to what waits elsewhere. -/
theorem State.Settles.setLink_both (h : s.Settles t) (l : Nat) (x : Link) : (s.setLink l x).Settles (t.setLink l x) := by
  obtain ⟨_, _, _, _, hrest⟩ := h.rest
  refine ⟨⟨_, _, _, _, by rw [hrest]; rfl⟩, h.queue, fun j => ?_, h.reg, h.event, h.sorted, h.sources⟩
  by_cases hj : j = l
  · rw [hj, State.link_setLink_self, State.link_setLink_self]
    exact .refl _
  · rw [State.link_setLink_ne hj, State.link_setLink_ne hj]
    exact h.link j

/-- The link as a beacon leaves it. -/
def State.heardLink (s : State) (l : Nat) (b : LinkBlock) : Link := { (s.link l).heard b with state := s.heardState b (s.clashes b) }

theorem State.takeBeacon_settles (hd : bit (s.act Reg.fbChip) 62 = false) : (s.setLink l (s.heardLink l b)).Settles (s.takeBeacon l b) ∧
    (s.clashes b = true → bit ((s.takeBeacon l b).reg Reg.fbEvent) 7 = true) := by
  have h1 := s.evFbIf_settles ((s.link l).changes b) (b := 1) (by decide)
  obtain ⟨r, hr⟩ := s.evFbIf_regs ((s.link l).changes b) 1
  have hmet : s.metNeighbour l b = (s.evFbIf ((s.link l).changes b) 1).setLink l ((s.link l).heard b) := by
    have hact : ((s.evFbIf ((s.link l).changes b) 1).setLink l ((s.link l).heard b)).act Reg.fbChip = s.act Reg.fbChip := by rw [hr]; rfl
    exact if_neg (by rw [hact, hd]; simp)
  have hcl : (s.metNeighbour l b).clashes b = s.clashes b := by rw [hmet, hr]; rfl
  have h2 := (s.metNeighbour l b).evFbIf_settles (s.clashes b) (b := 7) (by decide)
  obtain ⟨r', hr'⟩ := (s.metNeighbour l b).evFbIf_regs (s.clashes b) 7
  have hst : ((s.metNeighbour l b).evFbIf (s.clashes b) 7).heardState b (s.clashes b) = s.heardState b (s.clashes b) := by rw [hr', hmet, hr]; rfl
  have hlink : ((s.metNeighbour l b).evFbIf (s.clashes b) 7).link l = (s.link l).heard b := by
    rw [hr']
    exact (congrArg (fun v : State => v.link l) hmet).trans (State.link_setLink_self ..)
  have h3 : (s.setLink l (s.heardLink l b)).Settles (((s.metNeighbour l b).evFbIf (s.clashes b) 7).setLink l (s.heardLink l b)) := by
    have h := h2.setLink_both l (s.heardLink l b)
    rw [hmet, State.setLink_setLink, ← hmet] at h
    exact (h1.setLink_both l (s.heardLink l b)).trans h
  have hbit : s.clashes b = true → bit (((s.metNeighbour l b).evFbIf (s.clashes b) 7).reg Reg.fbEvent) 7 = true := fun hc => by
    rw [hc]
    exact State.bit_evFb (by decide)
  rw [State.takeBeacon_eq, hcl, hst]
  unfold State.heardAs
  rw [hlink]
  split
  · exact ⟨h3, hbit⟩
  · exact ⟨h3.wantBeacon, fun hc => ((State.Settles.refl _).wantBeacon).event 7 (by decide) (hbit hc)⟩

/-! ### Fog -/

/-- What fog does to the links and lines of this chip: it keeps what is not of the fabric, with the accesses under a condition, and a link
that has failed has failed by fog. -/
structure State.Fogged (s : State) (l : Nat) (c : Prop) (t : State) : Prop where
  win : t.win = s.win
  sync : t.sync = s.sync
  pending : t.pending = s.pending
  reqs : c → t.reqs = s.reqs
  fog : t.reg Reg.fbFogInfo = s.reg Reg.fbFogInfo
  event : ∀ i, i < 64 → bit (s.reg Reg.fbEvent) i = true → bit (t.reg Reg.fbEvent) i = true
  failed : (s.link l).state = .failed ∧ (s.link l).cause = 4 → (t.link l).state = .failed ∧ (t.link l).cause = 4
  whole : (s.link l).state ≠ .failed → (t.link l).state ≠ .failed ∨ (t.link l).state = .failed ∧ (t.link l).cause = 4

section
variable {c : Prop}

namespace State.Fogged

theorem refl (s : State) (l : Nat) (c : Prop) : s.Fogged l c s := ⟨rfl, rfl, rfl, fun _ => rfl, rfl, fun _ _ h => h, id, .inl⟩

theorem trans (h : s.Fogged l c t) (h' : t.Fogged l c u) : s.Fogged l c u := by
  refine ⟨h'.win.trans h.win, h'.sync.trans h.sync, h'.pending.trans h.pending, fun hc => (h'.reqs hc).trans (h.reqs hc), h'.fog.trans h.fog,
    fun i hi hb => h'.event i hi (h.event i hi hb), fun hf => h'.failed (h.failed hf), fun hw => ?_⟩
  rcases h.whole hw with hw | hf
  · exact h'.whole hw
  · exact .inr (h'.failed hf)

theorem of_settles (h : s.Settles t) : s.Fogged l c t := by
  obtain ⟨_, _, _, hl, -⟩ := h.link l
  exact ⟨h.win, h.sync, h.pending, fun _ => h.reqs, h.reg _ (by decide) (by decide), h.event,
    fun hf => by rw [hl]; exact hf, fun hw => .inl (by rw [hl]; exact hw)⟩

theorem failLink (s : State) (l j : Nat) : s.Fogged l c (s.failLink j 4) := by
  by_cases hj : (s.link j).state = .failed
  · have hself : s.failLink j 4 = s := if_pos (by simp [hj])
    rw [hself]
    exact .refl ..
  · have h := State.failLink_fails hj 4
    obtain ⟨_, _, _, _, _, _, hrest⟩ := h.rest
    have hfog : Reg.fbFogInfo ∉ [Reg.fbEvent, Reg.fbEventCnt, Reg.kpEvent, Reg.kpEventCnt, Reg.fbLinkCnt j] := by
      simp only [Reg.fbFogInfo, Reg.fbEvent, Reg.fbEventCnt, Reg.kpEvent, Reg.kpEventCnt, Reg.fbLinkCnt, List.mem_cons, List.not_mem_nil, or_false]
      omega
    refine ⟨by rw [hrest], by rw [hrest], by rw [hrest], fun _ => by rw [hrest], h.reg _ hfog, fun i hi hb => h.event i hi (.inr hb), ?_, ?_⟩
    · intro hf
      have hlj : l ≠ j := fun hlj => hj (hlj ▸ hf.1)
      obtain ⟨_, _, _, hl, -⟩ := h.others l hlj
      rw [hl]
      exact hf
    · intro hw
      by_cases hlj : l = j
      · subst hlj
        obtain ⟨_, _, _, hl, -⟩ := h.link
        exact .inr (by rw [hl]; exact ⟨rfl, rfl⟩)
      · obtain ⟨_, _, _, hl, -⟩ := h.others l hlj
        exact .inl (by rw [hl]; exact hw)

/-- The accesses of an inbound line that goes belong to no line. -/
theorem freeIn (s : State) (l k : Nat) : s.Fogged l False (s.freeIn k) := by
  unfold State.freeIn
  dsimp only
  generalize (_ ++ _ : List (Option Nat)) = came
  refine trans (t := came.foldl State.owe s) (of_settles (.foldl (fun hk => hk.owe) (.refl s))) ?_
  exact ⟨rfl, rfl, rfl, False.elim, rfl, fun _ _ h => h, id, .inl⟩

theorem foldl {α : Type} {f : State → α → State} (h : ∀ (t : State) x, t.Fogged l c (f t x)) (xs : List α) (s : State) :
    s.Fogged l c (xs.foldl f s) := by
  induction xs generalizing s with
  | nil => exact .refl ..
  | cons x xs ih => exact (h s x).trans (ih (f s x))

/-- With no line of the chip there is nothing to free. -/
theorem freeAll (s : State) (l chip : Nat) : s.Fogged l (∀ p ∈ s.fab.inb, p.2.src ≠ chip)
    ((s.fab.inb.filter (fun p => p.2.src == chip)).foldl (fun s p => s.freeIn p.1) s) := by
  obtain ⟨h1, h2, h3, -, h5, h6, h7, h8⟩ := foldl (c := False) (fun t (p : Nat × InLine) => freeIn t l p.1) (s.fab.inb.filter (fun p => p.2.src == chip)) s
  refine ⟨h1, h2, h3, fun hc => ?_, h5, h6, h7, h8⟩
  have hnil : s.fab.inb.filter (fun p => p.2.src == chip) = [] := List.filter_eq_nil_iff.mpr fun p hp => by simp [hc p hp]
  rw [hnil]
  rfl

end State.Fogged

end

/-- Fog fails every link that it names. -/
theorem State.failLinks_fails {ls : List Nat} (hl : l ∈ ls) (h : (s.link l).state ≠ .failed) :
    ((ls.foldl (fun s l => s.failLink l 4) s).link l).state = .failed ∧ ((ls.foldl (fun s l => s.failLink l 4) s).link l).cause = 4 := by
  induction ls generalizing s with
  | nil => cases hl
  | cons j ls ih =>
    have htail (u : State) : u.Fogged l True (ls.foldl (fun s l => s.failLink l 4) u) := .foldl (fun t x => .failLink t l x) ls u
    rcases (State.Fogged.failLink (c := True) s l j).whole h with hw | hf
    · rcases List.mem_cons.mp hl with rfl | hl
      · obtain ⟨_, _, _, hx, -⟩ := (State.failLink_fails h 4).link
        exact absurd (by rw [hx]; rfl) hw
      · exact ih hl hw
    · exact (htail (s.failLink j 4)).failed hf

theorem State.failLinks_sources (ls : List Nat) (s : State) :
    (ls.foldl (fun s l => s.failLink l 4) s).fab.inb.map (fun p => p.2.src) = s.fab.inb.map (fun p => p.2.src) := by
  induction ls generalizing s with
  | nil => rfl
  | cons j ls ih =>
    refine (ih (s.failLink j 4)).trans ?_
    by_cases hj : (s.link j).state = .failed
    · have hself : s.failLink j 4 = s := if_pos (by simp [hj])
      rw [hself]
    · exact (State.failLink_fails hj 4).sources

/-- The chip that fog names, and what FB_FOG_INFO holds of it (R479). -/
def fogChip (b : LinkBlock) : Nat := leAt b.payload 0 4 % 2 ^ 20

def fogInfo (l : Nat) (b : LinkBlock) : Word := word (2 ^ 56 * leAt b.payload 12 1 + 2 ^ 40 * leAt b.payload 8 2 + 2 ^ 32 * l + fogChip b)

/-- Fog once it is noted. -/
def State.fogNoted (s : State) (l : Nat) (b : LinkBlock) : State := (s.setReg Reg.fbFogInfo (fogInfo l b)).evFb 2

/-- The links to the chip that fog names. -/
def State.fogLinks (s : State) (l : Nat) (b : LinkBlock) : List Nat :=
  (s.fab.links.filter (fun p => p.1 == l || (p.2.nbrValid && p.2.nbrChip == fogChip b && p.2.state != .down))).map (·.1)

theorem State.mem_fogLinks (h : (s.link l).state ≠ .down) : l ∈ s.fogLinks l b := by
  obtain ⟨x, hx⟩ : ∃ x, tget s.fab.links l = some x := by
    cases hx : tget s.fab.links l with
    | none => exact absurd (by rw [State.link, hx]; rfl) h
    | some x => exact ⟨x, rfl⟩
  exact List.mem_map.mpr ⟨(l, x), List.mem_filter.mpr ⟨mem_of_tget hx, by simp⟩, rfl⟩

/-- Every link to the chip fails (R479). -/
def State.fogFailed (s : State) (l : Nat) (b : LinkBlock) : State := (s.fogLinks l b).foldl (fun s l => s.failLink l 4) (s.fogNoted l b)

/-- Every line of the chip that comes in is free. -/
def State.fogFreed (s : State) (l : Nat) (b : LinkBlock) : State :=
  ((s.fogFailed l b).fab.inb.filter (fun p => p.2.src == fogChip b)).foldl (fun s p => s.freeIn p.1) (s.fogFailed l b)

theorem State.takeFog_eq : s.takeFog l b = ((s.fogFreed l b).fab.out.filter (fun p => p.2.chip == fogChip b)).foldl
    (fun s p => s.loseLine p.1 0x31 ((((p.2.items ++ p.2.waiting).head?).map (·.va)).getD 0)) (s.fogFreed l b) := rfl

theorem State.takeFog_fogs (hd : (s.link l).state ≠ .down) (hf : (s.link l).state ≠ .failed) :
    (s.fogNoted l b).Fogged l (∀ p ∈ s.fab.inb, p.2.src ≠ fogChip b) (s.takeFog l b) ∧
      ((s.takeFog l b).link l).state = .failed ∧ ((s.takeFog l b).link l).cause = 4 := by
  have hsrc : (∀ p ∈ s.fab.inb, p.2.src ≠ fogChip b) → ∀ p ∈ (s.fogFailed l b).fab.inb, p.2.src ≠ fogChip b := fun h p hp => by
    have hmem : p.2.src ∈ (s.fogFailed l b).fab.inb.map (fun p => p.2.src) := List.mem_map.mpr ⟨p, hp, rfl⟩
    rw [State.fogFailed, State.failLinks_sources] at hmem
    obtain ⟨q, hq, hqp⟩ := List.mem_map.mp hmem
    exact hqp ▸ h q hq
  have h1 : (s.fogNoted l b).Fogged l (∀ p ∈ s.fab.inb, p.2.src ≠ fogChip b) (s.fogFailed l b) := .foldl (fun t x => .failLink t l x) ..
  obtain ⟨w, y, p, r, f, e, hfl, hwh⟩ := State.Fogged.freeAll (s.fogFailed l b) l (fogChip b)
  have h2 : (s.fogFailed l b).Fogged l (∀ p ∈ s.fab.inb, p.2.src ≠ fogChip b) (s.fogFreed l b) := ⟨w, y, p, fun hc => r (hsrc hc), f, e, hfl, hwh⟩
  have h3 : (s.fogFreed l b).Fogged l (∀ p ∈ s.fab.inb, p.2.src ≠ fogChip b) (s.takeFog l b) := by
    rw [State.takeFog_eq]
    exact .foldl (fun t x => .of_settles (State.Settles.refl t).loseLine) ..
  exact ⟨h1.trans (h2.trans h3), h3.failed (h2.failed (State.failLinks_fails (State.mem_fogLinks hd) hf))⟩

theorem State.heardLink_tookBlock : ((tookBlock s l 6 b).heardLink l b).state =
    if leAt b.payload 4 4 = s.actFld Reg.fbSystem 63 32 ∧ s.clashes b = false then LinkState.up else .isolated := by
  have hst : ((tookBlock s l 6 b).heardLink l b).state = s.heardState b (s.clashes b) := rfl
  rw [hst, State.heardState]
  cases s.clashes b <;> simp

/-- What a beacon leaves of its link, told of the state before it. -/
theorem State.beacon_leaves (hd : bit (s.act Reg.fbChip) 62 = false) (ht : ((tookBlock s l 6 b).takeBeacon l b).settleFabric = t) :
    ((tookBlock s l 6 b).heardLink l b).Same (t.link l) ∧ (s.clashes b = true → bit (t.reg Reg.fbEvent) 7 = true) ∧
      t.reqs = s.reqs ∧ t.win = s.win ∧ t.sync = s.sync ∧ ∀ q, { t.queue q with lost := (s.queue q).lost } = s.queue q := by
  obtain ⟨hset, hclash⟩ := State.takeBeacon_settles (s := tookBlock s l 6 b) (l := l) (b := b) hd
  have hst := hset.settleFabric
  have hev := (State.Settles.refl ((tookBlock s l 6 b).takeBeacon l b)).settleFabric.event 7 (by decide)
  rw [ht] at hst hev
  have hlink := hst.link l
  rw [State.link_setLink_self] at hlink
  exact ⟨hlink, fun hc => hev (hclash hc), hst.reqs, hst.win, hst.sync, hst.queue⟩

theorem State.fogNoted_keeps : (s.fogNoted l b).reqs = s.reqs ∧ (s.fogNoted l b).win = s.win ∧ (s.fogNoted l b).sync = s.sync := ⟨rfl, rfl, rfl⟩

theorem State.reg_fogNoted (hs : tsorted s.regs = true) : (s.fogNoted l b).reg Reg.fbFogInfo = fogInfo l b := by
  unfold State.fogNoted
  rw [State.reg_evFb_ne 2 (by decide) (by decide), State.reg_setReg hs, if_pos rfl]

theorem ackLink_state (x : Link) (ack : Nat) : (ackLink x ack).state = x.state := by
  unfold ackLink
  dsimp only
  split <;> rfl

/-- What a tag returns does not change the state of its link. -/
theorem link_tookBlock_state (k : Nat) : ((tookBlock s l k b).link l).state = (s.link l).state := by
  unfold tookBlock State.tagReturns
  dsimp only
  rw [State.link_setLink_self, State.link_setLink_self]
  exact ackLink_state ..

/-- What fog leaves of its link, told of the state before it. -/
theorem State.fog_leaves (hc : carries (s.link l).state 7 = true) (hs : tsorted s.regs = true)
    (ht : ((tookBlock s l 7 b).takeFog l b).settleFabric = t) :
    (t.link l).state = .failed ∧ (t.link l).cause = 4 ∧ bit (t.reg Reg.fbEvent) 2 = true ∧ t.reg Reg.fbFogInfo = fogInfo l b ∧
      ((∀ p ∈ s.fab.inb, p.2.src ≠ fogChip b) → t.reqs = s.reqs) ∧ t.win = s.win ∧ t.sync = s.sync := by
  have hst : ((tookBlock s l 7 b).link l).state = (s.link l).state := link_tookBlock_state 7
  have hne : (s.link l).state ≠ .down ∧ (s.link l).state ≠ .failed := by
    constructor
    all_goals
      intro h
      rw [h] at hc
      cases hc
  obtain ⟨hfog, hfail⟩ := State.takeFog_fogs (s := tookBlock s l 7 b) (l := l) (b := b) (by rw [hst]; exact hne.1) (by rw [hst]; exact hne.2)
  have hset : ((tookBlock s l 7 b).takeFog l b).Fogged l (∀ p ∈ s.fab.inb, p.2.src ≠ fogChip b) t := .of_settles (ht ▸ (State.Settles.refl _).settleFabric)
  obtain ⟨hstate, hcause⟩ := hset.failed hfail
  have hall := hfog.trans hset
  obtain ⟨hr, hw, hy⟩ : ((tookBlock s l 7 b).fogNoted l b).reqs = s.reqs ∧ ((tookBlock s l 7 b).fogNoted l b).win = s.win ∧
      ((tookBlock s l 7 b).fogNoted l b).sync = s.sync := State.fogNoted_keeps
  have hbit : bit (((tookBlock s l 7 b).fogNoted l b).reg Reg.fbEvent) 2 = true := by
    unfold State.fogNoted
    exact State.bit_evFb (by decide)
  have hinfo := State.reg_fogNoted (s := tookBlock s l 7 b) (l := l) (b := b) hs
  exact ⟨hstate, hcause, hall.event 2 (by decide) hbit, hall.fog.trans hinfo,
    fun h => (hall.reqs h).trans hr, hall.win.trans hw, hall.sync.trans hy⟩

/-- Settles O60: a beacon by what it records of the neighbour, fog by what it fails. -/
theorem beaconsAndFogSetTheLink : Obligations.BeaconsAndFogSetTheLink := by
  intro s l b hi chip clash
  refine ⟨fun h hd => ?_, fun h hs => ?_⟩
  · obtain ⟨⟨_, _, _, hlink, -⟩, hclash, hrest⟩ := State.beacon_leaves (l := l) (b := b) hd rfl
    have hex := whenIssuing_receive (f := fun s _ => s.takeBeacon l b) hi h
    dsimp only at hex
    generalize ((tookBlock s l 6 b).takeBeacon l b).settleFabric = t at *
    refine ⟨_, hex, congrArg Link.nbrValid hlink, congrArg Link.nbrChip hlink,
      congrArg Link.nbrLink hlink, congrArg Link.nbrEpoch hlink, (congrArg Link.state hlink).trans State.heardLink_tookBlock, hclash, hrest⟩
  · have hex : exec (.fog l b) s = .next { State.pump ((tookBlock s l 7 b).takeFog l b).settleFabric with pending := s.pending } := by
      have h0 := whenIssuing_acts (f := fun s => (s.receive l 7 b (fun s _ => s.takeFog l b)).pump) hi
      rw [State.receive_sound h] at h0
      exact h0
    have hleft := State.fog_leaves (b := b) h.2.1 hs rfl
    generalize ((tookBlock s l 7 b).takeFog l b).settleFabric = t at *
    exact ⟨t, hex, hleft⟩

end Sys2Proof.Machine
end

section
/-! PROOFS. What a link sends (R449, R450, R452, R473, R478). -/

namespace Sys2Proof.Machine

variable {s t u : State} {l : Nat} {it : LinkItem} {x : Link}

theorem blockKind_eq (b : LinkBlock) : blockKind b = (tagFields b).kind := by
  have h : (tagFields b).kind = nfld (nfld b.tag.toNat 63 0) 39 32 := rfl
  rw [h, blockKind]
  unfold nfld
  omega

theorem State.issuing_iff : s.issuing = true ↔ s.normal = true ∧ s.kp.fatal = none ∧ s.rst.abort = false := by
  simp [State.issuing, and_assoc]

/-! ### A block leaves -/

theorem State.countSend_is (s : State) (it : LinkItem) : ∃ o, s.countSend it = { s with fab := { s.fab with out := o } } := by
  unfold State.countSend
  split
  · exact ⟨_, rfl⟩
  · split
    · exact ⟨_, rfl⟩
    · exact ⟨_, rfl⟩

/-- A link that sends a block of its queue (R449, R450). -/
def Link.sending (x : Link) (it : LinkItem) : Link :=
  let queue := match firstIdx (· == it) x.queue 0 with
    | some i => x.queue.eraseIdx i
    | none => x.queue
  let y := { x with queue := queue, owed := x.owed - min x.owed 32 }
  if lineKind (blockKind it.block) then { y with txSeq := (x.txSeq + 1) % 2 ^ 16, credits := x.credits - 1, replay := x.replay ++ [{ it with sends := 1 }] }
  else y

theorem State.sendFirst_eq (h : s.sentOut it = none) : s.sendFirst l it =
    ((s.setLink l ((s.link l).sending it)).emit (.link l (stampBlock (s.link l) (s.link l).txSeq it.block))).countSend it := by
  unfold State.sendFirst
  rw [h]
  rfl

theorem State.sendFirst_lost {n va : Nat} (h : s.sentOut it = some (n, va)) : s.sendFirst l it = s.loseLine n 0x30 va := by
  unfold State.sendFirst
  rw [h]

/-- What the sending of a block of the queue leaves. -/
structure State.Sent (s : State) (l : Nat) (it : LinkItem) (u : State) : Prop where
  out : u.out = s.out ++ [.link l (stampBlock (s.link l) (s.link l).txSeq it.block)]
  link : u.link l = (s.link l).sending it
  win : u.win = s.win
  reqs : u.reqs = s.reqs
  descs : u.descs = s.descs
  pending : u.pending = s.pending

theorem State.sendFirst_sent (h : s.sentOut it = none) : s.Sent l it (s.sendFirst l it) := by
  obtain ⟨o, ho⟩ := ((s.setLink l ((s.link l).sending it)).emit (.link l (stampBlock (s.link l) (s.link l).txSeq it.block))).countSend_is it
  rw [State.sendFirst_eq h, ho]
  exact ⟨rfl, State.link_setLink_self .., rfl, rfl, rfl, rfl⟩

theorem Link.sending_owed : (x.sending it).owed = x.owed - min x.owed 32 := by
  unfold Link.sending
  dsimp only
  split <;> rfl

theorem Link.sending_line (h : lineKind (blockKind it.block) = true) : (x.sending it).txSeq = (x.txSeq + 1) % 2 ^ 16 ∧
    (x.sending it).credits = x.credits - 1 ∧ (x.sending it).replay = x.replay ++ [{ it with sends := 1 }] := by
  unfold Link.sending
  rw [h]
  exact ⟨rfl, rfl, rfl⟩

theorem Link.sending_free (h : lineKind (blockKind it.block) = false) : (x.sending it).txSeq = x.txSeq ∧ (x.sending it).credits = x.credits ∧
    (x.sending it).replay = x.replay := by
  unfold Link.sending
  rw [h]
  exact ⟨rfl, rfl, rfl⟩

theorem Link.sending_only (h : x.queue = [it]) : (x.sending it).queue = [] := by
  have hq : firstIdx (· == it) [it] 0 = some 0 := by simp [firstIdx]
  unfold Link.sending
  dsimp only
  rw [h, hq]
  split <;> rfl

/-! ### The choice of a block -/

/-- What goes before any other traffic goes first (R473). -/
theorem State.linkSend_first (h : (s.link l).queue.find? (fun it => firstKind (blockKind it.block) && mayLeave (s.link l) it) = some it) :
    s.linkSend l = s.sendFirst l it := by
  unfold State.linkSend
  dsimp only
  rw [h]

theorem State.linkSend_again {i : Nat} (h : (s.link l).queue.find? (fun it => firstKind (blockKind it.block) && mayLeave (s.link l) it) = none)
    (hr : (s.link l).resend = some i) (hup : (s.link l).state = .up) : s.linkSend l = s.sendAgain l i := by
  unfold State.linkSend
  dsimp only
  rw [h, hr]
  exact if_pos (by simp [hup])

/-- The blocks of the queue that take part in the arbitration of a link (R473). -/
def State.linkReady (s : State) (l : Nat) : List Cand :=
  (List.range (s.link l).queue.length).filterMap (fun i =>
    match (s.link l).queue[i]? with
    | some it => if mayLeave (s.link l) it && !firstKind (blockKind it.block) then some (s.linkCand i it) else none
    | none => none)

theorem State.linkSend_ready (h : (s.link l).queue.find? (fun it => firstKind (blockKind it.block) && mayLeave (s.link l) it) = none)
    (hr : (s.link l).resend = none) {v : State} {c : Option Cand} (ha : s.arbitrate (linkPoint l) 2304 (s.linkReady l) = (v, c)) :
    s.linkSend l = c.elim v (fun c => (((s.link l).queue[c.id]?).map (v.sendFirst l)).getD v) := by
  unfold State.linkSend
  dsimp only
  rw [h, hr]
  dsimp only
  generalize hcs : List.filterMap _ _ = cs
  obtain rfl : s.linkReady l = cs := hcs
  rw [ha]
  cases c with
  | none => rfl
  | some c => rfl

theorem State.linkReady_one (hq : (s.link l).queue = [it]) (hf : firstKind (blockKind it.block) = false) (hm : mayLeave (s.link l) it = true) :
    s.linkReady l = [s.linkCand 0 it] := by
  unfold State.linkReady
  rw [hq]
  simp [hf, hm]

theorem State.linkReady_none (h : ∀ it ∈ (s.link l).queue, mayLeave (s.link l) it = false) : s.linkReady l = [] := by
  unfold State.linkReady
  refine List.filterMap_eq_nil_iff.mpr fun i _ => ?_
  split
  · next it hit => exact if_neg (by simp [h it (List.mem_of_getElem? hit)])
  · rfl

/-- A line block without a credit does not leave (R449). -/
theorem mayLeave_dry (hk : lineKind (blockKind it.block) = true) (hc : x.credits = 0) : mayLeave x it = false := by
  unfold mayLeave
  simp [hk, hc]

/-! ### A block that is sent again -/

theorem State.sendAgain_is {i : Nat} (hi : (s.link l).replay[i]? = some it) (hl : it.line = none) :
    ∃ r, s.sendAgain l i = { s.setLink l { s.link l with
        owed := (s.link l).owed - min (s.link l).owed 32, resend := if i + 1 < (s.link l).replay.length then some (i + 1) else none,
        replay := (s.link l).replay.set i { it with sends := it.sends + 1 } } with
      regs := r, out := s.out ++ [.link l (stampBlock (s.link l) (((s.link l).txSeq + 2 ^ 16 - (s.link l).replay.length + i) % 2 ^ 16) it.block)] } := by
  have hsent : s.sentOut it = none := by rw [State.sentOut, hl]; rfl
  have hcount (v : State) : v.countSend it = v := by
    unfold State.countSend
    rw [hl]
  unfold State.sendAgain
  dsimp only
  rw [hi]
  dsimp only
  rw [hsent, hcount, Nat.mod_add_mod]
  exact ⟨_, rfl⟩

/-! ### The IDLE tag -/

/-- The IDLE tag of a link (R450). -/
def State.idleItem (s : State) : LinkItem := ownItem { Tag.ofKind 0 with src := s.fab.chipId % 2 ^ 20 } []

theorem State.idleTag_fits : Tag.Fits { Tag.ofKind 0 with src := s.fab.chipId % 2 ^ 20 } := by
  constructor
  all_goals simp [Tag.ofKind]
  omega

theorem State.tagFields_idleItem : tagFields s.idleItem.block = { Tag.ofKind 0 with src := s.fab.chipId % 2 ^ 20 } :=
  Tag.tagFields_block State.idleTag_fits []

theorem State.blockKind_idleItem : blockKind s.idleItem.block = 0 := by
  rw [blockKind_eq, State.tagFields_idleItem]
  rfl

theorem State.tagFields_stampedIdle (hs : x.txSeq < 2 ^ 16) (hr : x.rxSeq < 2 ^ 16) :
    tagFields (stampBlock x x.txSeq s.idleItem.block) = { Tag.ofKind 0 with
      src := s.fab.chipId % 2 ^ 20, linkSeq := x.txSeq, ack := x.rxSeq, credit := min x.owed 32 } := by
  unfold stampBlock withTag
  rw [State.tagFields_idleItem]
  refine Tag.tagFields_block ?_ _
  constructor
  all_goals simp [Tag.ofKind]
  all_goals omega

/-! ### The commands -/

theorem exec_linkSend_halted (hl : s.hasLink l = true) (hr : s.rst.inEffect = false) (hf : s.kp.fatal.isSome = true ∨ s.kp.mode = .halted) :
    exec (.linkSend l) s = .next (if (s.link l).state = .training ∨ (s.link l).state = .up then s.emit (.link l (s.fogBlock l)) else s) := by
  have hturn : s.linkTurn l = if (s.link l).state = .training ∨ (s.link l).state = .up then s.emit (.link l (s.fogBlock l)) else s := by
    unfold State.linkTurn
    refine (if_neg (by simp [hl])).trans ((if_pos ?_).trans (if_congr (by simp) rfl rfl))
    rcases hf with hf | hf
    · simp [hf]
    · simp [hf]
  have hact := outOfReset_acts (f := fun s => s.linkTurn l) hr
  dsimp only at hact
  rw [hturn] at hact
  refine hact.trans ?_
  split <;> rfl

theorem exec_linkSend_acts (hl : s.hasLink l = true) (hi : s.issuing = true) :
    exec (.linkSend l) s = .next { (s.linkSend l).settleFabric with pending := s.pending } := by
  obtain ⟨hn, hf, ha⟩ := State.issuing_iff.mp hi
  have hmode : s.rst.inEffect = false ∧ s.kp.mode = .normal := by simpa [State.normal, and_comm] using hn
  have hturn : s.linkTurn l = (s.linkSend l).settleFabric := by
    unfold State.linkTurn
    exact (if_neg (by simp [hl])).trans ((if_neg (by simp [hf, hmode.2])).trans (if_pos hi))
  have hact := outOfReset_acts (f := fun s => s.linkTurn l) hmode.1
  dsimp only at hact
  rw [hturn] at hact
  exact hact

/-- Settles O56, one reason to send after the other. -/
theorem linksSendWithinTheirCredits : Obligations.LinksSendWithinTheirCredits := by
  intro s l hl x sent
  have hsent {u v : State} {it : LinkItem} (h : v.Sent l it u) (hlink : v.link l = x) (hout : v.out = s.out) : sent u it := by
    have hu : u.link l = x.sending it := h.link.trans (by rw [hlink])
    refine ⟨h.out.trans (by rw [hlink, hout]), (congrArg Link.owed hu).trans Link.sending_owed, fun hk => ?_, fun hk => ?_⟩
    · obtain ⟨h1, h2, h3⟩ := Link.sending_line (x := x) hk
      exact ⟨(congrArg Link.txSeq hu).trans h1, (congrArg Link.credits hu).trans h2, (congrArg Link.replay hu).trans h3⟩
    · obtain ⟨h1, h2, h3⟩ := Link.sending_free (x := x) hk
      exact ⟨(congrArg Link.txSeq hu).trans h1, (congrArg Link.credits hu).trans h2, (congrArg Link.replay hu).trans h3⟩
  refine ⟨fun hr hf => ⟨fun h => ?_, fun h1 h2 => ?_⟩, fun hi => ⟨fun it h h0 => ?_, fun i it h hr hup hit hline => ?_, fun it hq hr hf hm h0 => ?_,
    fun hr hc hq => ?_, fun it n va h h0 => ?_, fun hup hq hr => ?_⟩⟩
  · exact (exec_linkSend_halted hl hr hf).trans (congrArg _ (if_pos h))
  · exact (exec_linkSend_halted hl hr hf).trans (congrArg _ (if_neg (not_or.mpr ⟨h1, h2⟩)))
  · have hs := State.sendFirst_sent (l := l) h0
    exact ⟨_, by rw [exec_linkSend_acts hl hi, State.linkSend_first h], hsent hs rfl rfl, hs.win, hs.reqs⟩
  · obtain ⟨r, h0⟩ := State.sendAgain_is hit hline
    refine ⟨_, by rw [exec_linkSend_acts hl hi, State.linkSend_again h hr hup], by rw [h0], ?_⟩
    have hu : (s.sendAgain l i).link l = { s.link l with
        owed := (s.link l).owed - min (s.link l).owed 32, resend := if i + 1 < (s.link l).replay.length then some (i + 1) else none,
        replay := (s.link l).replay.set i { it with sends := it.sends + 1 } } := by
      rw [h0]
      exact State.link_setLink_self ..
    rw [hu]
    exact ⟨rfl, rfl, rfl, rfl⟩
  · have h : (s.link l).queue.find? (fun it => firstKind (blockKind it.block) && mayLeave (s.link l) it) = none := by
      have hq' : (s.link l).queue = [it] := hq
      simp [hq', hf]
    obtain ⟨d, hd⟩ := s.arbitrate_one (linkPoint l) (quantum := 2304) (by decide) (s.linkCand 0 it)
    rw [← State.linkReady_one hq hf hm] at hd
    have hact : s.linkSend l = ({ s with drr := d } : State).sendFirst l it := by
      have hq' : (s.link l).queue = [it] := hq
      rw [State.linkSend_ready h hr hd, Option.elim_some, hq']
      rfl
    have hs := State.sendFirst_sent (s := { s with drr := d }) (l := l) h0
    exact ⟨_, by rw [exec_linkSend_acts hl hi, hact], hsent hs rfl rfl, (congrArg Link.queue hs.link).trans (Link.sending_only hq), hs.win, hs.reqs⟩
  · have hdry : ∀ it ∈ (s.link l).queue, mayLeave (s.link l) it = false := fun it hit => mayLeave_dry (hq it hit) hc
    have h : (s.link l).queue.find? (fun it => firstKind (blockKind it.block) && mayLeave (s.link l) it) = none :=
      List.find?_eq_none.mpr fun it hit => by simp [hdry it hit]
    obtain ⟨d, hd⟩ := s.arbitrate_nil (linkPoint l) 2304
    rw [← State.linkReady_none hdry] at hd
    have hact : s.linkSend l = { s with drr := d } := (State.linkSend_ready h hr hd).trans rfl
    exact ⟨{ s with drr := d }, by rw [exec_linkSend_acts hl hi, hact], rfl, rfl⟩
  · rw [exec_linkSend_acts hl hi, State.linkSend_first h, State.sendFirst_lost h0]
  · have h0 : s.sentOut s.idleItem = none := rfl
    have hs := State.sendFirst_sent (l := l) h0
    have hact : s.linkIdleTag l = s.sendFirst l s.idleItem := if_pos <| by
      simp [hl, show (s.link l).state = .up from hup, show (s.link l).queue.any (mayLeave (s.link l)) = false from hq,
        show (s.link l).resend = none from hr]
    obtain ⟨h1, h2, h3⟩ := Link.sending_free (x := x) (it := s.idleItem) (by rw [State.blockKind_idleItem]; rfl)
    refine ⟨_, _, whenIssuing_next (f := fun s => s.linkIdleTag l) hi hact hs.pending, hs.out, rfl, (congrArg Link.owed hs.link).trans Link.sending_owed,
      (congrArg Link.txSeq hs.link).trans h1, (congrArg Link.credits hs.link).trans h2, hs.reqs, hs.win, hs.descs, fun ht hr => ?_⟩
    have hf := State.tagFields_stampedIdle (s := s) ht hr
    rw [hf]
    exact ⟨rfl, rfl, rfl⟩

end Sys2Proof.Machine
end

section
/-! PROOFS. A signal block on a table of buoys that is not in its order (R438, R466): the statement of the line blocks says nothing of that order. -/

namespace Sys2Proof.Machine

/-- A signal of amount zero on buoy identifier 0 of context 0, the first item of line 0 of chip 1. -/
def zeroSignal : LinkBlock := { Tag.ofKind 4 with src := 1 }.block []

/-- The line on which the signal comes. -/
def signalLine : InLine :=
  { src := 1, line := 0, opened := true, opening := { tag := 0, payload := [] }, expect := 0, reorder := [], applying := [], acked := 0, refusal := none }

/-- Chip 0 in mode NORMAL, with link 0 UP and context 0 mapped on buoy 0, and with two entries of buoy 0 in the table of buoys: the first is the
default value, which a table in its order never holds (log entry 3). -/
def twiceHeld : State :=
  { State.reset with
    rst := { inEffect := false, level := .cold, abort := false }, kp := { Keeper.cold with mode := .normal },
    cfg := { State.reset.cfg with active := [(rkey Reg.byCtxMap 0, 0x10000)] },
    fab := { State.reset.fab with idValid := true, links := [(0, { Link.blank with state := .up })], inb := [(0, signalLine)] },
    sync := { State.reset.sync with
      buoys := [(0, { value := 0, sat := false, poison := false }), (0, { value := 5, sat := false, poison := false })] } }

/-- The value of buoy 0 that a command leaves. -/
def valueAfter (o : Host.Outcome State Fault Refusal) : Nat :=
  match o with
  | .next t => (t.buoy 0).value
  | _ => 0

theorem zeroSignal_sound : soundBlock twiceHeld 0 4 zeroSignal := by
  unfold soundBlock
  decide +kernel

/-- The operation takes the first entry of the table, and the second one shows. -/
theorem valueAfter_zeroSignal : valueAfter (exec (.linkSignal 0 zeroSignal) twiceHeld) = 5 := by decide +kernel

/-- Refutes O58: the statement does not ask for a table of buoys in its order. A signal of amount zero leaves a buoy at the default value, which
takes its entry out of the table; where a second entry of the buoy stands behind it, the buoy reads 5 afterwards. -/
theorem not_lineBlocksAreAppliedInTurn : ¬ Obligations.LineBlocksAreAppliedInTurn := by
  intro h
  have hline := h twiceHeld 0 4 0 zeroSignal (.linkSignal 0 zeroSignal) signalLine (by decide +kernel) zeroSignal_sound (by simp)
    (by decide +kernel) (by decide +kernel) (by decide +kernel) (by decide +kernel) (by decide +kernel) (by decide +kernel) rfl rfl
  obtain ⟨-, -, -, -, hsignal, -⟩ := hline
  obtain ⟨v, hv, hbuoy, -⟩ := hsignal 0 rfl rfl (by decide +kernel) (by decide +kernel) (by decide +kernel) (by decide +kernel) (by decide +kernel)
  have hvalue : (v.buoy 0).value = 0 := by
    rw [hbuoy]
    decide +kernel
  have hafter : valueAfter (exec (.linkSignal 0 zeroSignal) twiceHeld) = (v.settleFabric.buoy 0).value := by
    rw [hv]
    rfl
  have hkept : v.settleFabric.buoy 0 = v.buoy 0 := State.buoy_of_sync (congrArg Sync.buoys (State.Settles.refl v).settleFabric.sync) 0
  rw [valueAfter_zeroSignal, hkept, hvalue] at hafter
  cases hafter

end Sys2Proof.Machine
end

section
/-! PROOFS. Lines are acknowledged, refused, sent again or lost (R386, R452, R463, R468, R475, R476). -/

namespace Sys2Proof.Machine

variable {s t u : State} {k l n : Nat} {b : LinkBlock} {ls : List Nat} {alt : Bool}

/-! ### Routes -/

/-- The route to a chip depends on the configuration, the chip ID and the states of the links. -/
theorem State.routeTo_congr (hd : t.die = s.die) (hr : t.regs = s.regs) (hc : t.cfg = s.cfg) (hi : t.fab.chipId = s.fab.chipId)
    (hl : ∀ j, (t.link j).state = (s.link j).state) (d : Nat) : t.routeTo d = s.routeTo d := by
  have hlink : t.hasLink = s.hasLink := by
    funext j
    unfold State.hasLink State.linkFuse State.linkRetired State.nLinks State.reg State.grade
    rw [hd, hr]
  have hup : t.upLinks = s.upLinks := by
    funext n
    unfold State.upLinks linkSetOf State.grade
    rw [hd, hc, hlink]
    exact List.filter_congr fun j _ => by rw [hl j]
  have hact : t.act = s.act := by
    unfold State.act State.grade
    rw [hd, hc]
  unfold State.routeTo State.routeEntry
  rw [hup, hact, hi]

theorem State.linkPush_state (l : Nat) (it : LinkItem) (j : Nat) : ((s.linkPush l it).link j).state = (s.link j).state := by
  by_cases h : j = l
  · subst h
    exact (congrArg Link.state (State.link_setLink_self ..)).trans rfl
  · exact congrArg Link.state (State.link_setLink_ne h _)

theorem State.ne_nil_of_bestLink (h : s.bestLink ls = some l) : ls ≠ [] := by
  rintro rfl
  cases h

/-- A block that has a route leaves for the link with the most credits (R459, R464). -/
theorem State.sendBlock_routed {it : LinkItem} (hs : s.isSelf (tagFields it.block).dst = false) (hr : s.routeTo (tagFields it.block).dst = some (ls, alt))
    (hb : s.bestLink ls = some l) (hc : it.came = none) : s.sendBlock it = s.linkPush l it := by
  obtain ⟨j, ls, rfl⟩ := List.exists_cons_of_ne_nil (State.ne_nil_of_bestLink hb)
  have hfor : s.linkFor (j :: ls) it.block = some l := by
    unfold State.linkFor
    rw [hb]
    rfl
  have hit : { it with came := none } = it := by rw [← hc]
  unfold State.sendBlock
  dsimp only
  rw [hr]
  unfold State.sendWaiting
  dsimp only
  rw [hs, if_neg Bool.false_ne_true, hr]
  dsimp only
  rw [hfor]
  dsimp only
  rw [hit, hc]
  rfl

/-! ### The receiving side -/

/-- The acknowledgement of a line (R468). -/
def State.ackItem (s : State) (x : InLine) : LinkItem :=
  ownItem { Tag.ofKind 5 with
    src := s.fab.chipId, dst := x.src, hops := 1, line := x.line, seq := (x.expect + 2 ^ 32 - 1) % 2 ^ 32, lc := true,
    addr := b2n (!x.reorder.isEmpty) * 256 } []

theorem State.ackItem_dst {x : InLine} (hs : x.src < 2 ^ 20) (hc : s.fab.chipId < 2 ^ 20) (hl : x.line < 2 ^ 12) : (tagFields (s.ackItem x).block).dst = x.src := by
  have hfits : Tag.Fits { Tag.ofKind 5 with
      src := s.fab.chipId, dst := x.src, hops := 1, line := x.line, seq := (x.expect + 2 ^ 32 - 1) % 2 ^ 32, lc := true,
      addr := b2n (!x.reorder.isEmpty) * 256 } := by
    have hb := b2n_lt (!x.reorder.isEmpty)
    constructor
    all_goals simp only [Tag.ofKind]
    all_goals omega
  exact congrArg Tag.dst (Tag.tagFields_block hfits [])

section
variable {x : InLine} (hx : tget s.fab.inb k = some x) (ha : x.applying = []) (hr : x.refusal = none)
include hx ha hr

theorem State.lineAck_quiet (hacked : x.acked = x.expect) (hre : x.reorder = []) : s.lineAck k = s := by
  unfold State.lineAck
  rw [hx]
  dsimp only
  exact if_pos (by simp [InLine.coherent, ha, hr, hre, hacked])

theorem State.lineAck_sends (h : x.acked ≠ x.expect ∨ x.reorder ≠ []) :
    s.lineAck k = (s.setIn k { x with acked := x.expect }).sendBlock (s.ackItem x) := by
  have hup : x.coherent = x.expect := by simp [InLine.coherent, ha]
  unfold State.lineAck
  rw [hx]
  dsimp only
  rw [hup, hr, ha]
  refine (if_neg ?_).trans ?_
  · rcases h with h | h <;> simp [h]
  · dsimp only
    unfold State.ackItem
    rw [List.isEmpty_nil, Bool.not_true, Bool.or_false, Nat.zero_add]

end

/-! ### The sending side -/

theorem State.releaseIdx_is (s : State) (g c n : Nat) : ∃ p o, s.releaseIdx g c n = { s with cps := p, out := o } := by
  have hemit (l : List Nat) (v : State) : ∃ o, l.foldl (fun s _ => s.emit (.credit g c)) v = { v with out := o } := by
    induction l generalizing v with
    | nil => exact ⟨_, rfl⟩
    | cons a l ih =>
      obtain ⟨o, ho⟩ := ih (v.emit (.credit g c))
      exact ⟨o, ho⟩
  unfold State.releaseIdx
  dsimp only
  obtain ⟨o, ho⟩ := hemit (List.range (dropWords n ((s.cport g).chan c).words).2.2) (s.setChan g c { (s.cport g).chan c with
    idx := ((s.cport g).chan c).idx.drop n, words := (dropWords n ((s.cport g).chan c).words).2.1,
    credits := ((s.cport g).chan c).credits + (dropWords n ((s.cport g).chan c).words).2.2 })
  exact ⟨_, o, ho⟩

theorem State.freeIdx_is (s : State) (did : Nat) : ∃ d p o, s.freeIdx did = { s with descs := d, cps := p, out := o } := by
  unfold State.freeIdx
  split
  · exact ⟨_, _, _, rfl⟩
  · dsimp only
    split
    · split
      · next d _ _ _ =>
        obtain ⟨p, o, h⟩ := (s.setDesc { d with idxDone := d.geo.idxFree (d.geo.writtenTo (s.retiredTo d)) }).releaseIdx_is (s.groupOf d.queue)
          d.geo.channel (d.geo.idxFree (d.geo.writtenTo (s.retiredTo d)) - d.idxDone)
        exact ⟨_, _, _, h⟩
      · exact ⟨_, _, _, rfl⟩
    · exact ⟨_, _, _, rfl⟩

section
variable {tag : Tag} {x : OutLine} (hx : tget s.fab.out tag.line = some x) (hchip : x.chip = tag.src)
include hx hchip

/-- An acknowledgement takes the items up to its sequence off the line (R468). -/
theorem State.takeLineAck_done (hc : tag.addr % 256 = 0) (hlate : ∀ d ∈ s.descs, d.late = []) :
    ∃ d p o, s.takeLineAck tag = { s.setLine tag.line (ackItems x tag.seq) with descs := d, cps := p, out := o } := by
  have hl : ∀ d ∈ ((s.setLine tag.line (ackItems x tag.seq)).onDesc x.did (fun d => ackSignals d tag.line (ackItems x tag.seq))).descs, d.late = [] := by
    intro d hd
    obtain ⟨e, he, rfl⟩ := List.mem_map.mp hd
    split
    · exact hlate e he
    · exact hlate e he
  obtain ⟨d, p, o, h⟩ := ((s.setLine tag.line (ackItems x tag.seq)).onDesc x.did (fun d => ackSignals d tag.line (ackItems x tag.seq))).freeIdx_is x.did
  refine ⟨d, p, o, ?_⟩
  unfold State.takeLineAck
  rw [hx]
  dsimp only
  rw [if_neg (not_not.mpr hchip), if_pos hc, State.runAllLate_none hl, h]
  rfl

/-- A refusal ends the stream at the item that it names (R386, R468). -/
theorem State.takeLineAck_refused {i : OutItem} (hc : tag.addr % 256 = 0x21) (hi : (x.items ++ x.waiting).find? (fun i => i.seq == tag.seq) = some i) :
    ∃ next, s.takeLineAck tag = (s.setLine tag.line { x with items := [], waiting := [], growing := false, next := next }).endStream x.did 0x21 (i.va) := by
  unfold State.takeLineAck
  rw [hx]
  dsimp only
  rw [if_neg (not_not.mpr hchip), if_neg (by omega), hi]
  dsimp only
  rw [if_neg (by omega), if_neg (by omega)]
  exact ⟨_, rfl⟩

theorem State.takeBusy_is : s.takeBusy tag = s.setLine tag.line { x with busy := true, waiting := x.items ++ x.waiting, items := [] } := by
  unfold State.takeBusy
  rw [hx]
  exact if_pos hchip

end

theorem ackItems_of_ne {x : OutLine} {seq : Nat} (h : seq ≠ 2 ^ 32 - 1) : ackItems x seq = { x with
    items := x.items.filter (fun i => !(i.seq == seq || seqBefore i.seq seq)),
    waiting := x.waiting.filter (fun i => !(i.seq == seq || seqBefore i.seq seq)) } := by
  unfold ackItems
  exact if_neg fun c => h c.1

/-- A stream that has not ended ends with a status. -/
theorem State.endStream_desc {did status va : Nat} {d : Desc} (hd : s.desc did = some d) (he : d.ended = false) :
    (s.endStream did status va).desc did = some { endWith d status (word va) with acks := [], wr := none } := by
  refine (State.desc_onDesc_self hd ?_).trans (congrArg some (if_neg (by simp [he])))
  dsimp only
  split <;> rfl

/-- A line that is lost takes its stream with it (R440, R452, R476). -/
theorem State.loseLine_ends {x : OutLine} {st va : Nat} {d : Desc} (hx : tget s.fab.out n = some x) (hsort : tsorted s.fab.out = true)
    (hd : s.desc x.did = some d) (he : d.ended = false) : ∃ e, (s.loseLine n st va).desc x.did = some e ∧ e.phase = .finishing ∧ e.status = st ∧
      e.word1 = word va ∧ tget (s.loseLine n st va).fab.out n = none ∧ (s.loseLine n st va).reqs = s.reqs ∧
      (s.loseLine n st va).fab.loop = s.fab.loop := by
  obtain ⟨q, hq⟩ : ∃ q, s.loseLine n st va = (({ s with queues := q } : State).endStream x.did st va).dropLine n := by
    unfold State.loseLine
    rw [hx]
    dsimp only
    split
    · exact ⟨_, rfl⟩
    · exact ⟨_, rfl⟩
  have hend : (({ s with queues := q } : State).endStream x.did st va).desc x.did = some { endWith d st (word va) with acks := [], wr := none } :=
    State.endStream_desc (s := { s with queues := q }) hd he
  have hx' : tget (({ s with queues := q } : State).endStream x.did st va).fab.out n = some x := hx
  have hsort' : tsorted (({ s with queues := q } : State).endStream x.did st va).fab.out = true := hsort
  have hreqs : (({ s with queues := q } : State).endStream x.did st va).reqs = s.reqs ∧
      (({ s with queues := q } : State).endStream x.did st va).fab.loop = s.fab.loop := ⟨rfl, rfl⟩
  rw [hq]
  generalize ({ s with queues := q } : State).endStream x.did st va = v at hend hx' hsort' hreqs
  unfold State.dropLine
  rw [hx']
  dsimp only
  refine ⟨_, State.desc_onDesc_self (f := fun d => { d with lines := d.lines.filter (fun p => p.2 != n) }) hend rfl, rfl, rfl, rfl,
    tget_tdel_self hsort', hreqs⟩

theorem State.setLine_setLine (x y : OutLine) : (s.setLine n x).setLine n y = s.setLine n y := by
  unfold State.setLine
  dsimp only
  rw [tput_tput]

/-- The block of an item, as a link queues it. -/
def State.lineBlock (s : State) (n : Nat) (x : OutLine) (it : OutItem) : LinkItem :=
  { block := it.block, sends := 0, line := some n, came := none, bytes := 40 + it.block.payload.length, qid := ((s.desc x.did).map (·.queue)).getD 0,
    lc := s.isLc (((s.desc x.did).map (·.queue)).getD 0) }

section
variable {x : OutLine} (hx : tget s.fab.out n = some x) (hself : s.isSelf x.chip = false) (hr : s.routeTo x.chip = some (ls, x.alt)) (hne : ls ≠ [])
include hx hself hr hne

theorem State.pumpLine_idle (hdue : x.due = []) (m : Nat) : State.pumpLine n (m + 1) s = s.setLine n x := by
  have hroute : lineOnRoute x x.alt = x := if_pos rfl
  unfold State.pumpLine
  rw [hx]
  dsimp only
  rw [hself, if_neg Bool.false_ne_true, hr]
  dsimp only
  rw [if_neg (by simpa using hne), hroute, hdue]

theorem State.pumpLine_next {it : OutItem} {its : List OutItem} (hdue : x.due = it :: its) (hbusy : x.busy = false) (hroom : x.items.length < 1024)
    (hb : s.bestLink ls = some l) (m : Nat) : State.pumpLine n (m + 1) s =
      State.pumpLine n m ((s.setLine n { x with waiting := x.waiting.drop 1, items := x.items ++ [it] }).linkPush l (s.lineBlock n x it)) := by
  have hroute : lineOnRoute x x.alt = x := if_pos rfl
  have hbest : (s.setLine n x).bestLink ls = some l := hb
  conv_lhs => unfold State.pumpLine
  rw [hx]
  dsimp only
  rw [hself, if_neg Bool.false_ne_true, hr]
  dsimp only
  rw [if_neg (by simpa using hne), hroute, hdue]
  dsimp only
  rw [if_neg (by simp [hbusy, hroom]), hbest]
  dsimp only
  rw [State.setLine_setLine]
  rfl

end

/-- The one item of a line goes to the link with the most credits, and nothing waits behind it (R459, R464, R469). -/
theorem State.pumpLine_one {x : OutLine} {it : OutItem} (hx : tget s.fab.out n = some x) (hitems : x.items = []) (hwait : x.waiting = [it])
    (hbusy : x.busy = false) (hgrow : x.growing = false) (hself : s.isSelf x.chip = false) (hr : s.routeTo x.chip = some (ls, x.alt))
    (hb : s.bestLink ls = some l) (m : Nat) :
    State.pumpLine n (m + 2) s = (s.setLine n { x with items := [it], waiting := [] }).linkPush l (s.lineBlock n x it) := by
  have hne := State.ne_nil_of_bestLink hb
  have hdue : x.due = [it] := by simp [OutLine.due, hgrow, hwait]
  have hdue' : OutLine.due { x with items := [it], waiting := [] } = [] := by simp [OutLine.due, hgrow]
  rw [State.pumpLine_next hx hself hr hne hdue hbusy (by simp [hitems]) hb, hitems, hwait]
  have hr' : ((s.setLine n { x with items := [it], waiting := [] }).linkPush l (s.lineBlock n x it)).routeTo x.chip = some (ls, x.alt) :=
    (State.routeTo_congr (s := s) (t := (s.setLine n { x with items := [it], waiting := [] }).linkPush l (s.lineBlock n x it)) rfl rfl rfl rfl
      (fun j => State.linkPush_state (s := s.setLine n { x with items := [it], waiting := [] }) l (s.lineBlock n x it) j) _).trans hr
  refine (State.pumpLine_idle (s := (s.setLine n { x with items := [it], waiting := [] }).linkPush l (s.lineBlock n x it))
    (x := { x with items := [it], waiting := [] }) (tget_tput_self ..) hself hr' hne hdue' m).trans ?_
  unfold State.linkPush State.setLink State.setLine
  dsimp only
  rw [tput_tput]

/-! ### The commands -/

theorem exec_lineAckTimer_acts (hi : s.issuing = true) (h : s.lineAck k = t) (hl : t.fab.loop = []) :
    exec (.lineAckTimer k) s = .next { State.pump t with pending := s.pending } := by
  rw [exec_lineAckTimer, execLineAckTimer, whenIssuing_acts hi, h, State.deliverLocal_nil hl]

theorem tookBlock_is (s : State) (l k : Nat) (b : LinkBlock) : ∃ y, tookBlock s l k b = s.setLink l y :=
  ⟨_, State.setLink_setLink ..⟩

theorem exec_lineAck_acts (hi : s.issuing = true) (h : soundBlock s l 5 b) (hid : s.fab.idValid = true) (hdst : (tagFields b).dst = s.fab.chipId) :
    exec (.lineAck l b) s = .next { State.pump (((tookBlock s l 5 b).takeLineAck (tagFields b)).owe (some l)).settleFabric with pending := s.pending } := by
  have hhere : (tookBlock s l 5 b).deliver l (tagFields b) b (fun s => (s.takeLineAck (tagFields b)).owe (some l)) =
      ((tookBlock s l 5 b).takeLineAck (tagFields b)).owe (some l) := by
    have hid' : (tookBlock s l 5 b).fab.idValid = true := hid
    unfold State.deliver
    rw [hid']
    exact (if_neg (by decide)).trans (if_pos hdst)
  have hact := whenIssuing_acts (f := fun s => (s.receive l 5 b (fun s t => s.deliver l t b (fun s => (s.takeLineAck t).owe (some l)))).pump) hi
  rw [State.receive_sound h] at hact
  dsimp only at hact
  rw [hhere] at hact
  exact hact

theorem exec_busy_acts (hi : s.issuing = true) (h : soundBlock s l 10 b) (hid : s.fab.idValid = true) (hdst : (tagFields b).dst = s.fab.chipId) :
    exec (.busy l b) s = .next { ((tookBlock s l 10 b).takeBusy (tagFields b)).settleFabric with pending := s.pending } := by
  have hhere : (tookBlock s l 10 b).deliver l (tagFields b) b (fun s => s.takeBusy (tagFields b)) = (tookBlock s l 10 b).takeBusy (tagFields b) := by
    have hid' : (tookBlock s l 10 b).fab.idValid = true := hid
    unfold State.deliver
    rw [hid']
    exact (if_neg (by decide)).trans (if_pos hdst)
  have hact := whenIssuing_receive (f := fun s t => s.deliver l t b (fun s => s.takeBusy t)) hi h
  dsimp only at hact
  rw [hhere] at hact
  exact hact

theorem exec_busyRetry_acts (hi : s.issuing = true) (h : s.busyRetry n = t) (hl : t.fab.loop = []) :
    exec (.busyRetry n) s = .next { State.pump t with pending := s.pending } := by
  rw [exec_busyRetry, execBusyRetry, whenIssuing_acts hi, h, State.deliverLocal_nil hl]

theorem exec_lineRetry_acts (hi : s.issuing = true) (h : s.lineRetry n = t) (hl : t.fab.loop = []) :
    exec (.lineRetry n) s = .next { State.pump t with pending := s.pending } := by
  rw [exec_lineRetry, execLineRetry, whenIssuing_acts hi, h, State.deliverLocal_nil hl]

theorem exec_lineLost_acts (hi : s.issuing = true) (h : s.lineLost n = t) : exec (.lineLost n) s = .next { State.pump t with pending := s.pending } := by
  rw [exec_lineLost, execLineLost, whenIssuing_acts hi, h]

/-- Settles O59, the receiving line first, then what the sender is told, then what it does of its own. -/
theorem linesAreAcknowledgedOrSentAgain : Obligations.LinesAreAcknowledgedOrSentAgain := by
  refine ⟨⟨?_, ?_⟩, ?_⟩
  · intro s k x hi hx hloop ha hr
    refine ⟨fun h1 h2 => exec_lineAckTimer_acts hi (State.lineAck_quiet hx ha hr h1 h2) hloop, fun ls alt l h hs hc hl _ hself hroute hb => ?_⟩
    have hdst := State.ackItem_dst hs hc hl
    have hsend : s.lineAck k = (s.setIn k { x with acked := x.expect }).linkPush l (s.ackItem x) :=
      (State.lineAck_sends hx ha hr h).trans (State.sendBlock_routed (alt := alt) (by rw [hdst]; exact hself) (by rw [hdst]; exact hroute) hb rfl)
    refine ⟨_, s.ackItem x, exec_lineAckTimer_acts hi hsend hloop, congrArg Link.queue (State.link_setLink_self ..), ?_, tget_tput_self .., rfl, rfl⟩
    unfold State.ackItem
    rw [Nat.mul_comm]
    rfl
  · intro s l b x hi t hid hdst hx hchip hlate
    refine ⟨fun h hc hseq => ?_, fun i d h hc hfind hd he => ?_, fun h => ?_⟩
    · obtain ⟨y, hy⟩ := tookBlock_is s l 5 b
      have hex := exec_lineAck_acts hi h hid hdst
      rw [hy] at hex
      obtain ⟨e, p, o, hv⟩ := State.takeLineAck_done (s := s.setLink l y) hx hchip hc hlate
      rw [hv] at hex
      refine ⟨_, _, hex, tget_tput_self .., ?_, ?_, rfl, rfl⟩
      · rw [ackItems_of_ne hseq]
      · rw [ackItems_of_ne hseq]
    · obtain ⟨y, hy⟩ := tookBlock_is s l 5 b
      have hex := exec_lineAck_acts hi h hid hdst
      rw [hy] at hex
      obtain ⟨next, hv⟩ := State.takeLineAck_refused (s := s.setLink l y) hx hchip hc hfind
      rw [hv] at hex
      refine ⟨_, _, hex, State.endStream_desc (s := (s.setLink l y).setLine t.line _) hd he, rfl, rfl, rfl, _, tget_tput_self .., rfl, rfl⟩
    · obtain ⟨y, hy⟩ := tookBlock_is s l 10 b
      have hex := exec_busy_acts hi h hid hdst
      rw [hy, State.takeBusy_is (s := s.setLink l y) hx hchip] at hex
      exact ⟨_, hex, tget_tput_self .., rfl, rfl⟩
  · intro s n x it hi hx hloop hgrow
    refine ⟨fun c ls l h hself hr hb => ?_, fun c st d h hsort hd he => ?_⟩
    · have hsent (y : OutLine) (hy : y = { x with busy := false, items := [], waiting := [it] }) : State.pumpLine n 1025 (s.setLine n y) =
          (s.setLine n { x with busy := false, items := [it], waiting := [] }).linkPush l (s.lineBlock n x it) := by
        subst hy
        refine (State.pumpLine_one (s := s.setLine n { x with busy := false, items := [], waiting := [it] }) (ls := ls) (tget_tput_self ..) rfl rfl rfl
          hgrow hself hr hb 1023).trans ?_
        rw [State.setLine_setLine]
        rfl
      rcases h with ⟨rfl, hbusy, hitems, hwait⟩ | ⟨rfl, hbusy, hitems, hwait, hsends⟩
      · have hact : s.busyRetry n = (s.setLine n { x with busy := false, items := [it], waiting := [] }).linkPush l (s.lineBlock n x it) := by
          unfold State.busyRetry
          rw [hx]
          exact (if_pos hbusy).trans (hsent _ (by rw [hitems, hwait]))
        exact ⟨_, s.lineBlock n x it, exec_busyRetry_acts hi hact hloop, congrArg Link.queue (State.link_setLink_self ..), rfl, rfl, tget_tput_self .., rfl, rfl⟩
      · have hact : s.lineRetry n = (s.setLine n { x with busy := false, items := [it], waiting := [] }).linkPush l (s.lineBlock n x it) := by
          have hfind : x.items.find? (fun i => decide (16 ≤ i.sends)) = none := by simp [hitems, hsends]
          unfold State.lineRetry
          rw [hx]
          refine (if_neg (by simp [hitems, hbusy])).trans ?_
          rw [hfind]
          exact hsent _ (by rw [hitems, hwait, ← hbusy]; rfl)
        exact ⟨_, s.lineBlock n x it, exec_lineRetry_acts hi hact hloop, congrArg Link.queue (State.link_setLink_self ..), rfl, rfl, tget_tput_self .., rfl, rfl⟩
    · obtain ⟨e, h1, h2, h3, h4, h5, h6, h7⟩ := State.loseLine_ends (st := st) (va := it.va) hx hsort hd he
      rcases h with ⟨rfl, hbusy, hfind, rfl⟩ | ⟨rfl, hhead, rfl⟩
      · have hact : s.lineRetry n = s.loseLine n 0x30 it.va := by
          have hne : x.items.isEmpty = false := by
            cases hq : x.items with
            | nil => rw [hq] at hfind; cases hfind
            | cons a r => rfl
          unfold State.lineRetry
          rw [hx]
          refine (if_neg (by simp [hne, hbusy])).trans ?_
          rw [hfind]
        exact ⟨_, e, exec_lineRetry_acts hi hact (h7.trans hloop), h1, h2, h3, h4, h5, h6⟩
      · have hact : s.lineLost n = s.loseLine n 0x31 it.va := by
          obtain ⟨r, hr⟩ : ∃ r, x.items ++ x.waiting = it :: r := by
            cases hq : x.items ++ x.waiting with
            | nil => rw [hq] at hhead; cases hhead
            | cons a r => rw [hq] at hhead; exact ⟨r, by rw [Option.some.inj hhead]⟩
          unfold State.lineLost
          rw [hx]
          dsimp only
          rw [hr]
        exact ⟨_, e, exec_lineLost_acts hi hact, h1, h2, h3, h4, h5, h6⟩

end Sys2Proof.Machine
end

section
/-! PROOFS. Commits move island by island and retire (R517, Table 15-9). -/

namespace Sys2Proof.Machine

variable {s t u : State} {island : Nat}

/-! ### What keeps the configuration -/

/-- The configuration and the commit are as they were. -/
structure State.ConfigKept (s t : State) : Prop where
  cfg : t.cfg = s.cfg
  commit : t.commit = s.commit

/-- So are the queues and the descriptors. -/
structure State.WorkKept (s t : State) : Prop extends s.ConfigKept t where
  queues : t.queues = s.queues
  descs : t.descs = s.descs

namespace State.WorkKept

theorem refl (s : State) : s.WorkKept s := ⟨⟨rfl, rfl⟩, rfl, rfl⟩

theorem trans (h : s.WorkKept t) (h' : t.WorkKept u) : s.WorkKept u :=
  ⟨⟨h'.cfg.trans h.cfg, h'.commit.trans h.commit⟩, h'.queues.trans h.queues, h'.descs.trans h.descs⟩

theorem foldl {α : Type} {f : State → α → State} {l : List α} (h : ∀ {t x}, s.WorkKept t → s.WorkKept (f t x)) (hk : s.WorkKept t) :
    s.WorkKept (l.foldl f t) := by
  induction l generalizing t with
  | nil => exact hk
  | cons x l ih => exact ih (h hk)

theorem logRec (hk : s.WorkKept t) {kind origin ctx obj : Nat} {old new : Word} {detail : Bytes} :
    s.WorkKept (t.logRec kind origin ctx obj old new detail) := by
  obtain ⟨r, log, x, o, h, -⟩ := t.logRec_is kind origin ctx obj old new detail
  rw [h]
  exact hk.trans ⟨⟨rfl, rfl⟩, rfl, rfl⟩

theorem pdAsk (hk : s.WorkKept t) {d want : Nat} : s.WorkKept (t.pdAsk d want) := by
  obtain ⟨x, o, h, -⟩ := t.pdAsk_is d want
  rw [h]
  exact hk.trans ⟨⟨rfl, rfl⟩, rfl, rfl⟩

theorem settleDomains (hk : s.WorkKept t) : s.WorkKept t.settleDomains := by
  obtain ⟨x, o, h⟩ := t.settleDomains_is
  rw [h]
  exact hk.trans ⟨⟨rfl, rfl⟩, rfl, rfl⟩

theorem powerPair (hk : s.WorkKept t) {p : Nat} : s.WorkKept (t.powerPair p) := by
  unfold State.powerPair
  dsimp only
  split
  · split
    · exact hk.pdAsk
    · exact hk
  · split
    · exact hk
    · refine pdAsk ?_
      exact hk.trans ⟨⟨rfl, rfl⟩, rfl, rfl⟩

theorem powerPairs (hk : s.WorkKept t) {island : Nat} : s.WorkKept (t.powerPairs island) := by
  unfold State.powerPairs
  split
  · exact .foldl (fun hk => hk.powerPair) hk
  · exact hk

theorem swapImage (hk : s.WorkKept t) {mem : Nat} {v : Word} : s.WorkKept (t.swapImage mem v) := by
  unfold State.swapImage
  refine logRec ?_
  exact hk.trans ⟨⟨rfl, rfl⟩, rfl, rfl⟩

theorem swapPattern (hk : s.WorkKept t) {island : Nat} : s.WorkKept (t.swapPattern island) := by
  unfold State.swapPattern
  split
  · split
    · exact hk.swapImage
    · exact hk
  · exact hk

theorem logCommit (hk : s.WorkKept t) : s.WorkKept t.logCommit := .logRec (.foldl (fun hk => hk.logRec) hk)

end State.WorkKept

namespace State.ConfigKept

theorem refl (s : State) : s.ConfigKept s := ⟨rfl, rfl⟩

theorem trans (h : s.ConfigKept t) (h' : t.ConfigKept u) : s.ConfigKept u := ⟨h'.cfg.trans h.cfg, h'.commit.trans h.commit⟩

theorem ite {c : Prop} [Decidable c] (ht : s.ConfigKept t) (hu : s.ConfigKept u) : s.ConfigKept (if c then t else u) := by
  split
  · exact ht
  · exact hu

theorem foldl {α : Type} {f : State → α → State} {l : List α} (h : ∀ {t x}, s.ConfigKept t → s.ConfigKept (f t x)) (hk : s.ConfigKept t) :
    s.ConfigKept (l.foldl f t) := by
  induction l generalizing t with
  | nil => exact hk
  | cons x l ih => exact ih (h hk)

theorem of_settles (h : s.Settles t) : s.ConfigKept t := by
  obtain ⟨_, _, _, _, hrest⟩ := h.rest
  exact ⟨by rw [hrest], by rw [hrest]⟩

theorem setLink (hk : s.ConfigKept t) {l : Nat} {x : Link} : s.ConfigKept (t.setLink l x) := hk.trans ⟨rfl, rfl⟩

theorem dropLink (hk : s.ConfigKept t) {l : Nat} {st : LinkState} {cause : Nat} : s.ConfigKept (t.dropLink l st cause) :=
  hk.setLink.trans (of_settles (t.dropLink_settles l st cause))

theorem wantBeacons (hk : s.ConfigKept t) : s.ConfigKept t.wantBeacons := hk.trans (of_settles (.wantBeacons (.refl t)))

theorem setChipId (hk : s.ConfigKept t) {id origin : Nat} : s.ConfigKept (t.setChipId id origin) := by
  unfold State.setChipId
  refine .ite hk (.wantBeacons (hk.trans (State.WorkKept.logRec ?_).toConfigKept))
  exact ⟨⟨rfl, rfl⟩, rfl, rfl⟩

/-- A fabric island changes its links and the chip ID, not the configuration (R444, R453, R455). -/
theorem fabricCommit (hk : s.ConfigKept t) {island : Nat} : s.ConfigKept (t.fabricCommit island) := by
  unfold State.fabricCommit
  dsimp only
  refine trans ?_ (of_settles (.settleFabric (.refl _)))
  exact .ite (.wantBeacons (.ite (.setChipId (.foldl (fun hk => .ite (.setLink (.dropLink hk)) hk) hk)) (.foldl (fun hk => .ite (.setLink (.dropLink hk)) hk) hk)))
    (.ite (.setChipId (.foldl (fun hk => .ite (.setLink (.dropLink hk)) hk) hk)) (.foldl (fun hk => .ite (.setLink (.dropLink hk)) hk) hk))

end State.ConfigKept

/-! ### The token at one island (R517, Table 15-9) -/

theorem swapPattern_kept (s : State) (island : Nat) : s.WorkKept (s.swapPattern island) := .swapPattern (.refl s)

theorem powerPairs_kept (s : State) (island : Nat) : s.WorkKept (s.powerPairs island) := .powerPairs (.refl s)

/-- PREPARE copies the island's shadow into the pending set and leaves everything else of the commit. -/
theorem prepareAt_sets (s : State) (island : Nat) :
    (s.prepareAt island).cfg = { s.cfg with pending := takeIsland island s.cfg.pending s.cfg.shadow } ∧
    (s.prepareAt island).commit = s.commit ∧ (s.prepareAt island).queues = s.queues ∧ (s.prepareAt island).descs = s.descs := by
  have hk := swapPattern_kept s island
  unfold State.prepareAt
  exact ⟨by simp only [hk.cfg], hk.commit, hk.queues, hk.descs⟩

/-- SWITCH makes the island's pending set active and, at the control island, starts the next epoch. -/
theorem switchAt_sets (s : State) (island : Nat) :
    (s.switchAt island).cfg = { s.cfg with active := takeIsland island s.cfg.active s.cfg.pending } ∧
    (s.switchAt island).commit = { s.commit with epoch := if island = 30 then (s.commit.epoch + 1) % 2 ^ 32 else s.commit.epoch } := by
  unfold State.switchAt
  dsimp only
  have hk := powerPairs_kept
  rw [(hk _ island).cfg, (hk _ island).commit]
  split <;> exact ⟨rfl, rfl⟩

/-- The prepare token moves on, and when it returns the old set is kept and the switch token leaves. -/
theorem token_prepare (hp : s.commit.phase = .prepare) :
    s.token.cfg = { s.cfg with pending := takeIsland (s.tokenOrder.getD s.commit.pos 31) s.cfg.pending s.cfg.shadow,
                               old := if s.commit.pos + 1 < s.tokenOrder.length then s.cfg.old else s.cfg.active } ∧
    s.token.commit = (if s.commit.pos + 1 < s.tokenOrder.length then { s.commit with pos := s.commit.pos + 1 }
      else { s.commit with phase := .switch, pos := 0 }) ∧ s.token.queues = s.queues ∧ s.token.descs = s.descs := by
  obtain ⟨hcfg, hcommit, hqueues, hdescs⟩ := prepareAt_sets s (s.tokenOrder.getD s.commit.pos 31)
  unfold State.token
  simp only [hp, hcommit]
  split <;> simp only [hcfg, hqueues, hdescs, and_self]

/-- The switch token moves on, and when it returns the phase is RETIRE. -/
theorem token_switch (hp : s.commit.phase = .switch) :
    s.token.cfg = { s.cfg with active := takeIsland (s.tokenOrder.getD s.commit.pos 31) s.cfg.active s.cfg.pending } ∧
    s.token.commit.epoch = (if s.tokenOrder.getD s.commit.pos 31 = 30 then (s.commit.epoch + 1) % 2 ^ 32 else s.commit.epoch) ∧
    (s.commit.pos + 1 < s.tokenOrder.length → s.token.commit.phase = .switch ∧ s.token.commit.pos = s.commit.pos + 1) ∧
    (s.tokenOrder.length ≤ s.commit.pos + 1 → s.token.commit.phase = .retire ∧ s.token.commit.pos = 0) := by
  obtain ⟨hcfg, hcommit⟩ := switchAt_sets s (s.tokenOrder.getD s.commit.pos 31)
  unfold State.token
  simp only [hp, hcommit]
  split
  next hlt => exact ⟨hcfg, rfl, fun _ => ⟨rfl, rfl⟩, fun hle => absurd hlt (by omega)⟩
  next hge => exact ⟨hcfg, rfl, fun hlt => absurd hlt hge, fun _ => ⟨rfl, rfl⟩⟩

/-- What a fabric island does besides (R444, R453) leaves the configuration and the commit. -/
theorem tokenStep_kept (s : State) : s.token.ConfigKept s.tokenStep.settleDomains := by
  have hf : s.token.ConfigKept s.tokenStep := by
    unfold State.tokenStep
    exact .ite (.fabricCommit (.refl _)) (.refl _)
  exact hf.trans (State.WorkKept.settleDomains (.refl _)).toConfigKept

theorem tokenStep_prepare (hp : s.commit.phase = .prepare) : s.token.WorkKept s.tokenStep.settleDomains := by
  have hf : s.tokenStep = s.token := by
    unfold State.tokenStep
    simp [hp]
  rw [hf]
  exact .settleDomains (.refl _)

/-! ### The retirement (R517) -/

/-- The state that a commit leaves once every island has reported. -/
def State.retired (s : State) : State := (List.range 32).foldl State.powerPair s.endCommit

theorem retireReport_of_old (h : s.oldOn island = true) : s.retireReport island = s := by
  unfold State.retireReport
  simp [h]

section

variable (hp : s.commit.phase = .retire) (hm : island ∈ s.tokenOrder) (hn : island ∉ s.commit.reported) (ho : s.oldOn island = false)
include hp hm hn ho

theorem retireReport_early (h : ∃ i ∈ s.tokenOrder, i ≠ island ∧ i ∉ s.commit.reported) :
    s.retireReport island = { s with commit := { s.commit with reported := island :: s.commit.reported } } := by
  obtain ⟨i, hi, hne, hnr⟩ := h
  refine (if_pos ⟨hp, hm, hn, ho⟩).trans (if_neg fun hall => ?_)
  have hc := List.all_eq_true.mp hall i hi
  simp [hne, hnr] at hc

theorem retireReport_last (h : ∀ i ∈ s.tokenOrder, i = island ∨ i ∈ s.commit.reported) :
    s.retireReport island =
      ({ s with commit := { s.commit with reported := island :: s.commit.reported } } : State).retired := by
  refine (if_pos ⟨hp, hm, hn, ho⟩).trans (if_pos (List.all_eq_true.mpr fun i hi => ?_))
  rcases h i hi with rfl | hr
  · simp
  · simp [hr]

end

/-- The end of a commit makes the old and the pending set equal to the active one, and the commit IDLE. -/
theorem endCommit_sets (s : State) : s.endCommit.commit = { s.commit with phase := .idle, reported := [] } ∧
    s.endCommit.cfg.old = s.endCommit.cfg.active ∧ s.endCommit.cfg.pending = s.endCommit.cfg.active ∧
    s.endCommit.descs = s.descs ∧ s.endCommit.queues = s.queues := by
  have hl := State.WorkKept.logCommit (.refl s)
  unfold State.endCommit
  dsimp only
  cases s.swaps.find? (fun p => p.1 == 0) with
  | none => exact ⟨by simp only [hl.commit], rfl, rfl, hl.descs, hl.queues⟩
  | some p =>
    have hk := hl.swapImage (mem := 0) (v := p.2)
    exact ⟨by simp only [hk.commit], rfl, rfl, hk.descs, hk.queues⟩

theorem retired_sets (s : State) : s.retired.commit = { s.commit with phase := .idle, reported := [] } ∧
    s.retired.cfg.old = s.retired.cfg.active ∧ s.retired.cfg.pending = s.retired.cfg.active ∧
    s.retired.descs = s.descs ∧ s.retired.queues = s.queues := by
  obtain ⟨hcommit, hold, hpend, hdescs, hqueues⟩ := endCommit_sets s
  have hk : s.endCommit.WorkKept s.retired := .foldl (fun hk => hk.powerPair) (.refl _)
  rw [hk.cfg, hk.commit, hk.descs, hk.queues]
  exact ⟨hcommit, hold, hpend, hdescs, hqueues⟩

theorem commitTokenArrival_prepare (hn : s.normal = true) (hp : s.commit.phase = .prepare) : ∃ t, exec .commitTokenArrival s = .next t ∧
    t.cfg = { s.cfg with pending := takeIsland (s.tokenOrder.getD s.commit.pos 31) s.cfg.pending s.cfg.shadow,
                         old := if s.commit.pos + 1 < s.tokenOrder.length then s.cfg.old else s.cfg.active } ∧
    t.commit = (if s.commit.pos + 1 < s.tokenOrder.length then { s.commit with pos := s.commit.pos + 1 }
      else { s.commit with phase := .switch, pos := 0 }) ∧ t.queues = s.queues ∧ t.descs = s.descs := by
  obtain ⟨hcfg, hcommit, hqueues, hdescs⟩ := token_prepare hp
  have hk := tokenStep_prepare hp
  rw [exec_commitTokenArrival, execCommitTokenArrival, whenNormal_acts hn]
  dsimp only
  generalize s.tokenStep.settleDomains = u at hk ⊢
  exact ⟨_, rfl, hk.cfg.trans hcfg, hk.commit.trans hcommit,
    hk.queues.trans hqueues, hk.descs.trans hdescs⟩

theorem commitTokenArrival_switch (hn : s.normal = true) (hp : s.commit.phase = .switch) : ∃ t, exec .commitTokenArrival s = .next t ∧
    t.cfg = { s.cfg with active := takeIsland (s.tokenOrder.getD s.commit.pos 31) s.cfg.active s.cfg.pending } ∧
    t.commit.epoch = (if s.tokenOrder.getD s.commit.pos 31 = 30 then (s.commit.epoch + 1) % 2 ^ 32 else s.commit.epoch) ∧
    (s.commit.pos + 1 < s.tokenOrder.length → t.commit.phase = .switch ∧ t.commit.pos = s.commit.pos + 1) ∧
    (s.tokenOrder.length ≤ s.commit.pos + 1 → t.commit.phase = .retire ∧ t.commit.pos = 0) := by
  obtain ⟨hcfg, hrest⟩ := token_switch hp
  have hk := tokenStep_kept s
  rw [exec_commitTokenArrival, execCommitTokenArrival, whenNormal_acts hn]
  dsimp only
  generalize s.tokenStep.settleDomains = u at hk ⊢
  refine ⟨_, rfl, hk.cfg.trans hcfg, ?_⟩
  rw [← hk.commit] at hrest
  exact hrest

theorem islandRetireReport_last (hn : s.normal = true) (hp : s.commit.phase = .retire) (hm : island ∈ s.tokenOrder)
    (hr : island ∉ s.commit.reported) (ho : s.oldOn island = false) (h : ∀ i ∈ s.tokenOrder, i = island ∨ i ∈ s.commit.reported) :
    ∃ t, exec (.islandRetireReport island) s = .next t ∧ t.commit = { s.commit with phase := .idle, reported := [] } ∧
      t.cfg.old = t.cfg.active ∧ t.cfg.pending = t.cfg.active ∧ t.descs = s.descs ∧ t.queues = s.queues := by
  have hset := retired_sets { s with commit := { s.commit with reported := island :: s.commit.reported } }
  rw [← retireReport_last hp hm hr ho h] at hset
  exact ⟨_, whenNormal_acts (f := fun s => s.retireReport island) hn, hset⟩

/-- Settles O18: the token does at each island what its phase says, and the last of the reports ends the commit. -/
theorem commitsMoveIslandByIslandAndRetire : Obligations.CommitsMoveIslandByIslandAndRetire := by
  unfold Obligations.CommitsMoveIslandByIslandAndRetire
  refine ⟨fun s hn => ⟨commitTokenArrival_prepare hn, commitTokenArrival_switch hn⟩, fun s island hn hp hm hr => ⟨fun ho => ?_, fun ho h => ?_, ?_⟩⟩
  · exact whenNormal_next (f := fun s => s.retireReport island) hn (retireReport_of_old ho) rfl
  · exact whenNormal_next (f := fun s => s.retireReport island) hn (retireReport_early hp hm hr ho h) (by rfl)
  · exact islandRetireReport_last hn hp hm hr

end Sys2Proof.Machine
end

section
/-! PROOFS. Data descriptors begin as streams (R90, R101, R130, R287, R538). -/

namespace Sys2Proof.Machine

variable {s t u : State} {d : Desc} {c : Instr} {op : Nat}

/-! ### The wakes of a stream that begins ask for walks and pairs, and for nothing else (R287) -/

/-- What the state is after some of the wakes of a stream `d` of the state `s`: its own wakes and results may have changed, the pairs, the
caches and the walks, and what has been issued are reads of walks. -/
structure State.Wakes (s : State) (d : Desc) (t : State) : Prop where
  descs : ∃ wakes results, t.descs = (s.setDesc { d with wakes := wakes, results := results }).descs
  walks : ∀ w ∈ t.xl.walks, w.started = true ∨ w.did = some d.id
  reqs : ∃ rs, t.reqs = s.reqs ++ rs ∧ ∀ r ∈ rs, r.kind = .read ∧ ∃ w, r.owner = .walk w
  ram : t.win.ram = s.win.ram
  queues : t.queues = s.queues
  sync : t.sync = s.sync
  kp : t.kp = s.kp
  cfg : t.cfg = s.cfg

namespace State.Wakes

theorem foldl {α : Type} {f : State → α → State} {l : List α} (hk : s.Wakes d t) (h : ∀ {t x}, x ∈ l → s.Wakes d t → s.Wakes d (f t x)) :
    s.Wakes d (l.foldl f t) := by
  induction l generalizing t with
  | nil => exact hk
  | cons x l ih => exact ih (h List.mem_cons_self hk) fun hx => h (List.mem_cons_of_mem _ hx)

variable (hk : s.Wakes d t)
include hk

/-- A change of the registers, the pairs, the domains and what is sent. -/
theorem aside {regs : RegFile} {pairs : Tab Pair} {sup : Support} {out : List Out} {free ids : Nat} :
    s.Wakes d { t with regs := regs, win := { t.win with pairs := pairs }, sup := sup, out := out, free := free, ids := ids } :=
  ⟨hk.descs, hk.walks, hk.reqs, hk.ram, hk.queues, hk.sync, hk.kp, hk.cfg⟩

/-- A change of the caches and of the walks, of which those that wait are the descriptor's. -/
theorem translate {y : Translation} {free ids : Nat} (h : ∀ w ∈ y.walks, w.started = true ∨ w.did = some d.id) :
    s.Wakes d { t with xl := y, free := free, ids := ids } :=
  ⟨hk.descs, h, hk.reqs, hk.ram, hk.queues, hk.sync, hk.kp, hk.cfg⟩

/-- A change of the descriptor's own wakes and results. -/
theorem onDesc {f : Desc → Desc} (h : ∀ wk rs, ∃ wk' rs', f { d with wakes := wk, results := rs } = { d with wakes := wk', results := rs' }) :
    s.Wakes d (t.onDesc d.id f) := by
  obtain ⟨wk, rs, hd⟩ := hk.descs
  obtain ⟨wk', rs', hf⟩ := h wk rs
  refine ⟨⟨wk', rs', ?_⟩, hk.walks, hk.reqs, hk.ram, hk.queues, hk.sync, hk.kp, hk.cfg⟩
  have hset := congrArg State.descs (State.setDesc_onDesc (s := s) (e := { d with wakes := wk, results := rs }) (f := f) (by rw [hf]))
  rw [hf] at hset
  rw [← hset, State.onDesc, State.onDesc, hd]

theorem addReq {r : MemReq} (hr : r.kind = .read) (ho : ∃ w, r.owner = .walk w) : s.Wakes d (t.addReq r) := by
  obtain ⟨rs, hrs, hall⟩ := hk.reqs
  obtain ⟨held, e⟩ := t.addReq_is r
  rw [e]
  refine ⟨hk.descs, hk.walks, ⟨rs ++ [{ r with id := t.ids, held := held }], ?_, fun q hq => ?_⟩, hk.ram, hk.queues, hk.sync, hk.kp, hk.cfg⟩
  · dsimp only
    rw [hrs, List.append_assoc]
  · rcases List.mem_append.mp hq with hq | hq
    · exact hall q hq
    · obtain rfl := List.mem_singleton.mp hq
      exact ⟨hr, ho⟩

theorem wakePair {p : Nat} : s.Wakes d (t.wakePair p) := by
  unfold State.wakePair
  dsimp only
  split
  · exact hk.aside
  · exact hk

theorem walkOver {w : Walk} {res : WalkResult} : s.Wakes d (t.walkOver w res) := by
  obtain ⟨y, f, e, hw, _⟩ := t.walkOver_is w res
  rw [e]
  refine hk.translate fun x hx => ?_
  rw [hw] at hx
  exact hk.walks x (List.mem_of_mem_filter hx)

/-- The end of one of the descriptor's walks leaves its result with the descriptor. -/
theorem endWalk {w : Walk} {res : WalkResult} (hw : w.did = some d.id) : s.Wakes d (t.endWalk w res) := by
  cases hc : w.cancelled with
  | true =>
    have e : t.endWalk w res = t.dropWalk w.id := if_pos hc
    rw [e]
    exact hk.translate fun x hx => hk.walks x (List.mem_of_mem_filter hx)
  | false =>
    rw [State.endWalk_eq hc hw]
    exact hk.walkOver.onDesc fun wk rs => ⟨wk, _, rfl⟩

theorem evAt {b : Nat} : s.Wakes d (t.evAt b) := hk.aside

/-- The start of one of the descriptor's walks reads its first granule, or ends it. -/
theorem walkRead {w : Walk} (hw : w.did = some d.id) : s.Wakes d (t.walkRead w) := by
  unfold State.walkRead
  dsimp only
  split
  · exact hk.endWalk hw
  · split
    · refine addReq (hk.translate fun x hx => ?_) rfl ⟨_, rfl⟩
      obtain ⟨y, hy, rfl⟩ := List.mem_map.mp hx
      split
      · exact .inl rfl
      · exact hk.walks y hy
    · exact hk.evAt.endWalk hw

theorem startWalkers : s.Wakes d t.startWalkers := by
  unfold State.startWalkers
  refine foldl hk fun {u x} hx hu => hu.walkRead (w := _) ?_
  have hwait : x ∈ t.xl.walks ∧ x.started = false := by
    have hx := List.mem_of_mem_take hx
    simp only [List.mem_append, List.mem_filter, Bool.not_eq_true'] at hx
    tauto
  exact (hk.walks x hwait.1).resolve_left (by simp [hwait.2])

theorem startWalk {queue tag va : Nat} {mover : Option Nat} {lc : Bool} : s.Wakes d (t.startWalk (some d.id) queue mover lc tag va) := by
  unfold State.startWalk
  dsimp only
  split
  · exact hk
  · refine hk.translate fun x hx => ?_
    rcases List.mem_append.mp hx with hx | hx
    · exact hk.walks x hx
    · obtain rfl := List.mem_singleton.mp hx
      exact .inr rfl

theorem askWake {va : Nat} : s.Wakes d (t.askWake d.id va) := by
  have hdone : s.Wakes d (t.onDesc d.id (fun d => { d with wakes := d.wakes.filter (· != va) })) := hk.onDesc fun _ rs => ⟨_, rs, rfl⟩
  unfold State.askWake
  dsimp only
  split
  · exact hk
  · split
    · exact hk.startWalk.startWalkers
    · split
      · exact hdone.wakePair
      · exact hdone
    · exact hdone

theorem askWakes : s.Wakes d (t.askWakes d.id) := foldl hk fun _ hu => hu.askWake

end State.Wakes

/-! ### The begin of a stream (R90, R101, R130, R538) -/

/-- No injection is armed: the pattern memory reads clean (R549). -/
theorem State.patternEcc_unarmed {g ctx : Nat} (h : bit (s.reg Reg.tpInj) 63 = false) : s.patternEcc g ctx = s := by
  have hi : s.inject 9 (patternMem g) (some ctx) = (s, .clean) := if_pos (by simp [h])
  unfold State.patternEcc
  rw [hi]

/-- What begins a data descriptor whose turn it is, once its group's patterns read clean. -/
theorem State.beginStream_of (hd : s.desc d.id = some d) (ho : opcodeOf d.entries = op) (hm : s.mayBegin d = true)
    (hb : s.patternBad (s.groupOf d.queue) = false) (h : bit (s.reg Reg.tpInj) 63 = false) : s.beginStream d.id op = s.beginData d.id op := by
  unfold State.beginStream
  rw [hd]
  dsimp only
  rw [if_neg (by simp [ho, hm, hb]), State.patternEcc_unarmed h]

/-- The commands of the data descriptors, by their opcode. -/
theorem State.begins_of (hi : s.issuing = true) (hd : s.desc d.id = some d) (ho : opcodeOf d.entries = op) (hm : s.mayBegin d = true)
    (hb : s.patternBad (s.groupOf d.queue) = false) (h : bit (s.reg Reg.tpInj) 63 = false)
    (hc : (c, op) ∈ [(Instr.move d.id, 1), (.gather d.id, 2), (.scatter d.id, 3), (.scatterAdd d.id, 4), (.automorph d.id, 5), (.limbXpose d.id, 6),
      (.expand d.id, 7), (.lift d.id, 8), (.condition d.id, 9)]) : exec c s = .next { s.beginData d.id op with pending := s.pending } := by
  rw [← State.beginStream_of hd ho hm hb h]
  simp only [List.mem_cons, Prod.mk.injEq, List.not_mem_nil, or_false] at hc
  rcases hc with ⟨rfl, rfl⟩ | ⟨rfl, rfl⟩ | ⟨rfl, rfl⟩ | ⟨rfl, rfl⟩ | ⟨rfl, rfl⟩ | ⟨rfl, rfl⟩ | ⟨rfl, rfl⟩ | ⟨rfl, rfl⟩ | ⟨rfl, rfl⟩ <;>
    exact whenIssuing_acts (f := fun s => s.beginStream d.id _) hi

/-- The status and word 1 of the checks of a data descriptor (R130), the words of whose REMOTE signals R94 refuses. -/
def State.streamCheck (s : State) (d : Desc) (refused : List Nat) : Nat × Word :=
  beginStatus (mkGeo d.entries (s.param d.queue)) (s.envOf d (mkGeo d.entries (s.param d.queue))) refused

section

variable (hd : s.desc d.id = some d) (ho : opcodeOf d.entries = op) (hm : s.mayBegin d = true) (hb : s.patternBad (s.groupOf d.queue) = false)
include hd ho hm hb

theorem State.beginData_absent (hg : s.hasGroup (s.groupOf d.queue) = false) :
    s.beginData d.id op = s.beginAbsent d (mkGeo d.entries (s.param d.queue)) := by
  unfold State.beginData
  rw [hd]
  dsimp only
  rw [if_neg (by simp [ho, hm, hb]), if_pos (by simp [hg])]

/-- Without a REMOTE signal nothing is looked up: the checks decide, then the predicate. -/
theorem State.beginData_local (hg : s.hasGroup (s.groupOf d.queue) = true) (hs : remoteSigs d.entries = []) :
    s.beginData d.id op = if (s.streamCheck d []).1 = 0 then s.beginPass d (mkGeo d.entries (s.param d.queue))
      else s.setDesc (endWith d (s.streamCheck d []).1 (s.streamCheck d []).2) := by
  have hl : ∀ g, s.remoteLook d g = none := fun g => if_pos (by simp [hs])
  have hw : ∀ g : Geo, localSigs d.entries g none = [] := fun g => by simp [localSigs, hs]
  unfold State.beginData
  rw [hd]
  dsimp only
  rw [if_neg (by simp [ho, hm, hb]), if_neg (by simp [hg]), hl]
  dsimp only
  rw [hw, show beginStatus (mkGeo d.entries (s.param d.queue)) (s.envOf d (mkGeo d.entries (s.param d.queue))) [] = s.streamCheck d [] from rfl]
  obtain ⟨st, w⟩ := s.streamCheck d []
  cases st <;> rfl

end

theorem State.beginAbsent_malformed {g : Geo} (h : (beginStatus g (s.envOf d g) (localSigs d.entries g none)).1 = 0x10) :
    s.beginAbsent d g = s.setDesc (endWith d 0x10 (beginStatus g (s.envOf d g) (localSigs d.entries g none)).2) := by
  unfold State.beginAbsent
  generalize beginStatus g (s.envOf d g) (localSigs d.entries g none) = chk at h ⊢
  obtain ⟨st, w⟩ := chk
  obtain rfl : st = 0x10 := h
  rfl

theorem State.beginAbsent_sound {g : Geo} (h : (beginStatus g (s.envOf d g) (localSigs d.entries g none)).1 ≠ 0x10) :
    s.beginAbsent d g = s.setDesc (endWith d 0x12 0) := by
  unfold State.beginAbsent
  generalize beginStatus g (s.envOf d g) (localSigs d.entries g none) = chk at h ⊢
  obtain ⟨st, w⟩ := chk
  split
  next heq =>
    obtain ⟨rfl, rfl⟩ := Prod.mk.inj heq
    exact absurd rfl h
  next => rfl

/-! ### The stream that runs (R287, Table 3-9, step 5) -/

/-- The staging of a stream that begins now, in KiB. -/
def State.stagingNow (s : State) (d : Desc) (g : Geo) : Nat :=
  s.stagingOf g (fld (s.cfgAt s.commit.epoch (rkey Reg.cfCtxRing (s.ctxOf d.queue))) 11 8)

/-- The descriptor as a stream that begins now, from no address channel. -/
def State.streamOf (s : State) (d : Desc) (g : Geo) : Desc :=
  { s.begun d with geo := g, pos := 0, resolved := resolvedOf d.entries (s.param d.queue), phase := .running,
                   stagingKib := s.stagingNow d g, stagingWait := s.stagingNow d g != 0, liftWait := decide (g.op = 8 ∨ g.op = 9),
                   levels := if g.op = 8 ∨ g.op = 9 then s.levelsOf (s.ctxOf d.queue) g else [], chan := none,
                   wakes := (if g.src.empty then [] else [g.src.base]) ++ (if g.toPort then [] else [g.dst.base]) }

/-- A lift opcode waits for its lift slot (R255). -/
theorem State.liftWait_streamOf {g : Geo} (h : g.op = op) : (s.streamOf d g).liftWait = (op == 8 || op == 9) := by
  subst h
  exact Bool.decide_or (g.op = 8) (g.op = 9)

/-- A stream that moves something asks for its wakes; beside its descriptor it has counted a reuse of the staging. -/
theorem State.runData_wakes {g : Geo} (he : g.dst.empty = false) (hf : g.fed = false) (hw : ∀ w ∈ s.xl.walks, w.started = true) :
    s.Wakes (s.streamOf d g) (s.runData d g) := by
  have hrun : ∃ r, s.runData d g = (({ s with ids := s.ids + 1, regs := r } : State).setDesc (s.streamOf d g)).askWakes d.id := by
    unfold State.runData
    simp only [he, hf, Bool.false_eq_true, if_false]
    split
    · exact ⟨_, rfl⟩
    · exact ⟨_, rfl⟩
  obtain ⟨r, hrun⟩ := hrun
  rw [hrun]
  refine State.Wakes.askWakes (d := s.streamOf d g) ⟨⟨_, _, rfl⟩, fun w hx => .inl (hw w hx), ⟨[], ?_, fun r hr => ?_⟩, rfl, rfl, rfl, rfl, rfl⟩
  · exact (List.append_nil _).symm
  · exact absurd hr List.not_mem_nil

theorem State.beginPass_runs {g : Geo} (hp : s.predicate d = some false) (hf : g.fed = false) : s.beginPass d g = s.runData d g := by
  unfold State.beginPass
  rw [hp]
  exact if_neg (by simp [hf])

/-- The state of a stream after its wakes holds it as it began, and the other descriptors. -/
theorem State.Wakes.begun (hk : s.Wakes d t) {x : Desc} (hd : s.desc d.id = some x) :
    (∃ wk rs, t.desc d.id = some { d with wakes := wk, results := rs }) ∧ ∀ e ∈ s.descs, e.id ≠ d.id → e ∈ t.descs := by
  obtain ⟨wk, rs, hdescs⟩ := hk.descs
  refine ⟨⟨wk, rs, ?_⟩, fun e he hne => ?_⟩
  · rw [State.desc, hdescs]
    exact State.desc_setDesc_self (e := { d with wakes := wk, results := rs }) hd
  · rw [hdescs]
    exact List.mem_map.mpr ⟨e, he, if_neg hne⟩

/-- Settles O47: the checks come first, then the predicate, then the stream runs with its wakes asked for. -/
theorem dataDescriptorsBeginAsStreams : Obligations.DataDescriptorsBeginAsStreams := by
  unfold Obligations.DataDescriptorsBeginAsStreams
  intro s d c op hi hd hm ho hc hb hinj
  have hact := State.begins_of hi hd ho hm hb hinj hc
  refine ⟨fun hg => ?_, fun hg hs => ?_⟩
  · rw [State.beginData_absent hd ho hm hb hg] at hact
    refine ⟨fun h => ?_, fun h => ?_⟩
    · rw [State.beginAbsent_malformed h] at hact
      exact hact
    · rw [State.beginAbsent_sound h] at hact
      exact hact
  · rw [State.beginData_local hd ho hm hb hg hs] at hact
    refine ⟨fun (h : (s.streamCheck d []).1 ≠ 0) => ?_, fun (h : (s.streamCheck d []).1 = 0) hp => ?_,
      fun (h : (s.streamCheck d []).1 = 0) hp hf he hw => ?_⟩
    · rw [if_neg h] at hact
      exact hact
    · rw [if_pos h, State.beginPass, hp] at hact
      exact hact
    · rw [if_pos h, State.beginPass_runs hp hf] at hact
      have hk := State.runData_wakes (d := d) he hf hw
      obtain ⟨⟨wk, rs, hdesc⟩, hothers⟩ := hk.begun hd
      obtain ⟨ws, hreqs, hreads⟩ := hk.reqs
      have hlift : (s.streamOf d (mkGeo d.entries (s.param d.queue))).liftWait = (op == 8 || op == 9) := State.liftWait_streamOf ho
      exact ⟨_, _, ws, hact, hdesc, rfl, rfl, rfl, rfl, rfl, rfl, rfl, rfl, rfl, hlift, hothers, hk.ram, hk.queues, hk.sync, hreqs, hreads, hk.kp,
        hk.cfg⟩

end Sys2Proof.Machine
end
